-- ==== Sys2Proof/Word.lean ====
section
/-! DEFINITION. Sys2Proof/Word.lean: the word types (R3: little-endian, 32-bit words; R61). -/

namespace Sys2Proof

/-- One byte of memory. -/
abbrev Byte := BitVec 8
/-- One lane of a vector register, an instruction word, a special register (R41, R61, R76). -/
abbrev Word := BitVec 32
/-- A register pair, a 64-bit atomic, a virtual address before its checks (R45). -/
abbrev Dword := BitVec 64
/-- The number of a vector register (0 to 63), as encoded. -/
abbrev VReg := BitVec 6

end Sys2Proof
end

