-- ==== Sys2Proof/Syntax.lean ====
section
/-! DEFINITION. Sys2Proof/Syntax.lean: the steps of the opcode table, one constructor per row: 241 instruction words,
whose arguments are the encoding fields of R44, R46, R49 and R50 under the table's names, and 113 events, whose
arguments name the unit that takes the step and carry what arrives from outside the module. -/

namespace Sys2Proof

/-- What a flit or a home's input carries, by the number of the record it concerns (R295, R349). -/
inductive Payload where
  /-- A core's request, going to its home. -/
  | request (req : Nat)
  /-- Its reply, going back. -/
  | reply (req : Nat)
  /-- An instruction fetch and its reply (R308). -/
  | fetch (id : Nat)
  | fetchReply (id : Nat)
  /-- A watch install and a wake packet: core, entry (R280 to R283). -/
  | watch (core entry : Nat)
  | wake (core entry : Nat)
  /-- A shadow operation and its reply (R229, R233). -/
  | shd (op : Nat)
  | shdReply (op : Nat)
  /-- Link control: resend from a SEQ, or acknowledge up to a SEQ, on a station link (R351). -/
  | nak (link seq : Nat)
  | ack (link seq : Nat)
  /-- Link control: a wavelength of a station link is weak; the cause, and the corrected bits of its last 2^42 (R353). -/
  | weak (link wave cause fixed : Nat)
  /-- An access of a copy's chunk, its data or its acknowledgement: the copy, the number of the chunk's traffic, VA, bytes (R220). -/
  | copy (id packet va len : Nat)
  /-- Traffic whose effect the model takes with the event that causes it (R5, R348, R362): it only passes, for a partition; a
  request that reaches a home is answered. -/
  | passed (part : Option Nat) (answered : Bool)
  deriving DecidableEq, Repr

/-- What another module answers to a remote request: the NACK code or 0, the PTE key, the data, the flags (R362). -/
structure RemoteAns where
  code : Nat
  key : Nat
  data : List Byte
  flags : Nat
  deriving DecidableEq, Repr

/-- What the receiver of a fabric lane reports: the lane, the bits received since its last report, and how many of them the line
code corrected (R353, R363). -/
structure LaneReport where
  lane : Nat
  bits : Nat
  fixed : Nat
  deriving DecidableEq, Repr

/-- What authenticates a request of the management port: its 64-bit sequence number and its signature (R408). -/
structure Auth where
  seq : BitVec 64
  sig : List Byte
  deriving DecidableEq, Repr

/-- Where a PREEMPT or RESTORE comes from (R324). -/
inductive Source where
  | operator (auth : Auth)
  | scheduler
  deriving DecidableEq, Repr

/-- A host core's MMIO access outside its domain: its address, and the partition here of that core's domain, if any (R371). -/
structure HostAccess where
  addr : Nat
  part : Option Nat
  deriving DecidableEq, Repr

/-- A write to MMIO: the host core that makes it, `none` for the secure manager, the domain that the core works for, and the
value (R341, R371, R373). -/
structure HostWrite where
  host : Option Nat
  domain : Nat
  value : Word
  deriving DecidableEq, Repr

/-- The settings of R322. -/
structure PartSettings where
  cap : Nat
  /-- In units of 0.25 µs. -/
  wcTimer : Nat
  window : Nat
  relaunchLimit : Nat
  /-- Rate limiters: cluster interface, fabric egress, CXL port (R304, R305). -/
  limLoom : Word
  limFabric : Word
  limPool : Word
  /-- In units of 0.1 s. -/
  meter : Nat
  shadowFrames : Nat
  deriving DecidableEq, Repr

/-- The defaults of R322. -/
def PartSettings.default : PartSettings :=
  { cap := 5, wcTimer := 8, window := 850000000, relaunchLimit := 3, limLoom := 0, limFabric := 0, limPool := 0,
    meter := 10, shadowFrames := 4096 }

/-- What a CARVE names for one fixed queue: ring base and L (R324, R340). -/
structure RingSpec where
  base : Nat
  l : Nat
  deriving DecidableEq, Repr

/-- The operands of CARVE (R324). -/
structure CarveArgs where
  quadMask : Nat
  domain : Nat
  settings : PartSettings
  priv : Bool
  /-- One byte per key. -/
  keys : List Nat
  /-- Stage-1 root DFN by module. -/
  roots : List (Nat × Nat)
  sys : RingSpec
  fault : RingSpec
  event : RingSpec
  /-- First extent and count. -/
  extents : List (Nat × Nat)
  deriving DecidableEq, Repr

/-- The registers that software writes and that have no row of their own (R305, R359, R360, R375). -/
inductive MmioReg where
  | linkcfg | lsel | healthth
  /-- A rate limiter of a partition: 0 cluster interfaces, 1 fabric egress, 2 CXL port (R305). -/
  | limiter (part point : Nat)
  deriving DecidableEq, Repr

/-- What bring-up meets (R409): the PROVISION input, the digest of each measured stage and whether its signature
holds, the disabled lane quads (core, quads working), the retired banks (core, bank), the dark comb sources. -/
structure BootArgs where
  provision : Bool
  stages : List (List Byte × Bool)
  quads : List (Nat × Nat)
  banks : List (Nat × Nat)
  dark : List Nat
  deriving DecidableEq, Repr

/-- The instructions: one constructor per row of the opcode table. -/
inductive Instr where
  /-- NOP (R86): The all-zero word, which has no effect and takes no issue slot. -/
  | nop
  /-- ADD (R87): Each guard-true strand writes A + B modulo 2^32. -/
  | add (c : BitVec 1) (g : BitVec 3) (d : BitVec 6) (a : BitVec 6) (b : BitVec 6)
  /-- SUB (R87): Writes A - B modulo 2^32. -/
  | sub (c : BitVec 1) (g : BitVec 3) (d : BitVec 6) (a : BitVec 6) (b : BitVec 6)
  /-- MUL (R87): Writes the low 32 bits of A x B. -/
  | mul (c : BitVec 1) (g : BitVec 3) (d : BitVec 6) (a : BitVec 6) (b : BitVec 6)
  /-- MULH (R87): Writes the high 32 bits of the signed 64-bit product. -/
  | mulh (c : BitVec 1) (g : BitVec 3) (d : BitVec 6) (a : BitVec 6) (b : BitVec 6)
  /-- MULHU (R87): Writes the high 32 bits of the unsigned 64-bit product. -/
  | mulhu (c : BitVec 1) (g : BitVec 3) (d : BitVec 6) (a : BitVec 6) (b : BitVec 6)
  /-- AND (R87): Writes A AND B. -/
  | and (c : BitVec 1) (g : BitVec 3) (d : BitVec 6) (a : BitVec 6) (b : BitVec 6)
  /-- OR (R87): Writes A OR B. -/
  | or (c : BitVec 1) (g : BitVec 3) (d : BitVec 6) (a : BitVec 6) (b : BitVec 6)
  /-- XOR (R87): Writes A XOR B. -/
  | xor (c : BitVec 1) (g : BitVec 3) (d : BitVec 6) (a : BitVec 6) (b : BitVec 6)
  /-- ANDN (R87): Writes A AND NOT B. -/
  | andn (c : BitVec 1) (g : BitVec 3) (d : BitVec 6) (a : BitVec 6) (b : BitVec 6)
  /-- SHL (R87): Writes A shifted left by B[4:0]. -/
  | shl (c : BitVec 1) (g : BitVec 3) (d : BitVec 6) (a : BitVec 6) (b : BitVec 6)
  /-- SHR (R87): Writes A shifted right logically by B[4:0]. -/
  | shr (c : BitVec 1) (g : BitVec 3) (d : BitVec 6) (a : BitVec 6) (b : BitVec 6)
  /-- SAR (R87): Writes A shifted right arithmetically by B[4:0]. -/
  | sar (c : BitVec 1) (g : BitVec 3) (d : BitVec 6) (a : BitVec 6) (b : BitVec 6)
  /-- MIN (R87): Writes the signed minimum of A and B. -/
  | min (c : BitVec 1) (g : BitVec 3) (d : BitVec 6) (a : BitVec 6) (b : BitVec 6)
  /-- MAX (R87): Writes the signed maximum of A and B. -/
  | max (c : BitVec 1) (g : BitVec 3) (d : BitVec 6) (a : BitVec 6) (b : BitVec 6)
  /-- MINU (R87): Writes the unsigned minimum of A and B. -/
  | minu (c : BitVec 1) (g : BitVec 3) (d : BitVec 6) (a : BitVec 6) (b : BitVec 6)
  /-- MAXU (R87): Writes the unsigned maximum of A and B. -/
  | maxu (c : BitVec 1) (g : BitVec 3) (d : BitVec 6) (a : BitVec 6) (b : BitVec 6)
  /-- ADDSAT (R88): Writes the signed saturating sum. -/
  | addsat (c : BitVec 1) (g : BitVec 3) (d : BitVec 6) (a : BitVec 6) (b : BitVec 6)
  /-- SUBSAT (R88): Writes the signed saturating difference. -/
  | subsat (c : BitVec 1) (g : BitVec 3) (d : BitVec 6) (a : BitVec 6) (b : BitVec 6)
  /-- ADDSATU (R88): Writes the unsigned saturating sum. -/
  | addsatu (c : BitVec 1) (g : BitVec 3) (d : BitVec 6) (a : BitVec 6) (b : BitVec 6)
  /-- SUBSATU (R88): Writes the unsigned saturating difference. -/
  | subsatu (c : BitVec 1) (g : BitVec 3) (d : BitVec 6) (a : BitVec 6) (b : BitVec 6)
  /-- DIV (R88): Writes the signed quotient, with defined results for division by zero and overflow. -/
  | div (c : BitVec 1) (g : BitVec 3) (d : BitVec 6) (a : BitVec 6) (b : BitVec 6)
  /-- DIVU (R88): Writes the unsigned quotient, or 0xFFFF_FFFF for B = 0. -/
  | divu (c : BitVec 1) (g : BitVec 3) (d : BitVec 6) (a : BitVec 6) (b : BitVec 6)
  /-- REM (R88): Writes the signed remainder, with the sign of A. -/
  | rem (c : BitVec 1) (g : BitVec 3) (d : BitVec 6) (a : BitVec 6) (b : BitVec 6)
  /-- REMU (R88): Writes the unsigned remainder, or A for B = 0. -/
  | remu (c : BitVec 1) (g : BitVec 3) (d : BitVec 6) (a : BitVec 6) (b : BitVec 6)
  /-- POPC (R88): Writes the number of 1 bits of A. -/
  | popc (c : BitVec 1) (g : BitVec 3) (d : BitVec 6) (a : BitVec 6)
  /-- CLZ (R88): Writes the number of leading zero bits of A. -/
  | clz (c : BitVec 1) (g : BitVec 3) (d : BitVec 6) (a : BitVec 6)
  /-- CTZ (R88): Writes the number of trailing zero bits of A. -/
  | ctz (c : BitVec 1) (g : BitVec 3) (d : BitVec 6) (a : BitVec 6)
  /-- BREV (R88): Writes A with its bit order reversed. -/
  | brev (c : BitVec 1) (g : BitVec 3) (d : BitVec 6) (a : BitVec 6)
  /-- ABS (R88): Writes the absolute value of signed A. -/
  | abs (c : BitVec 1) (g : BitVec 3) (d : BitVec 6) (a : BitVec 6)
  /-- NEG (R88): Writes 0 - A. -/
  | neg (c : BitVec 1) (g : BitVec 3) (d : BitVec 6) (a : BitVec 6)
  /-- ABSDIFF (R88): Writes |A - B| of signed operands as an unsigned word. -/
  | absdiff (c : BitVec 1) (g : BitVec 3) (d : BitVec 6) (a : BitVec 6) (b : BitVec 6)
  /-- ADD64 (R89): Writes the 64-bit sum of two pairs. -/
  | add64 (c : BitVec 1) (g : BitVec 3) (d : BitVec 6) (a : BitVec 6) (b : BitVec 6)
  /-- SUB64 (R89): Writes the 64-bit difference of two pairs. -/
  | sub64 (c : BitVec 1) (g : BitVec 3) (d : BitVec 6) (a : BitVec 6) (b : BitVec 6)
  /-- SHL64 (R89): Writes the pair shifted left by B[5:0]. -/
  | shl64 (c : BitVec 1) (g : BitVec 3) (d : BitVec 6) (a : BitVec 6) (b : BitVec 6)
  /-- SHR64 (R89): Writes the pair shifted right logically by B[5:0]. -/
  | shr64 (c : BitVec 1) (g : BitVec 3) (d : BitVec 6) (a : BitVec 6) (b : BitVec 6)
  /-- SAR64 (R89): Writes the pair shifted right arithmetically by B[5:0]. -/
  | sar64 (c : BitVec 1) (g : BitVec 3) (d : BitVec 6) (a : BitVec 6) (b : BitVec 6)
  /-- MULW (R89): Writes the exact signed 64-bit product of two words. -/
  | mulw (c : BitVec 1) (g : BitVec 3) (d : BitVec 6) (a : BitVec 6) (b : BitVec 6)
  /-- MULWU (R89): Writes the exact unsigned 64-bit product of two words. -/
  | mulwu (c : BitVec 1) (g : BitVec 3) (d : BitVec 6) (a : BitVec 6) (b : BitVec 6)
  /-- AND64 (R89): Writes the 64-bit AND of two pairs. -/
  | and64 (c : BitVec 1) (g : BitVec 3) (d : BitVec 6) (a : BitVec 6) (b : BitVec 6)
  /-- OR64 (R89): Writes the 64-bit OR of two pairs. -/
  | or64 (c : BitVec 1) (g : BitVec 3) (d : BitVec 6) (a : BitVec 6) (b : BitVec 6)
  /-- XOR64 (R89): Writes the 64-bit XOR of two pairs. -/
  | xor64 (c : BitVec 1) (g : BitVec 3) (d : BitVec 6) (a : BitVec 6) (b : BitVec 6)
  /-- ADDW (R89): Adds a zero-extended word to a pair. -/
  | addw (c : BitVec 1) (g : BitVec 3) (d : BitVec 6) (a : BitVec 6) (b : BitVec 6)
  /-- ADDWS (R89): Adds a sign-extended word to a pair. -/
  | addws (c : BitVec 1) (g : BitVec 3) (d : BitVec 6) (a : BitVec 6) (b : BitVec 6)
  /-- LEA2 (R89): Adds a zero-extended word times 2 to a pair. -/
  | lea2 (c : BitVec 1) (g : BitVec 3) (d : BitVec 6) (a : BitVec 6) (b : BitVec 6)
  /-- LEA4 (R89): Adds a zero-extended word times 4 to a pair. -/
  | lea4 (c : BitVec 1) (g : BitVec 3) (d : BitVec 6) (a : BitVec 6) (b : BitVec 6)
  /-- LEA8 (R89): Adds a zero-extended word times 8 to a pair. -/
  | lea8 (c : BitVec 1) (g : BitVec 3) (d : BitVec 6) (a : BitVec 6) (b : BitVec 6)
  /-- LEA16 (R89): Adds a zero-extended word times 16 to a pair. -/
  | lea16 (c : BitVec 1) (g : BitVec 3) (d : BitVec 6) (a : BitVec 6) (b : BitVec 6)
  /-- ADDI (R91): Writes A plus the sign-extended i10. -/
  | addi (c : BitVec 1) (g : BitVec 3) (d : BitVec 6) (a : BitVec 6) (i : BitVec 10)
  /-- ANDI (R91): Writes A AND the zero-extended i10. -/
  | andi (c : BitVec 1) (g : BitVec 3) (d : BitVec 6) (a : BitVec 6) (i : BitVec 10)
  /-- ORI (R91): Writes A OR the zero-extended i10. -/
  | ori (c : BitVec 1) (g : BitVec 3) (d : BitVec 6) (a : BitVec 6) (i : BitVec 10)
  /-- XORI (R91): Writes A XOR the zero-extended i10. -/
  | xori (c : BitVec 1) (g : BitVec 3) (d : BitVec 6) (a : BitVec 6) (i : BitVec 10)
  /-- SHLI (R92): Writes A shifted left by an immediate amount. -/
  | shli (c : BitVec 1) (g : BitVec 3) (d : BitVec 6) (a : BitVec 6) (n : BitVec 5)
  /-- SHRI (R92): Writes A shifted right logically by an immediate amount. -/
  | shri (c : BitVec 1) (g : BitVec 3) (d : BitVec 6) (a : BitVec 6) (n : BitVec 5)
  /-- SARI (R92): Writes A shifted right arithmetically by an immediate amount. -/
  | sari (c : BitVec 1) (g : BitVec 3) (d : BitVec 6) (a : BitVec 6) (n : BitVec 5)
  /-- ROLI (R92): Writes A rotated left by an immediate amount. -/
  | roli (c : BitVec 1) (g : BitVec 3) (d : BitVec 6) (a : BitVec 6) (n : BitVec 5)
  /-- MOVI (R93): Writes the sign-extended i16. -/
  | movi (c : BitVec 1) (g : BitVec 3) (d : BitVec 6) (i : BitVec 16)
  /-- MOVHI (R93): Replaces the high half of the destination with i16 and keeps the low half. -/
  | movhi (c : BitVec 1) (g : BitVec 3) (d : BitVec 6) (i : BitVec 16)
  /-- ADD64I (R90): Adds the sign-extended i10 to a pair. -/
  | add64i (c : BitVec 1) (g : BitVec 3) (d : BitVec 6) (a : BitVec 6) (i : BitVec 10)
  /-- ICMP (R94): Evaluates an integer condition and combines it into a predicate. -/
  | icmp (c : BitVec 1) (g : BitVec 3) (p : BitVec 3) (k : BitVec 3) (a : BitVec 6) (b : BitVec 6) (f : BitVec 4)
  /-- FCMP (R95): Evaluates an FP32 condition and combines it into a predicate, raising NV as tabled. -/
  | fcmp (c : BitVec 1) (g : BitVec 3) (p : BitVec 3) (k : BitVec 3) (a : BitVec 6) (b : BitVec 6) (q : BitVec 1) (f : BitVec 3)
  /-- SEL (R96): Writes A or B according to the predicate named by g. -/
  | sel (c : BitVec 1) (s : BitVec 3) (d : BitVec 6) (a : BitVec 6) (b : BitVec 6)
  /-- PAND (R97): Writes pa AND pb to a predicate. -/
  | pand (c : BitVec 1) (g : BitVec 3) (d : BitVec 3) (a : BitVec 3) (b : BitVec 3)
  /-- POR (R97): Writes pa OR pb to a predicate. -/
  | por (c : BitVec 1) (g : BitVec 3) (d : BitVec 3) (a : BitVec 3) (b : BitVec 3)
  /-- PXOR (R97): Writes pa XOR pb to a predicate. -/
  | pxor (c : BitVec 1) (g : BitVec 3) (d : BitVec 3) (a : BitVec 3) (b : BitVec 3)
  /-- PANDN (R97): Writes pa AND NOT pb to a predicate. -/
  | pandn (c : BitVec 1) (g : BitVec 3) (d : BitVec 3) (a : BitVec 3) (b : BitVec 3)
  /-- PNOT (R97): Writes NOT pa to a predicate. -/
  | pnot (c : BitVec 1) (g : BitVec 3) (d : BitVec 3) (a : BitVec 3)
  /-- PMOV (R97): Copies pa to a predicate. -/
  | pmov (c : BitVec 1) (g : BitVec 3) (d : BitVec 3) (a : BitVec 3)
  /-- PTOV (R97): Writes 1 or 0 to a vector register from a predicate. -/
  | ptov (c : BitVec 1) (g : BitVec 3) (d : BitVec 6) (a : BitVec 3)
  /-- VTOP (R97): Writes (A != 0) to a predicate. -/
  | vtop (c : BitVec 1) (g : BitVec 3) (d : BitVec 3) (a : BitVec 6)
  /-- FADD (R99): Writes the rounded FP32 sum under FPMODE, with flags or a trap. -/
  | fadd (c : BitVec 1) (g : BitVec 3) (d : BitVec 6) (a : BitVec 6) (b : BitVec 6) (q : BitVec 1)
  /-- FSUB (R99): Writes the rounded FP32 difference. -/
  | fsub (c : BitVec 1) (g : BitVec 3) (d : BitVec 6) (a : BitVec 6) (b : BitVec 6) (q : BitVec 1)
  /-- FMUL (R99): Writes the rounded FP32 product. -/
  | fmul (c : BitVec 1) (g : BitVec 3) (d : BitVec 6) (a : BitVec 6) (b : BitVec 6) (q : BitVec 1)
  /-- FDIV (R99): Writes the correctly rounded FP32 quotient. -/
  | fdiv (c : BitVec 1) (g : BitVec 3) (d : BitVec 6) (a : BitVec 6) (b : BitVec 6) (q : BitVec 1)
  /-- FMIN (R99): Writes the FP32 minimum as R28 gives. -/
  | fmin (c : BitVec 1) (g : BitVec 3) (d : BitVec 6) (a : BitVec 6) (b : BitVec 6) (q : BitVec 1)
  /-- FMAX (R99): Writes the FP32 maximum as R28 gives. -/
  | fmax (c : BitVec 1) (g : BitVec 3) (d : BitVec 6) (a : BitVec 6) (b : BitVec 6) (q : BitVec 1)
  /-- FCOPYSIGN (R99): Writes A with the sign bit of B. -/
  | fcopysign (c : BitVec 1) (g : BitVec 3) (d : BitVec 6) (a : BitVec 6) (b : BitVec 6) (q : BitVec 1)
  /-- FSCALE (R99): Writes A x 2^n, rounded once. -/
  | fscale (c : BitVec 1) (g : BitVec 3) (d : BitVec 6) (a : BitVec 6) (b : BitVec 6) (q : BitVec 1)
  /-- FMA (R100): Writes A x B + D with one rounding. -/
  | fma (c : BitVec 1) (g : BitVec 3) (d : BitVec 6) (a : BitVec 6) (b : BitVec 6) (q : BitVec 1)
  /-- FMS (R100): Writes A x B - D with one rounding. -/
  | fms (c : BitVec 1) (g : BitVec 3) (d : BitVec 6) (a : BitVec 6) (b : BitVec 6) (q : BitVec 1)
  /-- FNMA (R100): Writes -(A x B) + D with one rounding. -/
  | fnma (c : BitVec 1) (g : BitVec 3) (d : BitVec 6) (a : BitVec 6) (b : BitVec 6) (q : BitVec 1)
  /-- FNMS (R100): Writes -(A x B) - D with one rounding. -/
  | fnms (c : BitVec 1) (g : BitVec 3) (d : BitVec 6) (a : BitVec 6) (b : BitVec 6) (q : BitVec 1)
  /-- RCP (R101): Writes 1/A within 1 ulp. -/
  | rcp (c : BitVec 1) (g : BitVec 3) (d : BitVec 6) (a : BitVec 6) (q : BitVec 1)
  /-- RSQ (R101): Writes 1/sqrt(A) within 1 ulp. -/
  | rsq (c : BitVec 1) (g : BitVec 3) (d : BitVec 6) (a : BitVec 6) (q : BitVec 1)
  /-- SQRT (R101): Writes sqrt(A), correctly rounded RNE. -/
  | sqrt (c : BitVec 1) (g : BitVec 3) (d : BitVec 6) (a : BitVec 6) (q : BitVec 1)
  /-- EXP2 (R101): Writes 2^A within 2 ulp. -/
  | exp2 (c : BitVec 1) (g : BitVec 3) (d : BitVec 6) (a : BitVec 6) (q : BitVec 1)
  /-- LOG2 (R101): Writes log2 A within its bound. -/
  | log2 (c : BitVec 1) (g : BitVec 3) (d : BitVec 6) (a : BitVec 6) (q : BitVec 1)
  /-- SINPI (R101): Writes sin(pi A) within its bound. -/
  | sinpi (c : BitVec 1) (g : BitVec 3) (d : BitVec 6) (a : BitVec 6) (q : BitVec 1)
  /-- COSPI (R101): Writes cos(pi A) within its bound. -/
  | cospi (c : BitVec 1) (g : BitVec 3) (d : BitVec 6) (a : BitVec 6) (q : BitVec 1)
  /-- TANH (R101): Writes tanh A within 2 ulp. -/
  | tanh (c : BitVec 1) (g : BitVec 3) (d : BitVec 6) (a : BitVec 6) (q : BitVec 1)
  /-- HADD (R103): Adds two packed FP16 or BF16 pairs element by element. -/
  | hadd (c : BitVec 1) (g : BitVec 3) (d : BitVec 6) (a : BitVec 6) (b : BitVec 6) (q : BitVec 1) (t : BitVec 1)
  /-- HSUB (R103): Subtracts packed 16-bit elements. -/
  | hsub (c : BitVec 1) (g : BitVec 3) (d : BitVec 6) (a : BitVec 6) (b : BitVec 6) (q : BitVec 1) (t : BitVec 1)
  /-- HMUL (R103): Multiplies packed 16-bit elements. -/
  | hmul (c : BitVec 1) (g : BitVec 3) (d : BitVec 6) (a : BitVec 6) (b : BitVec 6) (q : BitVec 1) (t : BitVec 1)
  /-- HFMA (R103): Fused multiply-add of packed 16-bit elements into the destination. -/
  | hfma (c : BitVec 1) (g : BitVec 3) (d : BitVec 6) (a : BitVec 6) (b : BitVec 6) (q : BitVec 1) (t : BitVec 1)
  /-- FTOI (R104): Converts FP32 to INT32 under RM and the range rule. -/
  | ftoi (c : BitVec 1) (g : BitVec 3) (d : BitVec 6) (a : BitVec 6)
  /-- FTOIZ (R104): Converts FP32 to INT32 toward zero. -/
  | ftoiz (c : BitVec 1) (g : BitVec 3) (d : BitVec 6) (a : BitVec 6)
  /-- FTOU (R104): Converts FP32 to UINT32 under RM. -/
  | ftou (c : BitVec 1) (g : BitVec 3) (d : BitVec 6) (a : BitVec 6)
  /-- ITOF (R104): Converts signed INT32 to FP32. -/
  | itof (c : BitVec 1) (g : BitVec 3) (d : BitVec 6) (a : BitVec 6)
  /-- UTOF (R104): Converts unsigned INT32 to FP32. -/
  | utof (c : BitVec 1) (g : BitVec 3) (d : BitVec 6) (a : BitVec 6)
  /-- PKH (R105): Packs two FP32 values into two FP16 halves. -/
  | pkh (c : BitVec 1) (g : BitVec 3) (d : BitVec 6) (a : BitVec 6) (b : BitVec 6)
  /-- PKB (R105): Packs two FP32 values into two BF16 halves. -/
  | pkb (c : BitVec 1) (g : BitVec 3) (d : BitVec 6) (a : BitVec 6) (b : BitVec 6)
  /-- XTHL (R105): Extracts the low FP16 half to FP32. -/
  | xthl (c : BitVec 1) (g : BitVec 3) (d : BitVec 6) (a : BitVec 6)
  /-- XTHH (R105): Extracts the high FP16 half to FP32. -/
  | xthh (c : BitVec 1) (g : BitVec 3) (d : BitVec 6) (a : BitVec 6)
  /-- XTBL (R105): Extracts the low BF16 half to FP32. -/
  | xtbl (c : BitVec 1) (g : BitVec 3) (d : BitVec 6) (a : BitVec 6)
  /-- XTBH (R105): Extracts the high BF16 half to FP32. -/
  | xtbh (c : BitVec 1) (g : BitVec 3) (d : BitVec 6) (a : BitVec 6)
  /-- FRND (R104): Rounds A to an integral FP32 value under RM. -/
  | frnd (c : BitVec 1) (g : BitVec 3) (d : BitVec 6) (a : BitVec 6)
  /-- FRNDZ (R104): Rounds A to an integral FP32 value toward zero. -/
  | frndz (c : BitVec 1) (g : BitVec 3) (d : BitVec 6) (a : BitVec 6)
  /-- PK8 (R106): Packs FP32 A as E4M3 or E5M2 into byte k of the old destination. -/
  | pk8 (c : BitVec 1) (g : BitVec 3) (d : BitVec 6) (a : BitVec 6) (k : BitVec 2) (e : BitVec 1) (s : BitVec 1)
  /-- XT8 (R106): Extracts byte k as an FP8 value to FP32. -/
  | xt8 (c : BitVec 1) (g : BitVec 3) (d : BitVec 6) (a : BitVec 6) (k : BitVec 2) (e : BitVec 1)
  /-- PK4 (R107): Packs FP32 A as E2M1 into nibble k of the old destination. -/
  | pk4 (c : BitVec 1) (g : BitVec 3) (d : BitVec 6) (a : BitVec 6) (k : BitVec 3) (s : BitVec 1)
  /-- XT4 (R107): Extracts E2M1 nibble k to FP32. -/
  | xt4 (c : BitVec 1) (g : BitVec 3) (d : BitVec 6) (a : BitVec 6) (k : BitVec 3)
  /-- MOV (R108): Copies A to the destination, sharing its physical name when whole. -/
  | mov (c : BitVec 1) (g : BitVec 3) (d : BitVec 6) (a : BitVec 6)
  /-- RDX (R109): Reads the register chosen by an index register and offset, trapping INDEX outside the window. -/
  | rdx (c : BitVec 1) (g : BitVec 3) (d : BitVec 6) (n : BitVec 2) (o : BitVec 6)
  /-- WRX (R109): Writes the register chosen by an index register and offset. -/
  | wrx (c : BitVec 1) (g : BitVec 3) (d : BitVec 6) (n : BitVec 2) (o : BitVec 6)
  /-- NSET (R110): Loads an index register from A[19:0]. -/
  | nset (c : BitVec 1) (g : BitVec 3) (n : BitVec 2) (a : BitVec 6)
  /-- NGET (R110): Reads an index register into a vector register. -/
  | nget (c : BitVec 1) (g : BitVec 3) (d : BitVec 6) (n : BitVec 2)
  /-- NADV (R110): Advances the cursor of an index register by A[7:0]. -/
  | nadv (c : BitVec 1) (g : BitVec 3) (n : BitVec 2) (a : BitVec 6)
  /-- NCLR (R110): Clears an index register. -/
  | nclr (c : BitVec 1) (g : BitVec 3) (n : BitVec 2)
  /-- SHFL (R125): Each participant reads A from lane B(i). -/
  | shfl (c : BitVec 1) (g : BitVec 3) (d : BitVec 6) (a : BitVec 6) (b : BitVec 6) (y : BitVec 1)
  /-- SHFLX (R125): Each participant reads A from lane i XOR B(i). -/
  | shflx (c : BitVec 1) (g : BitVec 3) (d : BitVec 6) (a : BitVec 6) (b : BitVec 6) (y : BitVec 1)
  /-- SHFLU (R125): Each participant reads A from lane i - B(i). -/
  | shflu (c : BitVec 1) (g : BitVec 3) (d : BitVec 6) (a : BitVec 6) (b : BitVec 6) (y : BitVec 1)
  /-- SHFLD (R125): Each participant reads A from lane i + B(i). -/
  | shfld (c : BitVec 1) (g : BitVec 3) (d : BitVec 6) (a : BitVec 6) (b : BitVec 6) (y : BitVec 1)
  /-- BCAST (R125): Every participant reads A from the lane chosen by the lowest participant. -/
  | bcast (c : BitVec 1) (g : BitVec 3) (d : BitVec 6) (a : BitVec 6) (b : BitVec 6) (y : BitVec 1)
  /-- VOTE (R125): Writes ALL, ANY or ONE of the participants' predicates into a predicate. -/
  | vote (c : BitVec 1) (g : BitVec 3) (p : BitVec 3) (m : BitVec 3) (a : BitVec 3) (y : BitVec 1)
  /-- COUNT (R125): Writes the number of participants whose predicate is true. -/
  | count (c : BitVec 1) (g : BitVec 3) (d : BitVec 6) (a : BitVec 3) (y : BitVec 1)
  /-- RANK (R125): Writes the number of lower participants whose predicate is true. -/
  | rank (c : BitVec 1) (g : BitVec 3) (d : BitVec 6) (a : BitVec 3) (y : BitVec 1)
  /-- REDI_IADD (R126): Gives every participant the integer sum over participants. -/
  | rediIadd (c : BitVec 1) (g : BitVec 3) (d : BitVec 6) (a : BitVec 6) (y : BitVec 1)
  /-- REDI_IMIN (R126): Gives every participant the signed minimum. -/
  | rediImin (c : BitVec 1) (g : BitVec 3) (d : BitVec 6) (a : BitVec 6) (y : BitVec 1)
  /-- REDI_IMAX (R126): Gives every participant the signed maximum. -/
  | rediImax (c : BitVec 1) (g : BitVec 3) (d : BitVec 6) (a : BitVec 6) (y : BitVec 1)
  /-- REDI_UMIN (R126): Gives every participant the unsigned minimum. -/
  | rediUmin (c : BitVec 1) (g : BitVec 3) (d : BitVec 6) (a : BitVec 6) (y : BitVec 1)
  /-- REDI_UMAX (R126): Gives every participant the unsigned maximum. -/
  | rediUmax (c : BitVec 1) (g : BitVec 3) (d : BitVec 6) (a : BitVec 6) (y : BitVec 1)
  /-- REDI_AND (R126): Gives every participant the AND over participants. -/
  | rediAnd (c : BitVec 1) (g : BitVec 3) (d : BitVec 6) (a : BitVec 6) (y : BitVec 1)
  /-- REDI_OR (R126): Gives every participant the OR over participants. -/
  | rediOr (c : BitVec 1) (g : BitVec 3) (d : BitVec 6) (a : BitVec 6) (y : BitVec 1)
  /-- REDI_XOR (R126): Gives every participant the XOR over participants. -/
  | rediXor (c : BitVec 1) (g : BitVec 3) (d : BitVec 6) (a : BitVec 6) (y : BitVec 1)
  /-- REDF_FADDT (R127): Sums FP32 values over the weft by the fixed pairwise tree. -/
  | redfFaddt (c : BitVec 1) (g : BitVec 3) (d : BitVec 6) (a : BitVec 6) (y : BitVec 1)
  /-- REDF_FADDS (R127): Sums FP32 values sequentially in lane order. -/
  | redfFadds (c : BitVec 1) (g : BitVec 3) (d : BitVec 6) (a : BitVec 6) (y : BitVec 1)
  /-- REDF_FMIN (R127): Gives every participant the FP32 minimum. -/
  | redfFmin (c : BitVec 1) (g : BitVec 3) (d : BitVec 6) (a : BitVec 6) (y : BitVec 1)
  /-- REDF_FMAX (R127): Gives every participant the FP32 maximum. -/
  | redfFmax (c : BitVec 1) (g : BitVec 3) (d : BitVec 6) (a : BitVec 6) (y : BitVec 1)
  /-- REDF_SCANI (R127): Writes the inclusive running integer sum. -/
  | redfScani (c : BitVec 1) (g : BitVec 3) (d : BitVec 6) (a : BitVec 6) (y : BitVec 1)
  /-- REDF_SCANF (R127): Writes the inclusive sequential running FP32 sum. -/
  | redfScanf (c : BitVec 1) (g : BitVec 3) (d : BitVec 6) (a : BitVec 6) (y : BitVec 1)
  /-- REDF_SCANX (R127): Writes the exclusive running integer sum. -/
  | redfScanx (c : BitVec 1) (g : BitVec 3) (d : BitVec 6) (a : BitVec 6) (y : BitVec 1)
  /-- SETW (R116): Collective over the skein: when every live strand waits, regroups all wefts under a new grant. -/
  | setw (c : BitVec 1) (n : BitVec 3) (x : BitVec 3) (l : BitVec 1)
  /-- SLICE (R119): Weft rendezvous that re-slices an over-native weft to the largest eligible width. -/
  | slice (c : BitVec 1)
  /-- WSYNC (R120): Weft rendezvous with no other effect. -/
  | wsync (c : BitVec 1) (g : BitVec 3)
  /-- BR (R133): Branches to the packet at the displacement. -/
  | br (g : BitVec 3) (d : BitVec 22)
  /-- CALL (R133): Pushes the next PC and branches to the displacement. -/
  | call (g : BitVec 3) (d : BitVec 22)
  /-- SPLIT (R138): Records or joins a rejoin record for the join target and continues. -/
  | split (g : BitVec 3) (d : BitVec 22)
  /-- JOIN (R139): Holds arriving strands in JOINWAIT until the matching record is released. -/
  | join (g : BitVec 3)
  /-- RET (R133): Pops the return stack and continues there. -/
  | ret (g : BitVec 3)
  /-- EXIT (R143): Ends each guard-true strand, removing it from records, barriers and rendezvous. -/
  | exit (g : BitVec 3)
  /-- BRX (R133): Continues at the PC held in the strand's register. -/
  | brx (g : BitVec 3) (a : BitVec 6)
  /-- CALLX (R133): Pushes the next PC and continues at the PC held in a register. -/
  | callx (g : BitVec 3) (a : BitVec 6)
  /-- TRET (R149): Returns from a handler past the trapping instruction or chain. -/
  | tret (g : BitVec 3)
  /-- TRETR (R149): Returns from a handler to re-execute the trapping instruction. -/
  | tretr (g : BitVec 3)
  /-- YIELD (R145): Ranks the group last for 16 cc and may let the weft leave the active set. -/
  | yield (g : BitVec 3)
  /-- BREAK (R147): Traps BREAK with TVAL 0. -/
  | breakp (g : BitVec 3)
  /-- TRAP (R147): Traps SW with the code as TVAL. -/
  | trap (g : BitVec 3) (t : BitVec 6)
  /-- WAITT (R144): Puts each guard-true strand to sleep until a deadline on the module clock. -/
  | waitt (g : BitVec 3) (a : BitVec 6)
  /-- WATCH (R283): Reads a global word at its home and parks the strand on a watch entry until a condition holds. -/
  | watch (c : BitVec 1) (g : BitVec 3) (d : BitVec 6) (a : BitVec 6) (b : BitVec 6) (f : BitVec 4)
  /-- BAR_SYNC (R278): Optional release, arrival at a barrier, wait for its completion and optional acquire. -/
  | barSync (c : BitVec 1) (l : BitVec 1) (s : BitVec 2) (e : BitVec 1) (n : BitVec 4)
  /-- BAR_ARRIVE (R278): Optional release and arrival at a barrier without waiting. -/
  | barArrive (c : BitVec 1) (l : BitVec 1) (s : BitVec 2) (e : BitVec 1) (n : BitVec 4)
  /-- BAR_WAIT (R278): Waits for the barrier generation holding the strand's arrival, then optional acquire. -/
  | barWait (c : BitVec 1) (l : BitVec 1) (s : BitVec 2) (e : BitVec 1) (n : BitVec 4)
  /-- TRIGGER (R318): Waits for the skein's stores at device scope and marks the skein triggered. -/
  | trigger (c : BitVec 1) (g : BitVec 3)
  /-- LAUNCH (R319): Releases, reads and checks a launch record and enqueues it, returning a status. -/
  | launch (c : BitVec 1) (g : BitVec 3) (d : BitVec 6) (a : BitVec 6)
  /-- LAUNCHB (R320): As LAUNCH, but parks instead of returning FULL. -/
  | launchb (c : BitVec 1) (g : BitVec 3) (d : BitVec 6) (a : BitVec 6)
  /-- LDG (R180): Checks and sends a global load per strand, which waits for its value. -/
  | ldg (c : BitVec 1) (g : BitVec 3) (d : BitVec 6) (a : BitVec 6) (o : BitVec 4) (z : BitVec 3) (v : BitVec 1) (p : BitVec 2)
  /-- STG (R181): Checks and posts a global store per strand. -/
  | stg (c : BitVec 1) (g : BitVec 3) (d : BitVec 6) (a : BitVec 6) (o : BitVec 4) (z : BitVec 3) (v : BitVec 1) (p : BitVec 2)
  /-- LDS (R180): Checks and performs a scratch load, local or through the bolt window. -/
  | lds (c : BitVec 1) (g : BitVec 3) (d : BitVec 6) (a : BitVec 6) (o : BitVec 4) (z : BitVec 3) (v : BitVec 1) (p : BitVec 2)
  /-- STS (R181): Checks and performs a scratch store. -/
  | sts (c : BitVec 1) (g : BitVec 3) (d : BitVec 6) (a : BitVec 6) (o : BitVec 4) (z : BitVec 3) (v : BitVec 1) (p : BitVec 2)
  /-- ATG_ADD (R186): Global atomic add at the home, returning the old word. -/
  | atgAdd (c : BitVec 1) (g : BitVec 3) (d : BitVec 6) (a : BitVec 6) (b : BitVec 6)
  /-- ATG_MIN (R186): Global atomic signed minimum. -/
  | atgMin (c : BitVec 1) (g : BitVec 3) (d : BitVec 6) (a : BitVec 6) (b : BitVec 6)
  /-- ATG_MAX (R186): Global atomic signed maximum. -/
  | atgMax (c : BitVec 1) (g : BitVec 3) (d : BitVec 6) (a : BitVec 6) (b : BitVec 6)
  /-- ATG_MINU (R186): Global atomic unsigned minimum. -/
  | atgMinu (c : BitVec 1) (g : BitVec 3) (d : BitVec 6) (a : BitVec 6) (b : BitVec 6)
  /-- ATG_MAXU (R186): Global atomic unsigned maximum. -/
  | atgMaxu (c : BitVec 1) (g : BitVec 3) (d : BitVec 6) (a : BitVec 6) (b : BitVec 6)
  /-- ATG_AND (R186): Global atomic AND. -/
  | atgAnd (c : BitVec 1) (g : BitVec 3) (d : BitVec 6) (a : BitVec 6) (b : BitVec 6)
  /-- ATG_OR (R186): Global atomic OR. -/
  | atgOr (c : BitVec 1) (g : BitVec 3) (d : BitVec 6) (a : BitVec 6) (b : BitVec 6)
  /-- ATG_XOR (R186): Global atomic XOR. -/
  | atgXor (c : BitVec 1) (g : BitVec 3) (d : BitVec 6) (a : BitVec 6) (b : BitVec 6)
  /-- ATG_XCHG (R186): Global atomic exchange. -/
  | atgXchg (c : BitVec 1) (g : BitVec 3) (d : BitVec 6) (a : BitVec 6) (b : BitVec 6)
  /-- ATG_CAS (R186): Global atomic compare-and-swap against d. -/
  | atgCas (c : BitVec 1) (g : BitVec 3) (d : BitVec 6) (a : BitVec 6) (b : BitVec 6)
  /-- ATG_FADD (R187): Global atomic FP32 add rounded RNE. -/
  | atgFadd (c : BitVec 1) (g : BitVec 3) (d : BitVec 6) (a : BitVec 6) (b : BitVec 6)
  /-- ATG_FMIN (R187): Global atomic FP32 minimum. -/
  | atgFmin (c : BitVec 1) (g : BitVec 3) (d : BitVec 6) (a : BitVec 6) (b : BitVec 6)
  /-- ATG_FMAX (R187): Global atomic FP32 maximum. -/
  | atgFmax (c : BitVec 1) (g : BitVec 3) (d : BitVec 6) (a : BitVec 6) (b : BitVec 6)
  /-- ATG_HADD2 (R187): Global atomic add of two BF16 elements. -/
  | atgHadd2 (c : BitVec 1) (g : BitVec 3) (d : BitVec 6) (a : BitVec 6) (b : BitVec 6)
  /-- ATG_INCW (R186): Global atomic wrapping increment against a bound. -/
  | atgIncw (c : BitVec 1) (g : BitVec 3) (d : BitVec 6) (a : BitVec 6) (b : BitVec 6)
  /-- ATG64_ADD (R186): 64-bit global atomic add. -/
  | atg64Add (c : BitVec 1) (g : BitVec 3) (d : BitVec 6) (a : BitVec 6) (b : BitVec 6)
  /-- ATG64_MINU (R186): 64-bit global atomic unsigned minimum. -/
  | atg64Minu (c : BitVec 1) (g : BitVec 3) (d : BitVec 6) (a : BitVec 6) (b : BitVec 6)
  /-- ATG64_MAXU (R186): 64-bit global atomic unsigned maximum. -/
  | atg64Maxu (c : BitVec 1) (g : BitVec 3) (d : BitVec 6) (a : BitVec 6) (b : BitVec 6)
  /-- ATG64_AND (R186): 64-bit global atomic AND. -/
  | atg64And (c : BitVec 1) (g : BitVec 3) (d : BitVec 6) (a : BitVec 6) (b : BitVec 6)
  /-- ATG64_OR (R186): 64-bit global atomic OR. -/
  | atg64Or (c : BitVec 1) (g : BitVec 3) (d : BitVec 6) (a : BitVec 6) (b : BitVec 6)
  /-- ATG64_XOR (R186): 64-bit global atomic XOR. -/
  | atg64Xor (c : BitVec 1) (g : BitVec 3) (d : BitVec 6) (a : BitVec 6) (b : BitVec 6)
  /-- ATG64_XCHG (R186): 64-bit global atomic exchange. -/
  | atg64Xchg (c : BitVec 1) (g : BitVec 3) (d : BitVec 6) (a : BitVec 6) (b : BitVec 6)
  /-- ATG64_CAS (R186): 64-bit global atomic compare-and-swap. -/
  | atg64Cas (c : BitVec 1) (g : BitVec 3) (d : BitVec 6) (a : BitVec 6) (b : BitVec 6)
  /-- ATS_ADD (R186): Scratch atomic add at the bank. -/
  | atsAdd (c : BitVec 1) (g : BitVec 3) (d : BitVec 6) (a : BitVec 6) (b : BitVec 6)
  /-- ATS_MIN (R186): Scratch atomic signed minimum. -/
  | atsMin (c : BitVec 1) (g : BitVec 3) (d : BitVec 6) (a : BitVec 6) (b : BitVec 6)
  /-- ATS_MAX (R186): Scratch atomic signed maximum. -/
  | atsMax (c : BitVec 1) (g : BitVec 3) (d : BitVec 6) (a : BitVec 6) (b : BitVec 6)
  /-- ATS_MINU (R186): Scratch atomic unsigned minimum. -/
  | atsMinu (c : BitVec 1) (g : BitVec 3) (d : BitVec 6) (a : BitVec 6) (b : BitVec 6)
  /-- ATS_MAXU (R186): Scratch atomic unsigned maximum. -/
  | atsMaxu (c : BitVec 1) (g : BitVec 3) (d : BitVec 6) (a : BitVec 6) (b : BitVec 6)
  /-- ATS_AND (R186): Scratch atomic AND. -/
  | atsAnd (c : BitVec 1) (g : BitVec 3) (d : BitVec 6) (a : BitVec 6) (b : BitVec 6)
  /-- ATS_OR (R186): Scratch atomic OR. -/
  | atsOr (c : BitVec 1) (g : BitVec 3) (d : BitVec 6) (a : BitVec 6) (b : BitVec 6)
  /-- ATS_XOR (R186): Scratch atomic XOR. -/
  | atsXor (c : BitVec 1) (g : BitVec 3) (d : BitVec 6) (a : BitVec 6) (b : BitVec 6)
  /-- ATS_XCHG (R186): Scratch atomic exchange. -/
  | atsXchg (c : BitVec 1) (g : BitVec 3) (d : BitVec 6) (a : BitVec 6) (b : BitVec 6)
  /-- ATS_CAS (R186): Scratch atomic compare-and-swap. -/
  | atsCas (c : BitVec 1) (g : BitVec 3) (d : BitVec 6) (a : BitVec 6) (b : BitVec 6)
  /-- ATS_FADD (R187): Scratch atomic FP32 add. -/
  | atsFadd (c : BitVec 1) (g : BitVec 3) (d : BitVec 6) (a : BitVec 6) (b : BitVec 6)
  /-- ATS_FMIN (R187): Scratch atomic FP32 minimum. -/
  | atsFmin (c : BitVec 1) (g : BitVec 3) (d : BitVec 6) (a : BitVec 6) (b : BitVec 6)
  /-- ATS_FMAX (R187): Scratch atomic FP32 maximum. -/
  | atsFmax (c : BitVec 1) (g : BitVec 3) (d : BitVec 6) (a : BitVec 6) (b : BitVec 6)
  /-- FENCE_REL (R160): Waits until the weft's earlier stores are acknowledged at the scope and holds later accesses. -/
  | fenceRel (c : BitVec 1) (g : BitVec 3) (s : BitVec 3)
  /-- FENCE_ACQ (R161): Waits for earlier loads, invalidates the L1 group and kills the weft's load entries. -/
  | fenceAcq (c : BitVec 1) (g : BitVec 3) (s : BitVec 3)
  /-- FENCE_PHASE (R162): Release of the scope followed by acquire. -/
  | fencePhase (c : BitVec 1) (g : BitVec 3) (s : BitVec 3)
  /-- FENCE_DRAIN (R168): Sends the write-combining buffer and waits for the weft's remote stores. -/
  | fenceDrain (c : BitVec 1) (g : BitVec 3)
  /-- LDGA (R189): Asynchronous global load whose value later writes a new physical register. -/
  | ldga (c : BitVec 1) (g : BitVec 3) (d : BitVec 6) (a : BitVec 6) (o : BitVec 4) (z : BitVec 3) (p : BitVec 2)
  /-- PREF_L1 (R190): Requests the line into the L1 group and L2; failures are dropped silently. -/
  | prefL1 (c : BitVec 1) (g : BitVec 3) (a : BitVec 6) (o : BitVec 4) (z : BitVec 3)
  /-- PREF_L2 (R190): Requests the line into the L2 only. -/
  | prefL2 (c : BitVec 1) (g : BitVec 3) (a : BitVec 6) (o : BitVec 4) (z : BitVec 3)
  /-- CPY_G2S (R218): Checks a uniform descriptor and starts a global-to-scratch copy owned by the skein. -/
  | cpyG2s (c : BitVec 1) (g : BitVec 3) (a : BitVec 6) (t : BitVec 7)
  /-- CPY_S2G (R218): Starts a scratch-to-global copy, optionally into a shadow. -/
  | cpyS2g (c : BitVec 1) (g : BitVec 3) (a : BitVec 6) (t : BitVec 7)
  /-- CPY_S2S (R218): Starts a scratch-to-scratch copy. -/
  | cpyS2s (c : BitVec 1) (g : BitVec 3) (a : BitVec 6) (t : BitVec 7)
  /-- CPY_G2G (R218): Starts a global-to-global copy, optionally into a shadow. -/
  | cpyG2g (c : BitVec 1) (g : BitVec 3) (a : BitVec 6) (t : BitVec 7)
  /-- CPY_S2SM (R218): Starts a scratch multicast copy to the masked skeins of the bolt. -/
  | cpyS2sm (c : BitVec 1) (g : BitVec 3) (a : BitVec 6) (t : BitVec 7)
  /-- CWAIT (R225): Holds the weft until earlier copies with the tag have retired. -/
  | cwait (c : BitVec 1) (g : BitVec 3) (t : BitVec 7)
  /-- CWAIT_ALL (R225): Holds the weft until every earlier copy of the skein has retired. -/
  | cwaitAll (c : BitVec 1) (g : BitVec 3)
  /-- CWAIT_QUERY (R225): Returns the number of earlier copies with the tag still in flight. -/
  | cwaitQuery (c : BitVec 1) (g : BitVec 3) (d : BitVec 6) (t : BitVec 7)
  /-- SHOPEN (R229): Opens a shadow at every home of its ranges and returns a handle or an error code. -/
  | shopen (c : BitVec 1) (g : BitVec 3) (d : BitVec 6) (a : BitVec 6)
  /-- SHPUB (R233): Waits for the weft's RSTs and sends one arrival to the coordinating home. -/
  | shpub (c : BitVec 1) (g : BitVec 3) (a : BitVec 6)
  /-- SHABORT (R234): Aborts or releases a shadow as its state allows. -/
  | shabort (c : BitVec 1) (g : BitVec 3) (a : BitVec 6)
  /-- SHSTAT (R234): Returns the shadow's status word read at the coordinating home. -/
  | shstat (c : BitVec 1) (g : BitVec 3) (d : BitVec 6) (a : BitVec 6)
  /-- RADD_F32 (R232): Posted FP32 add into a shadow word. -/
  | raddF32 (c : BitVec 1) (g : BitVec 3) (a : BitVec 6) (b : BitVec 6)
  /-- RADD_BF16X2 (R232): Posted add of two BF16 elements into a shadow word. -/
  | raddBf16x2 (c : BitVec 1) (g : BitVec 3) (a : BitVec 6) (b : BitVec 6)
  /-- RADD_I32 (R232): Posted integer add into a shadow word. -/
  | raddI32 (c : BitVec 1) (g : BitVec 3) (a : BitVec 6) (b : BitVec 6)
  /-- RMAX_F32 (R232): Posted FP32 maximum into a shadow word. -/
  | rmaxF32 (c : BitVec 1) (g : BitVec 3) (a : BitVec 6) (b : BitVec 6)
  /-- MST (R232): Posted 4-byte store into a shadow and its replicas. -/
  | mst (c : BitVec 1) (g : BitVec 3) (a : BitVec 6) (b : BitVec 6)
  /-- MMA (R246): Checks at issue and queues tile += A x B in the matrix engine. -/
  | mma (c : BitVec 1) (t : BitVec 4) (a : BitVec 6) (b : BitVec 6) (x : BitVec 3) (y : BitVec 3)
  /-- MMAT (R246): As MMA with B stored transposed. -/
  | mmat (c : BitVec 1) (t : BitVec 4) (a : BitVec 6) (b : BitVec 6) (x : BitVec 3) (y : BitVec 3)
  /-- MMAS (R246): As MMA with A compressed 2:4. -/
  | mmas (c : BitVec 1) (t : BitVec 4) (a : BitVec 6) (b : BitVec 6) (x : BitVec 3) (y : BitVec 3)
  /-- MZERO (R257): Queues zeroing of a tile, its checksums and status. -/
  | mzero (c : BitVec 1) (t : BitVec 4)
  /-- MLOAD (R257): Queues a load of an FP32 tile from scratch with fresh checksums. -/
  | mload (c : BitVec 1) (t : BitVec 4) (a : BitVec 6)
  /-- MDRAIN (R257): Queues a check and a converted drain of a tile with its status block. -/
  | mdrain (c : BitVec 1) (t : BitVec 4) (a : BitVec 6) (f : BitVec 3)
  /-- MCHK (R257): Queues a checksum check of a tile. -/
  | mchk (c : BitVec 1) (t : BitVec 4)
  /-- MFS (R81): Reads a special register into a vector register. -/
  | mfs (c : BitVec 1) (g : BitVec 3) (d : BitVec 6) (n : BitVec 10)
  /-- MTS (R81): Writes a special register from a vector register, with its register-specific effects. -/
  | mts (c : BitVec 1) (g : BitVec 3) (a : BitVec 6) (n : BitVec 10)
  /-- SPSTAT (R211): Reads the scratch group states. -/
  | spstat (c : BitVec 1) (g : BitVec 3) (d : BitVec 6)
  /-- SPSCRUB (R212): Starts a scrub of the skein's allocation and holds the weft. -/
  | spscrub (c : BitVec 1) (g : BitVec 3)
  /-- SPRETIRE (R213): Retires the named scratch bank and waits while its group rebuilds. -/
  | spretire (c : BitVec 1) (g : BitVec 3) (a : BitVec 6)
  /-- ACTIVE_SET_ENTRY (R130): A resident weft with a READY strand enters the active set. -/
  | activeSetEntry (skein : Nat) (weft : Nat)
  /-- ACTIVE_SET_TIMEOUT (R130): A weft that held its slot for 1,024 cc while another waits leaves the active set. -/
  | activeSetTimeout (skein : Nat) (weft : Nat)
  /-- PATHWAIT_TIMEOUT (R131): A PATHWAIT group that waited 256 cc takes the longest-held entry of its weft. -/
  | pathwaitTimeout (skein : Nat) (weft : Nat) (pc : Word)
  /-- JOIN_TIMEOUT (R140): A rejoin record's timer expires and its waiting strands continue. -/
  | joinTimeout (skein : Nat) (weft : Nat) (target : Word)
  /-- SLICE_TIMEOUT (R119): A SLICE wait ends after JTIMEOUT cc without re-slicing. -/
  | sliceTimeout (skein : Nat) (weft : Nat)
  /-- WAITT_DEADLINE (R144): A sleeping strand's deadline passes and it becomes READY. -/
  | waittDeadline (skein : Nat) (strand : Nat)
  /-- LOAD_REPLY (R180): A load's reply writes its destination, parks on a NACK or traps KEY_DENY. -/
  | loadReply (req : Nat) (moment : Nat) (ans : RemoteAns)
  /-- ATOMIC_REPLY (R188): An atomic's reply writes the old value or acknowledges a posted atomic. -/
  | atomicReply (req : Nat) (ans : RemoteAns)
  /-- LDGA_WRITE (R189): An LDGA's value returns and writes a new physical register. -/
  | ldgaWrite (req : Nat) (moment : Nat) (ans : RemoteAns)
  /-- STORE_ACK (R155): A store's acknowledgement at a scope arrives, ending waits on it. -/
  | storeAck (req : Nat) (ans : RemoteAns)
  /-- RST_ACK (R232): An RST's acknowledgement arrives and its flags are ORed into FPFLAGS. -/
  | rstAck (req : Nat) (ans : RemoteAns)
  /-- WC_AGE_EXPIRY (R167): A write-combining entry's ageing timer expires and the entry is sent. -/
  | wcAgeExpiry (core : Nat) (line : Nat)
  /-- WAKE_PACKET (R283): A wake packet reaches the core and the parked strand receives its value. -/
  | wakePacket (core : Nat) (entry : Nat) (ans : RemoteAns)
  /-- WATCH_TIMEOUT (R283): A watch's timeout expires and the core cancels the entry. -/
  | watchTimeout (core : Nat) (entry : Nat) (ans : RemoteAns)
  /-- COPY_CHUNK (R220): A copy performs its next chunk of up to 4 KiB. -/
  | copyChunk (copy : Nat) (ans : RemoteAns)
  /-- COPY_RETIRE (R220): A copy's last write takes effect and it retires, freeing its scoreboard entry. -/
  | copyRetire (copy : Nat)
  /-- COPY_NACK (R222): A NACK on a copy access parks the copy at its chunk. -/
  | copyNack (copy : Nat) (done : Nat) (ans : RemoteAns)
  /-- COPY_VIOLATION (R224): A home denies a copy access and the skein's copy queue is frozen. -/
  | copyViolation (copy : Nat) (ans : RemoteAns)
  /-- ENGINE_OP_START (R249): The next queued engine operation starts its reads. -/
  | engineOpStart (core : Nat)
  /-- ENGINE_OP_DONE (R249): An engine operation's sums or writes complete. -/
  | engineOpDone (core : Nat)
  /-- PARITY_APPLY (R197): A group applies its oldest complete parity-queue entry to the selvage. -/
  | parityApply (core : Nat) (group : Nat)
  /-- REBUILD_COMPLETE (R202): A group's rebuild ends and it becomes DEGRADED. -/
  | rebuildComplete (core : Nat) (group : Nat)
  /-- SCRUB_PASS (R207): The periodic scrub of a core's scratchpad runs. -/
  | scrubPass (core : Nat) (found : (List (Nat × Nat))) (sel : (List (Nat × Nat)))
  /-- SPSCRUB_COMPLETE (R212): An SPSCRUB pass finishes and the weft resumes. -/
  | spscrubComplete (skein : Nat) (weft : Nat)
  /-- BIND_RECORD_WRITE (R264): A scheduler write of a slot-table record is checked and BOUND or REFUSED. -/
  | bindRecordWrite (core : Nat) (slot : Nat) (words : (List Word))
  /-- BOLT_START (R265): All skeins of a bolt start in one cc once its records are bound. -/
  | boltStart (cluster : Nat) (ctx : Nat) (lslot : Nat) (bolt : Nat)
  /-- SKEIN_END (R265): A skein with no live weft, copy or engine operation ends and frees its resources. -/
  | skeinEnd (skein : Nat)
  /-- HALT_COMPLETE (R268): Every core of the partition reaches the halted state. -/
  | haltComplete (part : Nat)
  /-- ABANDON_TIMEOUT (R268): 8 us after a pre-emption request, unfinished loads, chunks and shadow operations are abandoned or recorded. -/
  | abandonTimeout (part : Nat)
  /-- CONTEXT_SAVE_COMPLETE (R332): A context's image is saved and PREEMPT_DONE is raised. -/
  | contextSaveComplete (ctx : Nat)
  /-- IMAGE_SPILL_START (R332): An unselected image sharing the store for 100 us starts spilling to HBM. -/
  | imageSpillStart (ctx : Nat)
  /-- SPILL_COMPLETE (R332): An image finishes spilling and becomes SPILLED. -/
  | spillComplete (ctx : Nat)
  /-- RESTORE_COMPLETE (R333): A restore finishes and the cores are released. -/
  | restoreComplete (ctx : Nat)
  /-- WATCHDOG (R274): A bolt's watchdog reaches 2^EXP and the bolt is killed. -/
  | watchdog (bolt : Nat)
  /-- HOME_REQUEST (R295): A home judges a request through its checks and performs it or NACKs it. -/
  | homeRequest (what : Payload)
  /-- FAULT_RECORD_DELIVERY (R346): A waiting fault record is written into its fault queue once room appears. -/
  | faultRecordDelivery (record : Nat)
  /-- MOVE_COMPLETE (R300): A granule's copy to its new frame ends and held accesses are judged afresh. -/
  | moveComplete (domain : Nat) (granule : Nat)
  /-- RECODING_COMPLETE (R300): A granule's lines are rewritten and CMP updated. -/
  | recodingComplete (domain : Nat) (granule : Nat)
  /-- FILTER_INVALIDATION (R309): A cluster filter drops a granule's instruction lines and acknowledges. -/
  | filterInvalidation (cluster : Nat) (domain : Nat) (granule : Nat)
  /-- FILTER_ACK (R301): The last filter acknowledgement returns the granule to MAPPED. -/
  | filterAck (cluster : Nat) (domain : Nat) (granule : Nat)
  /-- SHADOW_OPEN_REQUEST (R229): A home records base generations for its granules of a new shadow. -/
  | shadowOpenRequest (op : Nat) (home : Nat)
  /-- SHADOW_WRITE (R230): A home applies an RST or shadow copy write to a shadow granule and forwards it. -/
  | shadowWrite (req : Nat)
  /-- SHPUB_ARRIVAL (R233): The coordinating home counts an arrival and starts the publish at the last. -/
  | shpubArrival (op : Nat)
  /-- PUBLISH_PREPARE (R233): A home holds its granules and votes on the publish. -/
  | publishPrepare (ctx : Nat) (slot : Nat) (home : Nat)
  /-- PUBLISH_COMMIT (R233): Every vote is yes and the shadow commits at moment P. -/
  | publishCommit (ctx : Nat) (slot : Nat)
  /-- PUBLISH_ABORT (R233): A no vote fails the publish and the shadow granules are discarded. -/
  | publishAbort (ctx : Nat) (slot : Nat)
  /-- REPLICA_TIMEOUT (R227): A replica home does not answer within 1 ms and the publish fails. -/
  | replicaTimeout (ctx : Nat) (slot : Nat)
  /-- POOL_EXTENT_WITHDRAWAL (R302): The fabric manager withdraws a pool extent and homes unmap its frames. -/
  | poolExtentWithdrawal (id : Nat) (base : Nat) (frame : Nat) (count : Nat)
  /-- POOL_INFLIGHT_TIMEOUT (R302): Requests still in flight 1 ms after a withdrawal complete with POISON. -/
  | poolInflightTimeout (id : Nat)
  /-- BACK_INVALIDATE (R366): A CXL back-invalidate snoop writes back and drops an L2 line. -/
  | backInvalidate (domain : Nat) (line : Nat)
  /-- READY_TOKEN (R317): The coordinator receives a READY token for a spanned launch. -/
  | readyToken (ctx : Nat) (sgen : Nat) (module : Nat)
  /-- START_TOKEN (R317): A module receives START and binds its bolts. -/
  | startToken (ctx : Nat) (sgen : Nat)
  /-- DOORBELL (R342): A doorbell write advances a queue's tail or head, or puts it in ERROR. -/
  | doorbell (queue : Nat) (value : HostWrite)
  /-- QRESET (R345): A write of 1 returns a system, fault or event queue from ERROR to service. -/
  | qreset (queue : Nat) (value : HostWrite)
  /-- LAUNCH_CMD (R344): Queue command that submits a launch record. -/
  | launchCmd (queue : Nat)
  /-- EVSET (R313): Queue command that sets event-vector bits and tests stored records. -/
  | evset (queue : Nat)
  /-- EVCLEAR (R344): Queue command that clears event-vector bits. -/
  | evclear (queue : Nat)
  /-- EVREAD (R344): Queue command that writes the event vector to memory. -/
  | evread (queue : Nat)
  /-- CANCEL (R317): Queue command that discards a held spanned record. -/
  | cancel (queue : Nat)
  /-- BUILD (R326): System-queue command that builds a context. -/
  | build (queue : Nat)
  /-- CONTEXT_BUILT (R326): A BUILDING context finishes loading and becomes READY. -/
  | contextBuilt (ctx : Nat)
  /-- DESTROY (R327): System-queue command that drains a context to DEAD and then FREE. -/
  | destroy (queue : Nat)
  /-- SETKEYS (R329): System-queue command that sets a context's key rights on every core. -/
  | setkeys (queue : Nat)
  /-- SETROOT (R291): System-queue command that names a module's stage-1 root. -/
  | setroot (queue : Nat)
  /-- RINGSET (R311): System-queue command that sets a context's overflow ring. -/
  | ringset (queue : Nat)
  /-- QOPEN (R340): System-queue command that opens a command queue. -/
  | qopen (queue : Nat)
  /-- QCLOSE (R345): System-queue command that drains and closes a queue. -/
  | qclose (queue : Nat)
  /-- REPLAY (R298): Closes a fault record and releases its parked requesters. -/
  | replay (queue : (Option Nat)) (id : Nat)
  /-- TINVAL (R299): Drops cached stage-1 results for a range at the homes. -/
  | tinval (queue : Nat)
  /-- PROTECT (R301): Removes execute rights from a page through XREVOKING. -/
  | protect (queue : Nat)
  /-- ATTEST (R339): Returns a signed quote over a nonce. -/
  | attest (queue : (Option Nat)) (nonce : (List Byte))
  /-- RSPOOL (R135): Names a context's return-stack pool. -/
  | rspool (queue : Nat)
  /-- CARVE (R323): Secure-manager command that creates a partition. -/
  | carve (auth : Auth) (args : CarveArgs)
  /-- UNCARVE (R324): Destroys a partition's contexts, scrubs and frees its quadrants. -/
  | uncarve (auth : Auth) (part : Nat)
  /-- PARTSET (R324): Changes a partition's settings and extents around a pre-emption. -/
  | partset (auth : Auth) (part : Nat) (settings : PartSettings) (grant : (List (Nat × Nat))) (withdraw : (List (Nat × Nat)))
  /-- PREEMPT (R268): Requests pre-emption of a partition or context. -/
  | preempt (src : Source) (part : Nat) (ctx : (Option Nat))
  /-- RESTORE (R333): Restores a saved context onto its partition's cores. -/
  | restore (src : Source) (ctx : Nat)
  /-- MIGRATE (R300): Moves a granule to another frame of its tier. -/
  | migrate (domain : Nat) (granule : Nat) (frame : Nat)
  /-- TIERMOVE (R300): Moves a granule between HBM and the pool. -/
  | tiermove (domain : Nat) (granule : Nat) (tier : Nat) (frame : Nat)
  /-- COMPRESS (R299): Sets stage-2 CMP and recodes a granule. -/
  | compress (domain : Nat) (granule : Nat)
  /-- EXPAND (R299): Clears stage-2 CMP and recodes a granule. -/
  | expand (domain : Nat) (granule : Nat)
  /-- EXTENT_GRANT (R289): Grants an extent in the ownership map. -/
  | extentGrant (extent : Nat) (owner : Nat) (shared : Bool)
  /-- EXTENT_WITHDRAW (R289): Withdraws an extent from a domain. -/
  | extentWithdraw (extent : Nat)
  /-- GENBUMP (R290): Pre-empts a domain, writes its new generation and purges its cached lines. -/
  | genbump (domain : Nat)
  /-- METER_INTERVAL_END (R336): At the meter interval's end the leaves are formed and the root signed. -/
  | meterIntervalEnd (part : Nat)
  /-- TOKEN_ARRIVAL (R350): A station takes a channel's token with its lane map and sends up to 8 flits. -/
  | tokenArrival (channel : Nat) (station : Nat)
  /-- FLIT_RECEIVE (R351): A receiver delivers, discards or NAKs a decoded flit. -/
  | flitReceive (channel : Nat) (station : Nat) (flips : (List (Nat × Nat))) (fixed : (List (Nat × Nat)))
  /-- FLIT_REPLAY_TIMEOUT (R352): A flit unacknowledged for 2 us causes a resend from the oldest. -/
  | flitReplayTimeout (channel : Nat) (station : Nat)
  /-- ROTATION_STEP (R354): A rotation step moves the next wavelength's lane to the shadow for recalibration. -/
  | rotationStep (channel : Nat) (station : Nat)
  /-- RETRAIN_DONE (R354): A retrain passes or fails, returning or retiring the wavelength. -/
  | retrainDone (channel : Nat) (station : Nat) (wave : Nat) (fixed : Nat)
  /-- SHADOW_CALIBRATION_DONE (R354): The shadow's 64 us calibration ends and it returns to STANDBY. -/
  | shadowCalibrationDone (channel : Nat) (station : Nat)
  /-- LOOM_LOSS_OF_LIGHT (R356): Loss of a comb source is detected and affected links restripe or lose their shadow. -/
  | loomLossOfLight (source : Nat) (delay : Nat)
  /-- PORT_TRAINING (R363): A fabric port trains at the extended or the standard rate. -/
  | portTraining (port : Nat) (offer : Bool) (ok : Bool)
  /-- PORT_DOWN (R364): A fabric port goes down and its port-map entries are re-pointed. -/
  | portDown (port : Nat)
  /-- PORT_UP (R364): A port returns and idle entries return to it. -/
  | portUp (port : Nat)
  /-- FABRIC_RESPONSE_TIMEOUT (R364): Requests unanswered 1 ms after a port went down complete with POISON. -/
  | fabricResponseTimeout (port : Nat)
  /-- HOST_MMIO_VIOLATION (R371): A host-core MMIO access outside its domain freezes the host-core context. -/
  | hostMmioViolation (host : Nat) (access : HostAccess)
  /-- CAPCFG_WRITE (R373): A write to a capture unit's configuration resets its minimum, maximum and bins. -/
  | capcfgWrite (quad : Nat) (unit : Nat) (value : HostWrite)
  /-- REGISTER_WRITE (R359): A write to an MMIO or setting register with no behaviour of its own. -/
  | registerWrite (reg : MmioReg) (value : Word)
  /-- POWER_OVER_LIMIT (R405): The draw exceeds LIMIT and the controller withholds cycles. -/
  | powerOverLimit (draw : Nat)
  /-- READRING (R408): Management request that returns signed records from the ring. -/
  | readring
  /-- PWRCAP (R405): Authenticated management request that reads or writes PWRCAP. -/
  | pwrcap (auth : Auth) (write : (Option Word))
  /-- RESET (R410): Authenticated request that closes the meter interval and resets the module. -/
  | reset (auth : Auth)
  /-- SETOPKEY (R408): Installs or replaces the operator's public key. -/
  | setopkey (auth : Auth) (key : (List Byte))
  /-- RESET_RELEASE (R409): Release of reset starts the measured bring-up sequence. -/
  | resetRelease (boot : BootArgs)
  /-- PARTITION_READY (R323): A carved partition finishes its zeroing and table build and CARVE completes with the partition READY. -/
  | partitionReady (part : Nat)
  /-- SHD_REPLY (R229): The replies of the homes to SHOPEN, or the coordinating home's reply to SHPUB or SHSTAT, reach the core and complete the weft's shadow operation. -/
  | shdReply (op : Nat)
  /-- INSTRUCTION_FETCH_REPLY (R308): A fetch reply, or fetch NACK, from a home reaches a cluster instruction cache and fills the line or parks the fetching strands. -/
  | instructionFetchReply (fetch : Nat)
  /-- CAPTURE_SAMPLE (R373): A capture unit samples home queue depth every 64 hc or watch-table occupancy every 1,024 hc and updates its minimum, maximum and bins. -/
  | captureSample (quad : Nat) (unit : Nat)
  /-- FABRIC_LANE_WEAK (R363): A fabric lane at the extended rate is found weak and moves to the port's shadow lane, with retraining and hand-back as on the Loom. -/
  | fabricLaneWeak (port : Nat) (report : LaneReport)
  /-- FABRIC_LANE_LOST (R365): A single lane of an extended-rate fabric port fails without taking the port down, and FABRIC_LANE_SWAP with cause 2 is raised. -/
  | fabricLaneLost (port : Nat) (lane : Nat)
  /-- KEY_TABLE_UPDATE_APPLIED (R329): An MTS to KEYk takes effect on the context's other cores within 2 us, and its completion kills the context's load entries. -/
  | keyTableUpdateApplied (ctx : Nat) (core : Nat)
  /-- WALK_COMPLETE (R288): A translation walk at a home receives its last table read and resumes the request that was waiting on it. -/
  | walkComplete (what : Payload)
  deriving DecidableEq, Repr

end Sys2Proof
end

