-- ==== Sys2Proof/WellFormed.lean ====
section
/-! DEFINITION. Sys2Proof/WellFormed.lean: the operand rules of R45, R46, R49 to R51 that the fields alone do not
carry, for the words; for the events, that a named unit exists (R5, R9 to R11, R263, R347, R355, R362, R373). -/

namespace Sys2Proof

/-- A field value up to a limit. -/
def upTo {n : Nat} (k : Nat) (x : BitVec n) : Bool := decide (x.toNat ≤ k)
/-- A pair destination: even; 63 is odd (R45, log 8). -/
def pairD (d : VReg) : Bool := decide (d.toNat % 2 = 0)
/-- A pair source: even, or 63 (R45). -/
def pairS (a : VReg) : Bool := decide (a.toNat % 2 = 0) || a == 63
/-- The data register of a size code: single, even pair, or quad (R46). -/
def dataReg (z : BitVec 3) (d : VReg) : Bool :=
  decide (z.toNat < 5) || (z == 5 && decide (d.toNat % 2 = 0)) || (z == 6 && decide (d.toNat % 4 = 0))
/-- STG and STS have no sizes 1, 3 and 7 (R46). -/
def storeSize (z : BitVec 3) : Bool := z == 0 || z == 2 || z == 4 || z == 5 || z == 6
/-- A descriptor of eight registers: n one of 0, 8, …, 48 (R50). -/
def desc8 (a : VReg) : Bool := decide (a.toNat % 8 = 0) && decide (a.toNat ≤ 48)
/-- The format pairs an MTX word may name (R49). -/
def mtxPair (x y : BitVec 3) : Bool := (x == y && decide (x.toNat ≤ 6)) || (x == 2 && y == 3) || (x == 3 && y == 2)
/-- A station writes a channel (R347). -/
def stationLink (channel station : Nat) : Bool :=
  (decide (channel < 256) && (decide (station < 96) || station == 224 || station == 225)) ||
  (decide (256 ≤ channel ∧ channel < 448) && (decide (96 ≤ station ∧ station < 224) || station == 225)) ||
  (channel == 448 && decide (96 ≤ station ∧ station < 224)) ||
  (decide (449 ≤ channel ∧ channel < 513) && decide (station < 224))

/-- Whether an instruction's operands are ones the spec admits. -/
def Instr.wellFormed : Instr → Bool
  | .nop => true
  | .add _ _ _ _ _ => true
  | .sub _ _ _ _ _ => true
  | .mul _ _ _ _ _ => true
  | .mulh _ _ _ _ _ => true
  | .mulhu _ _ _ _ _ => true
  | .and _ _ _ _ _ => true
  | .or _ _ _ _ _ => true
  | .xor _ _ _ _ _ => true
  | .andn _ _ _ _ _ => true
  | .shl _ _ _ _ _ => true
  | .shr _ _ _ _ _ => true
  | .sar _ _ _ _ _ => true
  | .min _ _ _ _ _ => true
  | .max _ _ _ _ _ => true
  | .minu _ _ _ _ _ => true
  | .maxu _ _ _ _ _ => true
  | .addsat _ _ _ _ _ => true
  | .subsat _ _ _ _ _ => true
  | .addsatu _ _ _ _ _ => true
  | .subsatu _ _ _ _ _ => true
  | .div _ _ _ _ _ => true
  | .divu _ _ _ _ _ => true
  | .rem _ _ _ _ _ => true
  | .remu _ _ _ _ _ => true
  | .popc _ _ _ _ => true
  | .clz _ _ _ _ => true
  | .ctz _ _ _ _ => true
  | .brev _ _ _ _ => true
  | .abs _ _ _ _ => true
  | .neg _ _ _ _ => true
  | .absdiff _ _ _ _ _ => true
  | .add64 _ _ d a b => pairD d && pairS a && pairS b
  | .sub64 _ _ d a b => pairD d && pairS a && pairS b
  | .shl64 _ _ d a _ => pairD d && pairS a
  | .shr64 _ _ d a _ => pairD d && pairS a
  | .sar64 _ _ d a _ => pairD d && pairS a
  | .mulw _ _ d _ _ => pairD d
  | .mulwu _ _ d _ _ => pairD d
  | .and64 _ _ d a b => pairD d && pairS a && pairS b
  | .or64 _ _ d a b => pairD d && pairS a && pairS b
  | .xor64 _ _ d a b => pairD d && pairS a && pairS b
  | .addw _ _ d a _ => pairD d && pairS a
  | .addws _ _ d a _ => pairD d && pairS a
  | .lea2 _ _ d a _ => pairD d && pairS a
  | .lea4 _ _ d a _ => pairD d && pairS a
  | .lea8 _ _ d a _ => pairD d && pairS a
  | .lea16 _ _ d a _ => pairD d && pairS a
  | .addi _ _ _ _ _ => true
  | .andi _ _ _ _ _ => true
  | .ori _ _ _ _ _ => true
  | .xori _ _ _ _ _ => true
  | .shli _ _ _ _ _ => true
  | .shri _ _ _ _ _ => true
  | .sari _ _ _ _ _ => true
  | .roli _ _ _ _ _ => true
  | .movi _ _ _ _ => true
  | .movhi _ _ _ _ => true
  | .add64i _ _ d a _ => pairD d && pairS a
  | .icmp _ _ _ k _ _ f => upTo 3 k && upTo 11 f
  | .fcmp _ _ _ k _ _ _ _ => upTo 3 k
  | .sel _ _ _ _ _ => true
  | .pand _ _ _ _ _ => true
  | .por _ _ _ _ _ => true
  | .pxor _ _ _ _ _ => true
  | .pandn _ _ _ _ _ => true
  | .pnot _ _ _ _ => true
  | .pmov _ _ _ _ => true
  | .ptov _ _ _ _ => true
  | .vtop _ _ _ _ => true
  | .fadd _ _ _ _ _ _ => true
  | .fsub _ _ _ _ _ _ => true
  | .fmul _ _ _ _ _ _ => true
  | .fdiv _ _ _ _ _ _ => true
  | .fmin _ _ _ _ _ _ => true
  | .fmax _ _ _ _ _ _ => true
  | .fcopysign _ _ _ _ _ _ => true
  | .fscale _ _ _ _ _ _ => true
  | .fma _ _ _ _ _ _ => true
  | .fms _ _ _ _ _ _ => true
  | .fnma _ _ _ _ _ _ => true
  | .fnms _ _ _ _ _ _ => true
  | .rcp _ _ _ _ _ => true
  | .rsq _ _ _ _ _ => true
  | .sqrt _ _ _ _ _ => true
  | .exp2 _ _ _ _ _ => true
  | .log2 _ _ _ _ _ => true
  | .sinpi _ _ _ _ _ => true
  | .cospi _ _ _ _ _ => true
  | .tanh _ _ _ _ _ => true
  | .hadd _ _ _ _ _ _ _ => true
  | .hsub _ _ _ _ _ _ _ => true
  | .hmul _ _ _ _ _ _ _ => true
  | .hfma _ _ _ _ _ _ _ => true
  | .ftoi _ _ _ _ => true
  | .ftoiz _ _ _ _ => true
  | .ftou _ _ _ _ => true
  | .itof _ _ _ _ => true
  | .utof _ _ _ _ => true
  | .pkh _ _ _ _ _ => true
  | .pkb _ _ _ _ _ => true
  | .xthl _ _ _ _ => true
  | .xthh _ _ _ _ => true
  | .xtbl _ _ _ _ => true
  | .xtbh _ _ _ _ => true
  | .frnd _ _ _ _ => true
  | .frndz _ _ _ _ => true
  | .pk8 _ _ _ _ _ _ _ => true
  | .xt8 _ _ _ _ _ _ => true
  | .pk4 _ _ _ _ _ _ => true
  | .xt4 _ _ _ _ _ => true
  | .mov _ _ _ _ => true
  | .rdx _ _ _ _ _ => true
  | .wrx _ _ _ _ _ => true
  | .nset _ _ _ _ => true
  | .nget _ _ _ _ => true
  | .nadv _ _ _ _ => true
  | .nclr _ _ _ => true
  | .shfl _ _ _ _ _ _ => true
  | .shflx _ _ _ _ _ _ => true
  | .shflu _ _ _ _ _ _ => true
  | .shfld _ _ _ _ _ _ => true
  | .bcast _ _ _ _ _ _ => true
  | .vote _ _ _ m _ _ => upTo 2 m
  | .count _ _ _ _ _ => true
  | .rank _ _ _ _ _ => true
  | .rediIadd _ _ _ _ _ => true
  | .rediImin _ _ _ _ _ => true
  | .rediImax _ _ _ _ _ => true
  | .rediUmin _ _ _ _ _ => true
  | .rediUmax _ _ _ _ _ => true
  | .rediAnd _ _ _ _ _ => true
  | .rediOr _ _ _ _ _ => true
  | .rediXor _ _ _ _ _ => true
  | .redfFaddt _ _ _ _ _ => true
  | .redfFadds _ _ _ _ _ => true
  | .redfFmin _ _ _ _ _ => true
  | .redfFmax _ _ _ _ _ => true
  | .redfScani _ _ _ _ _ => true
  | .redfScanf _ _ _ _ _ => true
  | .redfScanx _ _ _ _ _ => true
  | .setw _ n x _ => upTo 5 n && upTo 5 x && decide (n.toNat ≤ x.toNat)
  | .slice _ => true
  | .wsync _ _ => true
  | .br _ _ => true
  | .call _ _ => true
  | .split _ _ => true
  | .join _ => true
  | .ret _ => true
  | .exit _ => true
  | .brx _ _ => true
  | .callx _ _ => true
  | .tret _ => true
  | .tretr _ => true
  | .yield _ => true
  | .breakp _ => true
  | .trap _ _ => true
  | .waitt _ _ => true
  | .watch _ _ _ a _ f => pairS a && upTo 7 f
  | .barSync _ l s e n => decide (e = 1 ∨ s = 0) && decide (l = 0 ∨ n.toNat < 8)
  | .barArrive _ l s e n => decide (e = 1 ∨ s = 0) && decide (l = 0 ∨ n.toNat < 8)
  | .barWait _ l s e n => decide (e = 1 ∨ s = 0) && decide (l = 0 ∨ n.toNat < 8)
  | .trigger _ _ => true
  | .launch _ _ _ a => pairS a
  | .launchb _ _ _ a => pairS a
  | .ldg _ _ d a _ z _ p => pairS a && dataReg z d && upTo 2 p && upTo 6 z
  | .stg _ _ d a _ z _ p => pairS a && dataReg z d && upTo 2 p && storeSize z
  | .lds _ _ d _ _ z _ p => dataReg z d && upTo 2 p && upTo 6 z
  | .sts _ _ d _ _ z _ p => dataReg z d && upTo 2 p && storeSize z
  | .atgAdd _ _ _ a _ => pairS a
  | .atgMin _ _ _ a _ => pairS a
  | .atgMax _ _ _ a _ => pairS a
  | .atgMinu _ _ _ a _ => pairS a
  | .atgMaxu _ _ _ a _ => pairS a
  | .atgAnd _ _ _ a _ => pairS a
  | .atgOr _ _ _ a _ => pairS a
  | .atgXor _ _ _ a _ => pairS a
  | .atgXchg _ _ _ a _ => pairS a
  | .atgCas _ _ _ a _ => pairS a
  | .atgFadd _ _ _ a _ => pairS a
  | .atgFmin _ _ _ a _ => pairS a
  | .atgFmax _ _ _ a _ => pairS a
  | .atgHadd2 _ _ _ a _ => pairS a
  | .atgIncw _ _ _ a _ => pairS a
  | .atg64Add _ _ d a b => pairD d && pairS a && pairS b
  | .atg64Minu _ _ d a b => pairD d && pairS a && pairS b
  | .atg64Maxu _ _ d a b => pairD d && pairS a && pairS b
  | .atg64And _ _ d a b => pairD d && pairS a && pairS b
  | .atg64Or _ _ d a b => pairD d && pairS a && pairS b
  | .atg64Xor _ _ d a b => pairD d && pairS a && pairS b
  | .atg64Xchg _ _ d a b => pairD d && pairS a && pairS b
  | .atg64Cas _ _ d a b => pairD d && pairS a && pairS b
  | .atsAdd _ _ _ _ _ => true
  | .atsMin _ _ _ _ _ => true
  | .atsMax _ _ _ _ _ => true
  | .atsMinu _ _ _ _ _ => true
  | .atsMaxu _ _ _ _ _ => true
  | .atsAnd _ _ _ _ _ => true
  | .atsOr _ _ _ _ _ => true
  | .atsXor _ _ _ _ _ => true
  | .atsXchg _ _ _ _ _ => true
  | .atsCas _ _ _ _ _ => true
  | .atsFadd _ _ _ _ _ => true
  | .atsFmin _ _ _ _ _ => true
  | .atsFmax _ _ _ _ _ => true
  | .fenceRel _ _ s => upTo 3 s
  | .fenceAcq _ _ s => upTo 3 s
  | .fencePhase _ _ s => upTo 3 s
  | .fenceDrain _ _ => true
  | .ldga _ _ d a _ z p => pairS a && dataReg z d && upTo 2 p && upTo 6 z && decide (4 ≤ z.toNat)
  | .prefL1 _ _ a _ z => pairS a && upTo 6 z
  | .prefL2 _ _ a _ z => pairS a && upTo 6 z
  | .cpyG2s _ _ a _ => desc8 a
  | .cpyS2g _ _ a _ => desc8 a
  | .cpyS2s _ _ a _ => desc8 a
  | .cpyG2g _ _ a _ => desc8 a
  | .cpyS2sm _ _ a _ => desc8 a
  | .cwait _ _ _ => true
  | .cwaitAll _ _ => true
  | .cwaitQuery _ _ _ _ => true
  | .shopen _ _ _ a => desc8 a
  | .shpub _ _ _ => true
  | .shabort _ _ _ => true
  | .shstat _ _ _ _ => true
  | .raddF32 _ _ a _ => pairS a
  | .raddBf16x2 _ _ a _ => pairS a
  | .raddI32 _ _ a _ => pairS a
  | .rmaxF32 _ _ a _ => pairS a
  | .mst _ _ a _ => pairS a
  | .mma _ _ _ _ x y => mtxPair x y
  | .mmat _ _ _ _ x y => mtxPair x y
  | .mmas _ _ _ _ x y => mtxPair x y
  | .mzero _ _ => true
  | .mload _ _ _ => true
  | .mdrain _ _ _ f => upTo 5 f
  | .mchk _ _ => true
  | .mfs _ _ _ _ => true
  | .mts _ _ _ _ => true
  | .spstat _ _ _ => true
  | .spscrub _ _ => true
  | .spretire _ _ _ => true
  | .activeSetEntry _ _ => true
  | .activeSetTimeout _ _ => true
  | .pathwaitTimeout _ _ _ => true
  | .joinTimeout _ _ _ => true
  | .sliceTimeout _ _ => true
  | .waittDeadline _ _ => true
  | .loadReply _ _ _ => true
  | .atomicReply _ _ => true
  | .ldgaWrite _ _ _ => true
  | .storeAck _ _ => true
  | .rstAck _ _ => true
  | .wcAgeExpiry core _ => decide (core < 768)
  | .wakePacket core _ _ => decide (core < 768)
  | .watchTimeout core _ _ => decide (core < 768)
  | .copyChunk _ _ => true
  | .copyRetire _ => true
  | .copyNack _ _ _ => true
  | .copyViolation _ _ => true
  | .engineOpStart core => decide (core < 768)
  | .engineOpDone core => decide (core < 768)
  | .parityApply core group => decide (core < 768) && decide (group < 8)
  | .rebuildComplete core group => decide (core < 768) && decide (group < 8)
  | .scrubPass core _ _ => decide (core < 768)
  | .spscrubComplete _ _ => true
  | .bindRecordWrite core slot words => decide (core < 768) && decide (slot < 32) && decide (words.length = 8)
  | .boltStart cluster _ _ _ => decide (cluster < 96)
  | .skeinEnd _ => true
  | .haltComplete part => decide (part < 16)
  | .abandonTimeout part => decide (part < 16)
  | .contextSaveComplete _ => true
  | .imageSpillStart _ => true
  | .spillComplete _ => true
  | .restoreComplete _ => true
  | .watchdog _ => true
  | .homeRequest _ => true
  | .faultRecordDelivery _ => true
  | .moveComplete _ _ => true
  | .recodingComplete _ _ => true
  | .filterInvalidation cluster _ _ => decide (cluster < 96)
  | .filterAck cluster _ _ => decide (cluster < 96)
  | .shadowOpenRequest _ home => decide (home < 128)
  | .shadowWrite _ => true
  | .shpubArrival _ => true
  | .publishPrepare _ slot home => decide (slot < 64) && decide (home < 128)
  | .publishCommit _ slot => decide (slot < 64)
  | .publishAbort _ slot => decide (slot < 64)
  | .replicaTimeout _ slot => decide (slot < 64)
  | .poolExtentWithdrawal _ _ _ _ => true
  | .poolInflightTimeout _ => true
  | .backInvalidate _ _ => true
  | .readyToken _ _ _ => true
  | .startToken _ _ => true
  | .doorbell _ _ => true
  | .qreset _ _ => true
  | .launchCmd _ => true
  | .evset _ => true
  | .evclear _ => true
  | .evread _ => true
  | .cancel _ => true
  | .build _ => true
  | .contextBuilt _ => true
  | .destroy _ => true
  | .setkeys _ => true
  | .setroot _ => true
  | .ringset _ => true
  | .qopen _ => true
  | .qclose _ => true
  | .replay _ _ => true
  | .tinval _ => true
  | .protect _ => true
  | .attest _ nonce => decide (nonce.length = 32)
  | .rspool _ => true
  | .carve _ _ => true
  | .uncarve _ part => decide (part < 16)
  | .partset _ part _ _ _ => decide (part < 16)
  | .preempt _ part _ => decide (part < 16)
  | .restore _ _ => true
  | .migrate _ _ _ => true
  | .tiermove _ _ tier _ => decide (tier < 2)
  | .compress _ _ => true
  | .expand _ _ => true
  | .extentGrant extent _ _ => decide (extent < 65536)
  | .extentWithdraw extent => decide (extent < 65536)
  | .genbump _ => true
  | .meterIntervalEnd part => decide (part < 16)
  | .tokenArrival channel station => stationLink channel station
  | .flitReceive channel station _ _ => stationLink channel station
  | .flitReplayTimeout channel station => stationLink channel station
  | .rotationStep channel station => stationLink channel station
  | .retrainDone channel station wave _ => stationLink channel station && decide (wave < 16)
  | .shadowCalibrationDone channel station => stationLink channel station
  | .loomLossOfLight source _ => decide (source < 20)
  | .portTraining port _ _ => decide (port < 64)
  | .portDown port => decide (port < 64)
  | .portUp port => decide (port < 64)
  | .fabricResponseTimeout port => decide (port < 64)
  | .hostMmioViolation host _ => decide (host < 32)
  | .capcfgWrite quad unit _ => decide (quad < 16) && decide (unit < 32)
  | .registerWrite _ _ => true
  | .powerOverLimit _ => true
  | .readring => true
  | .pwrcap _ _ => true
  | .reset _ => true
  | .setopkey _ _ => true
  | .resetRelease _ => true
  | .partitionReady part => decide (part < 16)
  | .shdReply _ => true
  | .instructionFetchReply _ => true
  | .captureSample quad unit => decide (quad < 16) && decide (unit < 32)
  | .fabricLaneWeak port report => decide (port < 64) && decide (report.lane < 5)
  | .fabricLaneLost port lane => decide (port < 64) && decide (lane < 5)
  | .keyTableUpdateApplied _ core => decide (core < 768)
  | .walkComplete _ => true

end Sys2Proof
end

