-- ==== Sys2Proof/Decode.lean ====
section
/-! DEFINITION. Sys2Proof/Decode.lean: from instruction words to instructions, total, with a name for each refusal
(R37 to R53), and the encoder from the same tables. -/

namespace Sys2Proof

/-- Why a word is no instruction. -/
inductive Reject where
  /-- ILLEGAL (R51). -/
  | illegal
  /-- A control-transfer word with C = 1: ILLEGAL_CHAIN (R48). -/
  | chainedTransfer
  /-- Fewer than four bytes. -/
  | truncated
  deriving DecidableEq, Repr

/-- Bits [hi:lo] of a word. -/
def fld (w hi lo : Nat) : Nat := w / 2 ^ lo % 2 ^ (hi + 1 - lo)

/-- Bits [hi:lo] of a word as a field of `n` bits. -/
def bv (n w hi lo : Nat) : BitVec n := BitVec.ofNat n (fld w hi lo)

/-- Major 0x00 (R49). -/
def decMajor00 (w : Nat) : Option Instr :=
  if w = 0 then some .nop
  else none

/-- Major 0x01 (R49). -/
def decMajor01 (w : Nat) : Option Instr :=
  if fld w 3 0 = 0 then some (.add (bv 1 w 31 31) (bv 3 w 24 22) (bv 6 w 21 16) (bv 6 w 15 10) (bv 6 w 9 4))
  else if fld w 3 0 = 1 then some (.sub (bv 1 w 31 31) (bv 3 w 24 22) (bv 6 w 21 16) (bv 6 w 15 10) (bv 6 w 9 4))
  else if fld w 3 0 = 2 then some (.mul (bv 1 w 31 31) (bv 3 w 24 22) (bv 6 w 21 16) (bv 6 w 15 10) (bv 6 w 9 4))
  else if fld w 3 0 = 3 then some (.mulh (bv 1 w 31 31) (bv 3 w 24 22) (bv 6 w 21 16) (bv 6 w 15 10) (bv 6 w 9 4))
  else if fld w 3 0 = 4 then some (.mulhu (bv 1 w 31 31) (bv 3 w 24 22) (bv 6 w 21 16) (bv 6 w 15 10) (bv 6 w 9 4))
  else if fld w 3 0 = 5 then some (.and (bv 1 w 31 31) (bv 3 w 24 22) (bv 6 w 21 16) (bv 6 w 15 10) (bv 6 w 9 4))
  else if fld w 3 0 = 6 then some (.or (bv 1 w 31 31) (bv 3 w 24 22) (bv 6 w 21 16) (bv 6 w 15 10) (bv 6 w 9 4))
  else if fld w 3 0 = 7 then some (.xor (bv 1 w 31 31) (bv 3 w 24 22) (bv 6 w 21 16) (bv 6 w 15 10) (bv 6 w 9 4))
  else if fld w 3 0 = 8 then some (.andn (bv 1 w 31 31) (bv 3 w 24 22) (bv 6 w 21 16) (bv 6 w 15 10) (bv 6 w 9 4))
  else if fld w 3 0 = 9 then some (.shl (bv 1 w 31 31) (bv 3 w 24 22) (bv 6 w 21 16) (bv 6 w 15 10) (bv 6 w 9 4))
  else if fld w 3 0 = 10 then some (.shr (bv 1 w 31 31) (bv 3 w 24 22) (bv 6 w 21 16) (bv 6 w 15 10) (bv 6 w 9 4))
  else if fld w 3 0 = 11 then some (.sar (bv 1 w 31 31) (bv 3 w 24 22) (bv 6 w 21 16) (bv 6 w 15 10) (bv 6 w 9 4))
  else if fld w 3 0 = 12 then some (.min (bv 1 w 31 31) (bv 3 w 24 22) (bv 6 w 21 16) (bv 6 w 15 10) (bv 6 w 9 4))
  else if fld w 3 0 = 13 then some (.max (bv 1 w 31 31) (bv 3 w 24 22) (bv 6 w 21 16) (bv 6 w 15 10) (bv 6 w 9 4))
  else if fld w 3 0 = 14 then some (.minu (bv 1 w 31 31) (bv 3 w 24 22) (bv 6 w 21 16) (bv 6 w 15 10) (bv 6 w 9 4))
  else if fld w 3 0 = 15 then some (.maxu (bv 1 w 31 31) (bv 3 w 24 22) (bv 6 w 21 16) (bv 6 w 15 10) (bv 6 w 9 4))
  else none

/-- Major 0x02 (R49). -/
def decMajor02 (w : Nat) : Option Instr :=
  if fld w 3 0 = 0 then some (.addsat (bv 1 w 31 31) (bv 3 w 24 22) (bv 6 w 21 16) (bv 6 w 15 10) (bv 6 w 9 4))
  else if fld w 3 0 = 1 then some (.subsat (bv 1 w 31 31) (bv 3 w 24 22) (bv 6 w 21 16) (bv 6 w 15 10) (bv 6 w 9 4))
  else if fld w 3 0 = 2 then some (.addsatu (bv 1 w 31 31) (bv 3 w 24 22) (bv 6 w 21 16) (bv 6 w 15 10) (bv 6 w 9 4))
  else if fld w 3 0 = 3 then some (.subsatu (bv 1 w 31 31) (bv 3 w 24 22) (bv 6 w 21 16) (bv 6 w 15 10) (bv 6 w 9 4))
  else if fld w 3 0 = 4 then some (.div (bv 1 w 31 31) (bv 3 w 24 22) (bv 6 w 21 16) (bv 6 w 15 10) (bv 6 w 9 4))
  else if fld w 3 0 = 5 then some (.divu (bv 1 w 31 31) (bv 3 w 24 22) (bv 6 w 21 16) (bv 6 w 15 10) (bv 6 w 9 4))
  else if fld w 3 0 = 6 then some (.rem (bv 1 w 31 31) (bv 3 w 24 22) (bv 6 w 21 16) (bv 6 w 15 10) (bv 6 w 9 4))
  else if fld w 3 0 = 7 then some (.remu (bv 1 w 31 31) (bv 3 w 24 22) (bv 6 w 21 16) (bv 6 w 15 10) (bv 6 w 9 4))
  else if fld w 9 0 = 8 then some (.popc (bv 1 w 31 31) (bv 3 w 24 22) (bv 6 w 21 16) (bv 6 w 15 10))
  else if fld w 9 0 = 9 then some (.clz (bv 1 w 31 31) (bv 3 w 24 22) (bv 6 w 21 16) (bv 6 w 15 10))
  else if fld w 9 0 = 10 then some (.ctz (bv 1 w 31 31) (bv 3 w 24 22) (bv 6 w 21 16) (bv 6 w 15 10))
  else if fld w 9 0 = 11 then some (.brev (bv 1 w 31 31) (bv 3 w 24 22) (bv 6 w 21 16) (bv 6 w 15 10))
  else if fld w 9 0 = 12 then some (.abs (bv 1 w 31 31) (bv 3 w 24 22) (bv 6 w 21 16) (bv 6 w 15 10))
  else if fld w 9 0 = 13 then some (.neg (bv 1 w 31 31) (bv 3 w 24 22) (bv 6 w 21 16) (bv 6 w 15 10))
  else if fld w 3 0 = 14 then some (.absdiff (bv 1 w 31 31) (bv 3 w 24 22) (bv 6 w 21 16) (bv 6 w 15 10) (bv 6 w 9 4))
  else none

/-- Major 0x03 (R49). -/
def decMajor03 (w : Nat) : Option Instr :=
  if fld w 3 0 = 0 then some (.add64 (bv 1 w 31 31) (bv 3 w 24 22) (bv 6 w 21 16) (bv 6 w 15 10) (bv 6 w 9 4))
  else if fld w 3 0 = 1 then some (.sub64 (bv 1 w 31 31) (bv 3 w 24 22) (bv 6 w 21 16) (bv 6 w 15 10) (bv 6 w 9 4))
  else if fld w 3 0 = 2 then some (.shl64 (bv 1 w 31 31) (bv 3 w 24 22) (bv 6 w 21 16) (bv 6 w 15 10) (bv 6 w 9 4))
  else if fld w 3 0 = 3 then some (.shr64 (bv 1 w 31 31) (bv 3 w 24 22) (bv 6 w 21 16) (bv 6 w 15 10) (bv 6 w 9 4))
  else if fld w 3 0 = 4 then some (.sar64 (bv 1 w 31 31) (bv 3 w 24 22) (bv 6 w 21 16) (bv 6 w 15 10) (bv 6 w 9 4))
  else if fld w 3 0 = 5 then some (.mulw (bv 1 w 31 31) (bv 3 w 24 22) (bv 6 w 21 16) (bv 6 w 15 10) (bv 6 w 9 4))
  else if fld w 3 0 = 6 then some (.mulwu (bv 1 w 31 31) (bv 3 w 24 22) (bv 6 w 21 16) (bv 6 w 15 10) (bv 6 w 9 4))
  else if fld w 3 0 = 7 then some (.and64 (bv 1 w 31 31) (bv 3 w 24 22) (bv 6 w 21 16) (bv 6 w 15 10) (bv 6 w 9 4))
  else if fld w 3 0 = 8 then some (.or64 (bv 1 w 31 31) (bv 3 w 24 22) (bv 6 w 21 16) (bv 6 w 15 10) (bv 6 w 9 4))
  else if fld w 3 0 = 9 then some (.xor64 (bv 1 w 31 31) (bv 3 w 24 22) (bv 6 w 21 16) (bv 6 w 15 10) (bv 6 w 9 4))
  else if fld w 3 0 = 10 then some (.addw (bv 1 w 31 31) (bv 3 w 24 22) (bv 6 w 21 16) (bv 6 w 15 10) (bv 6 w 9 4))
  else if fld w 3 0 = 11 then some (.addws (bv 1 w 31 31) (bv 3 w 24 22) (bv 6 w 21 16) (bv 6 w 15 10) (bv 6 w 9 4))
  else if fld w 3 0 = 12 then some (.lea2 (bv 1 w 31 31) (bv 3 w 24 22) (bv 6 w 21 16) (bv 6 w 15 10) (bv 6 w 9 4))
  else if fld w 3 0 = 13 then some (.lea4 (bv 1 w 31 31) (bv 3 w 24 22) (bv 6 w 21 16) (bv 6 w 15 10) (bv 6 w 9 4))
  else if fld w 3 0 = 14 then some (.lea8 (bv 1 w 31 31) (bv 3 w 24 22) (bv 6 w 21 16) (bv 6 w 15 10) (bv 6 w 9 4))
  else if fld w 3 0 = 15 then some (.lea16 (bv 1 w 31 31) (bv 3 w 24 22) (bv 6 w 21 16) (bv 6 w 15 10) (bv 6 w 9 4))
  else none

/-- Major 0x04 (R49). -/
def decMajor04 (w : Nat) : Option Instr :=
  some (.addi (bv 1 w 31 31) (bv 3 w 24 22) (bv 6 w 21 16) (bv 6 w 15 10) (bv 10 w 9 0))

/-- Major 0x05 (R49). -/
def decMajor05 (w : Nat) : Option Instr :=
  some (.andi (bv 1 w 31 31) (bv 3 w 24 22) (bv 6 w 21 16) (bv 6 w 15 10) (bv 10 w 9 0))

/-- Major 0x06 (R49). -/
def decMajor06 (w : Nat) : Option Instr :=
  some (.ori (bv 1 w 31 31) (bv 3 w 24 22) (bv 6 w 21 16) (bv 6 w 15 10) (bv 10 w 9 0))

/-- Major 0x07 (R49). -/
def decMajor07 (w : Nat) : Option Instr :=
  some (.xori (bv 1 w 31 31) (bv 3 w 24 22) (bv 6 w 21 16) (bv 6 w 15 10) (bv 10 w 9 0))

/-- Major 0x08 (R49). -/
def decMajor08 (w : Nat) : Option Instr :=
  if fld w 9 5 = 0 then some (.shli (bv 1 w 31 31) (bv 3 w 24 22) (bv 6 w 21 16) (bv 6 w 15 10) (bv 5 w 4 0))
  else if fld w 9 5 = 8 then some (.shri (bv 1 w 31 31) (bv 3 w 24 22) (bv 6 w 21 16) (bv 6 w 15 10) (bv 5 w 4 0))
  else if fld w 9 5 = 16 then some (.sari (bv 1 w 31 31) (bv 3 w 24 22) (bv 6 w 21 16) (bv 6 w 15 10) (bv 5 w 4 0))
  else if fld w 9 5 = 24 then some (.roli (bv 1 w 31 31) (bv 3 w 24 22) (bv 6 w 21 16) (bv 6 w 15 10) (bv 5 w 4 0))
  else none

/-- Major 0x09 (R49). -/
def decMajor09 (w : Nat) : Option Instr :=
  some (.movi (bv 1 w 31 31) (bv 3 w 24 22) (bv 6 w 21 16) (bv 16 w 15 0))

/-- Major 0x0A (R49). -/
def decMajor0A (w : Nat) : Option Instr :=
  some (.movhi (bv 1 w 31 31) (bv 3 w 24 22) (bv 6 w 21 16) (bv 16 w 15 0))

/-- Major 0x0B (R49). -/
def decMajor0B (w : Nat) : Option Instr :=
  some (.add64i (bv 1 w 31 31) (bv 3 w 24 22) (bv 6 w 21 16) (bv 6 w 15 10) (bv 10 w 9 0))

/-- Major 0x0C (R49). -/
def decMajor0C (w : Nat) : Option Instr :=
  some (.icmp (bv 1 w 31 31) (bv 3 w 24 22) (bv 3 w 21 19) (bv 3 w 18 16) (bv 6 w 15 10) (bv 6 w 9 4) (bv 4 w 3 0))

/-- Major 0x0D (R49). -/
def decMajor0D (w : Nat) : Option Instr :=
  some (.fcmp (bv 1 w 31 31) (bv 3 w 24 22) (bv 3 w 21 19) (bv 3 w 18 16) (bv 6 w 15 10) (bv 6 w 9 4) (bv 1 w 3 3) (bv 3 w 2 0))

/-- Major 0x0E (R49). -/
def decMajor0E (w : Nat) : Option Instr :=
  if fld w 3 0 = 0 then some (.sel (bv 1 w 31 31) (bv 3 w 24 22) (bv 6 w 21 16) (bv 6 w 15 10) (bv 6 w 9 4))
  else none

/-- Major 0x0F (R49). -/
def decMajor0F (w : Nat) : Option Instr :=
  if fld w 3 0 = 0 ∧ fld w 9 7 = 0 ∧ fld w 15 13 = 0 ∧ fld w 21 19 = 0 then some (.pand (bv 1 w 31 31) (bv 3 w 24 22) (bv 3 w 18 16) (bv 3 w 12 10) (bv 3 w 6 4))
  else if fld w 3 0 = 1 ∧ fld w 9 7 = 0 ∧ fld w 15 13 = 0 ∧ fld w 21 19 = 0 then some (.por (bv 1 w 31 31) (bv 3 w 24 22) (bv 3 w 18 16) (bv 3 w 12 10) (bv 3 w 6 4))
  else if fld w 3 0 = 2 ∧ fld w 9 7 = 0 ∧ fld w 15 13 = 0 ∧ fld w 21 19 = 0 then some (.pxor (bv 1 w 31 31) (bv 3 w 24 22) (bv 3 w 18 16) (bv 3 w 12 10) (bv 3 w 6 4))
  else if fld w 3 0 = 3 ∧ fld w 9 7 = 0 ∧ fld w 15 13 = 0 ∧ fld w 21 19 = 0 then some (.pandn (bv 1 w 31 31) (bv 3 w 24 22) (bv 3 w 18 16) (bv 3 w 12 10) (bv 3 w 6 4))
  else if fld w 9 0 = 4 ∧ fld w 15 13 = 0 ∧ fld w 21 19 = 0 then some (.pnot (bv 1 w 31 31) (bv 3 w 24 22) (bv 3 w 18 16) (bv 3 w 12 10))
  else if fld w 9 0 = 5 ∧ fld w 15 13 = 0 ∧ fld w 21 19 = 0 then some (.pmov (bv 1 w 31 31) (bv 3 w 24 22) (bv 3 w 18 16) (bv 3 w 12 10))
  else if fld w 9 0 = 6 ∧ fld w 15 13 = 0 then some (.ptov (bv 1 w 31 31) (bv 3 w 24 22) (bv 6 w 21 16) (bv 3 w 12 10))
  else if fld w 9 0 = 7 ∧ fld w 21 19 = 0 then some (.vtop (bv 1 w 31 31) (bv 3 w 24 22) (bv 3 w 18 16) (bv 6 w 15 10))
  else none

/-- Major 0x10 (R49). -/
def decMajor10 (w : Nat) : Option Instr :=
  if fld w 2 0 = 0 then some (.fadd (bv 1 w 31 31) (bv 3 w 24 22) (bv 6 w 21 16) (bv 6 w 15 10) (bv 6 w 9 4) (bv 1 w 3 3))
  else if fld w 2 0 = 1 then some (.fsub (bv 1 w 31 31) (bv 3 w 24 22) (bv 6 w 21 16) (bv 6 w 15 10) (bv 6 w 9 4) (bv 1 w 3 3))
  else if fld w 2 0 = 2 then some (.fmul (bv 1 w 31 31) (bv 3 w 24 22) (bv 6 w 21 16) (bv 6 w 15 10) (bv 6 w 9 4) (bv 1 w 3 3))
  else if fld w 2 0 = 3 then some (.fdiv (bv 1 w 31 31) (bv 3 w 24 22) (bv 6 w 21 16) (bv 6 w 15 10) (bv 6 w 9 4) (bv 1 w 3 3))
  else if fld w 2 0 = 4 then some (.fmin (bv 1 w 31 31) (bv 3 w 24 22) (bv 6 w 21 16) (bv 6 w 15 10) (bv 6 w 9 4) (bv 1 w 3 3))
  else if fld w 2 0 = 5 then some (.fmax (bv 1 w 31 31) (bv 3 w 24 22) (bv 6 w 21 16) (bv 6 w 15 10) (bv 6 w 9 4) (bv 1 w 3 3))
  else if fld w 2 0 = 6 then some (.fcopysign (bv 1 w 31 31) (bv 3 w 24 22) (bv 6 w 21 16) (bv 6 w 15 10) (bv 6 w 9 4) (bv 1 w 3 3))
  else if fld w 2 0 = 7 then some (.fscale (bv 1 w 31 31) (bv 3 w 24 22) (bv 6 w 21 16) (bv 6 w 15 10) (bv 6 w 9 4) (bv 1 w 3 3))
  else none

/-- Major 0x11 (R49). -/
def decMajor11 (w : Nat) : Option Instr :=
  if fld w 2 0 = 0 then some (.fma (bv 1 w 31 31) (bv 3 w 24 22) (bv 6 w 21 16) (bv 6 w 15 10) (bv 6 w 9 4) (bv 1 w 3 3))
  else if fld w 2 0 = 1 then some (.fms (bv 1 w 31 31) (bv 3 w 24 22) (bv 6 w 21 16) (bv 6 w 15 10) (bv 6 w 9 4) (bv 1 w 3 3))
  else if fld w 2 0 = 2 then some (.fnma (bv 1 w 31 31) (bv 3 w 24 22) (bv 6 w 21 16) (bv 6 w 15 10) (bv 6 w 9 4) (bv 1 w 3 3))
  else if fld w 2 0 = 3 then some (.fnms (bv 1 w 31 31) (bv 3 w 24 22) (bv 6 w 21 16) (bv 6 w 15 10) (bv 6 w 9 4) (bv 1 w 3 3))
  else none

/-- Major 0x12 (R49). -/
def decMajor12 (w : Nat) : Option Instr :=
  if fld w 2 0 = 0 ∧ fld w 9 4 = 0 then some (.rcp (bv 1 w 31 31) (bv 3 w 24 22) (bv 6 w 21 16) (bv 6 w 15 10) (bv 1 w 3 3))
  else if fld w 2 0 = 1 ∧ fld w 9 4 = 0 then some (.rsq (bv 1 w 31 31) (bv 3 w 24 22) (bv 6 w 21 16) (bv 6 w 15 10) (bv 1 w 3 3))
  else if fld w 2 0 = 2 ∧ fld w 9 4 = 0 then some (.sqrt (bv 1 w 31 31) (bv 3 w 24 22) (bv 6 w 21 16) (bv 6 w 15 10) (bv 1 w 3 3))
  else if fld w 2 0 = 3 ∧ fld w 9 4 = 0 then some (.exp2 (bv 1 w 31 31) (bv 3 w 24 22) (bv 6 w 21 16) (bv 6 w 15 10) (bv 1 w 3 3))
  else if fld w 2 0 = 4 ∧ fld w 9 4 = 0 then some (.log2 (bv 1 w 31 31) (bv 3 w 24 22) (bv 6 w 21 16) (bv 6 w 15 10) (bv 1 w 3 3))
  else if fld w 2 0 = 5 ∧ fld w 9 4 = 0 then some (.sinpi (bv 1 w 31 31) (bv 3 w 24 22) (bv 6 w 21 16) (bv 6 w 15 10) (bv 1 w 3 3))
  else if fld w 2 0 = 6 ∧ fld w 9 4 = 0 then some (.cospi (bv 1 w 31 31) (bv 3 w 24 22) (bv 6 w 21 16) (bv 6 w 15 10) (bv 1 w 3 3))
  else if fld w 2 0 = 7 ∧ fld w 9 4 = 0 then some (.tanh (bv 1 w 31 31) (bv 3 w 24 22) (bv 6 w 21 16) (bv 6 w 15 10) (bv 1 w 3 3))
  else none

/-- Major 0x13 (R49). -/
def decMajor13 (w : Nat) : Option Instr :=
  if fld w 1 0 = 0 then some (.hadd (bv 1 w 31 31) (bv 3 w 24 22) (bv 6 w 21 16) (bv 6 w 15 10) (bv 6 w 9 4) (bv 1 w 3 3) (bv 1 w 2 2))
  else if fld w 1 0 = 1 then some (.hsub (bv 1 w 31 31) (bv 3 w 24 22) (bv 6 w 21 16) (bv 6 w 15 10) (bv 6 w 9 4) (bv 1 w 3 3) (bv 1 w 2 2))
  else if fld w 1 0 = 2 then some (.hmul (bv 1 w 31 31) (bv 3 w 24 22) (bv 6 w 21 16) (bv 6 w 15 10) (bv 6 w 9 4) (bv 1 w 3 3) (bv 1 w 2 2))
  else if fld w 1 0 = 3 then some (.hfma (bv 1 w 31 31) (bv 3 w 24 22) (bv 6 w 21 16) (bv 6 w 15 10) (bv 6 w 9 4) (bv 1 w 3 3) (bv 1 w 2 2))
  else none

/-- Major 0x14 (R49). -/
def decMajor14 (w : Nat) : Option Instr :=
  if fld w 9 0 = 0 then some (.ftoi (bv 1 w 31 31) (bv 3 w 24 22) (bv 6 w 21 16) (bv 6 w 15 10))
  else if fld w 9 0 = 1 then some (.ftoiz (bv 1 w 31 31) (bv 3 w 24 22) (bv 6 w 21 16) (bv 6 w 15 10))
  else if fld w 9 0 = 2 then some (.ftou (bv 1 w 31 31) (bv 3 w 24 22) (bv 6 w 21 16) (bv 6 w 15 10))
  else if fld w 9 0 = 3 then some (.itof (bv 1 w 31 31) (bv 3 w 24 22) (bv 6 w 21 16) (bv 6 w 15 10))
  else if fld w 9 0 = 4 then some (.utof (bv 1 w 31 31) (bv 3 w 24 22) (bv 6 w 21 16) (bv 6 w 15 10))
  else if fld w 3 0 = 5 then some (.pkh (bv 1 w 31 31) (bv 3 w 24 22) (bv 6 w 21 16) (bv 6 w 15 10) (bv 6 w 9 4))
  else if fld w 3 0 = 6 then some (.pkb (bv 1 w 31 31) (bv 3 w 24 22) (bv 6 w 21 16) (bv 6 w 15 10) (bv 6 w 9 4))
  else if fld w 9 0 = 7 then some (.xthl (bv 1 w 31 31) (bv 3 w 24 22) (bv 6 w 21 16) (bv 6 w 15 10))
  else if fld w 9 0 = 8 then some (.xthh (bv 1 w 31 31) (bv 3 w 24 22) (bv 6 w 21 16) (bv 6 w 15 10))
  else if fld w 9 0 = 9 then some (.xtbl (bv 1 w 31 31) (bv 3 w 24 22) (bv 6 w 21 16) (bv 6 w 15 10))
  else if fld w 9 0 = 10 then some (.xtbh (bv 1 w 31 31) (bv 3 w 24 22) (bv 6 w 21 16) (bv 6 w 15 10))
  else if fld w 9 0 = 11 then some (.frnd (bv 1 w 31 31) (bv 3 w 24 22) (bv 6 w 21 16) (bv 6 w 15 10))
  else if fld w 9 0 = 12 then some (.frndz (bv 1 w 31 31) (bv 3 w 24 22) (bv 6 w 21 16) (bv 6 w 15 10))
  else none

/-- Major 0x15 (R49). -/
def decMajor15 (w : Nat) : Option Instr :=
  if fld w 3 0 = 0 ∧ fld w 9 8 = 0 then some (.pk8 (bv 1 w 31 31) (bv 3 w 24 22) (bv 6 w 21 16) (bv 6 w 15 10) (bv 2 w 7 6) (bv 1 w 5 5) (bv 1 w 4 4))
  else if fld w 4 0 = 0 ∧ fld w 9 8 = 1 then some (.xt8 (bv 1 w 31 31) (bv 3 w 24 22) (bv 6 w 21 16) (bv 6 w 15 10) (bv 2 w 7 6) (bv 1 w 5 5))
  else if fld w 3 0 = 0 ∧ fld w 9 8 = 2 then some (.pk4 (bv 1 w 31 31) (bv 3 w 24 22) (bv 6 w 21 16) (bv 6 w 15 10) (bv 3 w 7 5) (bv 1 w 4 4))
  else if fld w 4 0 = 0 ∧ fld w 9 8 = 3 then some (.xt4 (bv 1 w 31 31) (bv 3 w 24 22) (bv 6 w 21 16) (bv 6 w 15 10) (bv 3 w 7 5))
  else none

/-- Major 0x16 (R49). -/
def decMajor16 (w : Nat) : Option Instr :=
  if fld w 9 0 = 0 then some (.mov (bv 1 w 31 31) (bv 3 w 24 22) (bv 6 w 21 16) (bv 6 w 15 10))
  else if fld w 3 0 = 1 ∧ fld w 15 12 = 0 then some (.rdx (bv 1 w 31 31) (bv 3 w 24 22) (bv 6 w 21 16) (bv 2 w 11 10) (bv 6 w 9 4))
  else if fld w 3 0 = 2 ∧ fld w 15 12 = 0 then some (.wrx (bv 1 w 31 31) (bv 3 w 24 22) (bv 6 w 21 16) (bv 2 w 11 10) (bv 6 w 9 4))
  else none

/-- Major 0x17 (R49). -/
def decMajor17 (w : Nat) : Option Instr :=
  if fld w 9 0 = 0 ∧ fld w 21 18 = 0 then some (.nset (bv 1 w 31 31) (bv 3 w 24 22) (bv 2 w 17 16) (bv 6 w 15 10))
  else if fld w 9 0 = 1 ∧ fld w 15 12 = 0 then some (.nget (bv 1 w 31 31) (bv 3 w 24 22) (bv 6 w 21 16) (bv 2 w 11 10))
  else if fld w 9 0 = 2 ∧ fld w 21 18 = 0 then some (.nadv (bv 1 w 31 31) (bv 3 w 24 22) (bv 2 w 17 16) (bv 6 w 15 10))
  else if fld w 15 0 = 3 ∧ fld w 21 18 = 0 then some (.nclr (bv 1 w 31 31) (bv 3 w 24 22) (bv 2 w 17 16))
  else none

/-- Major 0x18 (R49). -/
def decMajor18 (w : Nat) : Option Instr :=
  if fld w 2 0 = 0 then some (.shfl (bv 1 w 31 31) (bv 3 w 24 22) (bv 6 w 21 16) (bv 6 w 15 10) (bv 6 w 9 4) (bv 1 w 3 3))
  else if fld w 2 0 = 1 then some (.shflx (bv 1 w 31 31) (bv 3 w 24 22) (bv 6 w 21 16) (bv 6 w 15 10) (bv 6 w 9 4) (bv 1 w 3 3))
  else if fld w 2 0 = 2 then some (.shflu (bv 1 w 31 31) (bv 3 w 24 22) (bv 6 w 21 16) (bv 6 w 15 10) (bv 6 w 9 4) (bv 1 w 3 3))
  else if fld w 2 0 = 3 then some (.shfld (bv 1 w 31 31) (bv 3 w 24 22) (bv 6 w 21 16) (bv 6 w 15 10) (bv 6 w 9 4) (bv 1 w 3 3))
  else if fld w 2 0 = 4 then some (.bcast (bv 1 w 31 31) (bv 3 w 24 22) (bv 6 w 21 16) (bv 6 w 15 10) (bv 6 w 9 4) (bv 1 w 3 3))
  else if fld w 2 0 = 5 ∧ fld w 9 4 = 0 ∧ fld w 15 13 = 0 then some (.vote (bv 1 w 31 31) (bv 3 w 24 22) (bv 3 w 21 19) (bv 3 w 18 16) (bv 3 w 12 10) (bv 1 w 3 3))
  else if fld w 2 0 = 6 ∧ fld w 9 4 = 0 ∧ fld w 15 13 = 0 then some (.count (bv 1 w 31 31) (bv 3 w 24 22) (bv 6 w 21 16) (bv 3 w 12 10) (bv 1 w 3 3))
  else if fld w 2 0 = 7 ∧ fld w 9 4 = 0 ∧ fld w 15 13 = 0 then some (.rank (bv 1 w 31 31) (bv 3 w 24 22) (bv 6 w 21 16) (bv 3 w 12 10) (bv 1 w 3 3))
  else none

/-- Major 0x19 (R49). -/
def decMajor19 (w : Nat) : Option Instr :=
  if fld w 2 0 = 0 ∧ fld w 9 4 = 0 then some (.rediIadd (bv 1 w 31 31) (bv 3 w 24 22) (bv 6 w 21 16) (bv 6 w 15 10) (bv 1 w 3 3))
  else if fld w 2 0 = 1 ∧ fld w 9 4 = 0 then some (.rediImin (bv 1 w 31 31) (bv 3 w 24 22) (bv 6 w 21 16) (bv 6 w 15 10) (bv 1 w 3 3))
  else if fld w 2 0 = 2 ∧ fld w 9 4 = 0 then some (.rediImax (bv 1 w 31 31) (bv 3 w 24 22) (bv 6 w 21 16) (bv 6 w 15 10) (bv 1 w 3 3))
  else if fld w 2 0 = 3 ∧ fld w 9 4 = 0 then some (.rediUmin (bv 1 w 31 31) (bv 3 w 24 22) (bv 6 w 21 16) (bv 6 w 15 10) (bv 1 w 3 3))
  else if fld w 2 0 = 4 ∧ fld w 9 4 = 0 then some (.rediUmax (bv 1 w 31 31) (bv 3 w 24 22) (bv 6 w 21 16) (bv 6 w 15 10) (bv 1 w 3 3))
  else if fld w 2 0 = 5 ∧ fld w 9 4 = 0 then some (.rediAnd (bv 1 w 31 31) (bv 3 w 24 22) (bv 6 w 21 16) (bv 6 w 15 10) (bv 1 w 3 3))
  else if fld w 2 0 = 6 ∧ fld w 9 4 = 0 then some (.rediOr (bv 1 w 31 31) (bv 3 w 24 22) (bv 6 w 21 16) (bv 6 w 15 10) (bv 1 w 3 3))
  else if fld w 2 0 = 7 ∧ fld w 9 4 = 0 then some (.rediXor (bv 1 w 31 31) (bv 3 w 24 22) (bv 6 w 21 16) (bv 6 w 15 10) (bv 1 w 3 3))
  else none

/-- Major 0x1A (R49). -/
def decMajor1A (w : Nat) : Option Instr :=
  if fld w 2 0 = 0 ∧ fld w 9 4 = 0 then some (.redfFaddt (bv 1 w 31 31) (bv 3 w 24 22) (bv 6 w 21 16) (bv 6 w 15 10) (bv 1 w 3 3))
  else if fld w 2 0 = 1 ∧ fld w 9 4 = 0 then some (.redfFadds (bv 1 w 31 31) (bv 3 w 24 22) (bv 6 w 21 16) (bv 6 w 15 10) (bv 1 w 3 3))
  else if fld w 2 0 = 2 ∧ fld w 9 4 = 0 then some (.redfFmin (bv 1 w 31 31) (bv 3 w 24 22) (bv 6 w 21 16) (bv 6 w 15 10) (bv 1 w 3 3))
  else if fld w 2 0 = 3 ∧ fld w 9 4 = 0 then some (.redfFmax (bv 1 w 31 31) (bv 3 w 24 22) (bv 6 w 21 16) (bv 6 w 15 10) (bv 1 w 3 3))
  else if fld w 2 0 = 4 ∧ fld w 9 4 = 0 then some (.redfScani (bv 1 w 31 31) (bv 3 w 24 22) (bv 6 w 21 16) (bv 6 w 15 10) (bv 1 w 3 3))
  else if fld w 2 0 = 5 ∧ fld w 9 4 = 0 then some (.redfScanf (bv 1 w 31 31) (bv 3 w 24 22) (bv 6 w 21 16) (bv 6 w 15 10) (bv 1 w 3 3))
  else if fld w 2 0 = 6 ∧ fld w 9 4 = 0 then some (.redfScanx (bv 1 w 31 31) (bv 3 w 24 22) (bv 6 w 21 16) (bv 6 w 15 10) (bv 1 w 3 3))
  else none

/-- Major 0x1B (R49). -/
def decMajor1B (w : Nat) : Option Instr :=
  if fld w 2 1 = 0 ∧ fld w 24 9 = 57344 then some (.setw (bv 1 w 31 31) (bv 3 w 8 6) (bv 3 w 5 3) (bv 1 w 0 0))
  else if fld w 24 0 = 29360640 then some (.slice (bv 1 w 31 31))
  else if fld w 21 0 = 513 then some (.wsync (bv 1 w 31 31) (bv 3 w 24 22))
  else none

/-- Major 0x20 (R49). -/
def decMajor20 (w : Nat) : Option Instr :=
  some (.br (bv 3 w 24 22) (bv 22 w 21 0))

/-- Major 0x21 (R49). -/
def decMajor21 (w : Nat) : Option Instr :=
  some (.call (bv 3 w 24 22) (bv 22 w 21 0))

/-- Major 0x22 (R49). -/
def decMajor22 (w : Nat) : Option Instr :=
  some (.split (bv 3 w 24 22) (bv 22 w 21 0))

/-- Major 0x23 (R49). -/
def decMajor23 (w : Nat) : Option Instr :=
  if fld w 21 0 = 0 then some (.join (bv 3 w 24 22))
  else none

/-- Major 0x24 (R49). -/
def decMajor24 (w : Nat) : Option Instr :=
  if fld w 21 0 = 0 then some (.ret (bv 3 w 24 22))
  else if fld w 21 0 = 1 then some (.exit (bv 3 w 24 22))
  else if fld w 9 0 = 2 ∧ fld w 21 16 = 0 then some (.brx (bv 3 w 24 22) (bv 6 w 15 10))
  else if fld w 9 0 = 3 ∧ fld w 21 16 = 0 then some (.callx (bv 3 w 24 22) (bv 6 w 15 10))
  else if fld w 21 0 = 4 then some (.tret (bv 3 w 24 22))
  else if fld w 21 0 = 5 then some (.tretr (bv 3 w 24 22))
  else if fld w 21 0 = 6 then some (.yield (bv 3 w 24 22))
  else if fld w 21 0 = 7 then some (.breakp (bv 3 w 24 22))
  else if fld w 15 0 = 8 then some (.trap (bv 3 w 24 22) (bv 6 w 21 16))
  else if fld w 9 0 = 9 ∧ fld w 21 16 = 0 then some (.waitt (bv 3 w 24 22) (bv 6 w 15 10))
  else none

/-- Major 0x25 (R49). -/
def decMajor25 (w : Nat) : Option Instr :=
  some (.watch (bv 1 w 31 31) (bv 3 w 24 22) (bv 6 w 21 16) (bv 6 w 15 10) (bv 6 w 9 4) (bv 4 w 3 0))

/-- Major 0x26 (R49). -/
def decMajor26 (w : Nat) : Option Instr :=
  if fld w 24 8 = 114688 then some (.barSync (bv 1 w 31 31) (bv 1 w 7 7) (bv 2 w 6 5) (bv 1 w 4 4) (bv 4 w 3 0))
  else if fld w 24 8 = 114689 then some (.barArrive (bv 1 w 31 31) (bv 1 w 7 7) (bv 2 w 6 5) (bv 1 w 4 4) (bv 4 w 3 0))
  else if fld w 24 8 = 114690 then some (.barWait (bv 1 w 31 31) (bv 1 w 7 7) (bv 2 w 6 5) (bv 1 w 4 4) (bv 4 w 3 0))
  else none

/-- Major 0x27 (R49). -/
def decMajor27 (w : Nat) : Option Instr :=
  if fld w 21 0 = 0 then some (.trigger (bv 1 w 31 31) (bv 3 w 24 22))
  else if fld w 9 0 = 1 then some (.launch (bv 1 w 31 31) (bv 3 w 24 22) (bv 6 w 21 16) (bv 6 w 15 10))
  else if fld w 9 0 = 2 then some (.launchb (bv 1 w 31 31) (bv 3 w 24 22) (bv 6 w 21 16) (bv 6 w 15 10))
  else none

/-- Major 0x28 (R49). -/
def decMajor28 (w : Nat) : Option Instr :=
  some (.ldg (bv 1 w 31 31) (bv 3 w 24 22) (bv 6 w 21 16) (bv 6 w 15 10) (bv 4 w 9 6) (bv 3 w 5 3) (bv 1 w 2 2) (bv 2 w 1 0))

/-- Major 0x29 (R49). -/
def decMajor29 (w : Nat) : Option Instr :=
  some (.stg (bv 1 w 31 31) (bv 3 w 24 22) (bv 6 w 21 16) (bv 6 w 15 10) (bv 4 w 9 6) (bv 3 w 5 3) (bv 1 w 2 2) (bv 2 w 1 0))

/-- Major 0x2A (R49). -/
def decMajor2A (w : Nat) : Option Instr :=
  some (.lds (bv 1 w 31 31) (bv 3 w 24 22) (bv 6 w 21 16) (bv 6 w 15 10) (bv 4 w 9 6) (bv 3 w 5 3) (bv 1 w 2 2) (bv 2 w 1 0))

/-- Major 0x2B (R49). -/
def decMajor2B (w : Nat) : Option Instr :=
  some (.sts (bv 1 w 31 31) (bv 3 w 24 22) (bv 6 w 21 16) (bv 6 w 15 10) (bv 4 w 9 6) (bv 3 w 5 3) (bv 1 w 2 2) (bv 2 w 1 0))

/-- Major 0x2C (R49). -/
def decMajor2C (w : Nat) : Option Instr :=
  if fld w 3 0 = 0 then some (.atgAdd (bv 1 w 31 31) (bv 3 w 24 22) (bv 6 w 21 16) (bv 6 w 15 10) (bv 6 w 9 4))
  else if fld w 3 0 = 1 then some (.atgMin (bv 1 w 31 31) (bv 3 w 24 22) (bv 6 w 21 16) (bv 6 w 15 10) (bv 6 w 9 4))
  else if fld w 3 0 = 2 then some (.atgMax (bv 1 w 31 31) (bv 3 w 24 22) (bv 6 w 21 16) (bv 6 w 15 10) (bv 6 w 9 4))
  else if fld w 3 0 = 3 then some (.atgMinu (bv 1 w 31 31) (bv 3 w 24 22) (bv 6 w 21 16) (bv 6 w 15 10) (bv 6 w 9 4))
  else if fld w 3 0 = 4 then some (.atgMaxu (bv 1 w 31 31) (bv 3 w 24 22) (bv 6 w 21 16) (bv 6 w 15 10) (bv 6 w 9 4))
  else if fld w 3 0 = 5 then some (.atgAnd (bv 1 w 31 31) (bv 3 w 24 22) (bv 6 w 21 16) (bv 6 w 15 10) (bv 6 w 9 4))
  else if fld w 3 0 = 6 then some (.atgOr (bv 1 w 31 31) (bv 3 w 24 22) (bv 6 w 21 16) (bv 6 w 15 10) (bv 6 w 9 4))
  else if fld w 3 0 = 7 then some (.atgXor (bv 1 w 31 31) (bv 3 w 24 22) (bv 6 w 21 16) (bv 6 w 15 10) (bv 6 w 9 4))
  else if fld w 3 0 = 8 then some (.atgXchg (bv 1 w 31 31) (bv 3 w 24 22) (bv 6 w 21 16) (bv 6 w 15 10) (bv 6 w 9 4))
  else if fld w 3 0 = 9 then some (.atgCas (bv 1 w 31 31) (bv 3 w 24 22) (bv 6 w 21 16) (bv 6 w 15 10) (bv 6 w 9 4))
  else if fld w 3 0 = 10 then some (.atgFadd (bv 1 w 31 31) (bv 3 w 24 22) (bv 6 w 21 16) (bv 6 w 15 10) (bv 6 w 9 4))
  else if fld w 3 0 = 11 then some (.atgFmin (bv 1 w 31 31) (bv 3 w 24 22) (bv 6 w 21 16) (bv 6 w 15 10) (bv 6 w 9 4))
  else if fld w 3 0 = 12 then some (.atgFmax (bv 1 w 31 31) (bv 3 w 24 22) (bv 6 w 21 16) (bv 6 w 15 10) (bv 6 w 9 4))
  else if fld w 3 0 = 13 then some (.atgHadd2 (bv 1 w 31 31) (bv 3 w 24 22) (bv 6 w 21 16) (bv 6 w 15 10) (bv 6 w 9 4))
  else if fld w 3 0 = 14 then some (.atgIncw (bv 1 w 31 31) (bv 3 w 24 22) (bv 6 w 21 16) (bv 6 w 15 10) (bv 6 w 9 4))
  else none

/-- Major 0x2D (R49). -/
def decMajor2D (w : Nat) : Option Instr :=
  if fld w 3 0 = 0 then some (.atg64Add (bv 1 w 31 31) (bv 3 w 24 22) (bv 6 w 21 16) (bv 6 w 15 10) (bv 6 w 9 4))
  else if fld w 3 0 = 1 then some (.atg64Minu (bv 1 w 31 31) (bv 3 w 24 22) (bv 6 w 21 16) (bv 6 w 15 10) (bv 6 w 9 4))
  else if fld w 3 0 = 2 then some (.atg64Maxu (bv 1 w 31 31) (bv 3 w 24 22) (bv 6 w 21 16) (bv 6 w 15 10) (bv 6 w 9 4))
  else if fld w 3 0 = 3 then some (.atg64And (bv 1 w 31 31) (bv 3 w 24 22) (bv 6 w 21 16) (bv 6 w 15 10) (bv 6 w 9 4))
  else if fld w 3 0 = 4 then some (.atg64Or (bv 1 w 31 31) (bv 3 w 24 22) (bv 6 w 21 16) (bv 6 w 15 10) (bv 6 w 9 4))
  else if fld w 3 0 = 5 then some (.atg64Xor (bv 1 w 31 31) (bv 3 w 24 22) (bv 6 w 21 16) (bv 6 w 15 10) (bv 6 w 9 4))
  else if fld w 3 0 = 6 then some (.atg64Xchg (bv 1 w 31 31) (bv 3 w 24 22) (bv 6 w 21 16) (bv 6 w 15 10) (bv 6 w 9 4))
  else if fld w 3 0 = 7 then some (.atg64Cas (bv 1 w 31 31) (bv 3 w 24 22) (bv 6 w 21 16) (bv 6 w 15 10) (bv 6 w 9 4))
  else none

/-- Major 0x2E (R49). -/
def decMajor2E (w : Nat) : Option Instr :=
  if fld w 3 0 = 0 then some (.atsAdd (bv 1 w 31 31) (bv 3 w 24 22) (bv 6 w 21 16) (bv 6 w 15 10) (bv 6 w 9 4))
  else if fld w 3 0 = 1 then some (.atsMin (bv 1 w 31 31) (bv 3 w 24 22) (bv 6 w 21 16) (bv 6 w 15 10) (bv 6 w 9 4))
  else if fld w 3 0 = 2 then some (.atsMax (bv 1 w 31 31) (bv 3 w 24 22) (bv 6 w 21 16) (bv 6 w 15 10) (bv 6 w 9 4))
  else if fld w 3 0 = 3 then some (.atsMinu (bv 1 w 31 31) (bv 3 w 24 22) (bv 6 w 21 16) (bv 6 w 15 10) (bv 6 w 9 4))
  else if fld w 3 0 = 4 then some (.atsMaxu (bv 1 w 31 31) (bv 3 w 24 22) (bv 6 w 21 16) (bv 6 w 15 10) (bv 6 w 9 4))
  else if fld w 3 0 = 5 then some (.atsAnd (bv 1 w 31 31) (bv 3 w 24 22) (bv 6 w 21 16) (bv 6 w 15 10) (bv 6 w 9 4))
  else if fld w 3 0 = 6 then some (.atsOr (bv 1 w 31 31) (bv 3 w 24 22) (bv 6 w 21 16) (bv 6 w 15 10) (bv 6 w 9 4))
  else if fld w 3 0 = 7 then some (.atsXor (bv 1 w 31 31) (bv 3 w 24 22) (bv 6 w 21 16) (bv 6 w 15 10) (bv 6 w 9 4))
  else if fld w 3 0 = 8 then some (.atsXchg (bv 1 w 31 31) (bv 3 w 24 22) (bv 6 w 21 16) (bv 6 w 15 10) (bv 6 w 9 4))
  else if fld w 3 0 = 9 then some (.atsCas (bv 1 w 31 31) (bv 3 w 24 22) (bv 6 w 21 16) (bv 6 w 15 10) (bv 6 w 9 4))
  else if fld w 3 0 = 10 then some (.atsFadd (bv 1 w 31 31) (bv 3 w 24 22) (bv 6 w 21 16) (bv 6 w 15 10) (bv 6 w 9 4))
  else if fld w 3 0 = 11 then some (.atsFmin (bv 1 w 31 31) (bv 3 w 24 22) (bv 6 w 21 16) (bv 6 w 15 10) (bv 6 w 9 4))
  else if fld w 3 0 = 12 then some (.atsFmax (bv 1 w 31 31) (bv 3 w 24 22) (bv 6 w 21 16) (bv 6 w 15 10) (bv 6 w 9 4))
  else none

/-- Major 0x2F (R49). -/
def decMajor2F (w : Nat) : Option Instr :=
  if fld w 21 3 = 0 then some (.fenceRel (bv 1 w 31 31) (bv 3 w 24 22) (bv 3 w 2 0))
  else if fld w 21 3 = 32 then some (.fenceAcq (bv 1 w 31 31) (bv 3 w 24 22) (bv 3 w 2 0))
  else if fld w 21 3 = 64 then some (.fencePhase (bv 1 w 31 31) (bv 3 w 24 22) (bv 3 w 2 0))
  else if fld w 21 0 = 768 then some (.fenceDrain (bv 1 w 31 31) (bv 3 w 24 22))
  else none

/-- Major 0x30 (R49). -/
def decMajor30 (w : Nat) : Option Instr :=
  if fld w 2 2 = 0 then some (.ldga (bv 1 w 31 31) (bv 3 w 24 22) (bv 6 w 21 16) (bv 6 w 15 10) (bv 4 w 9 6) (bv 3 w 5 3) (bv 2 w 1 0))
  else none

/-- Major 0x31 (R49). -/
def decMajor31 (w : Nat) : Option Instr :=
  if fld w 2 0 = 0 ∧ fld w 21 16 = 0 then some (.prefL1 (bv 1 w 31 31) (bv 3 w 24 22) (bv 6 w 15 10) (bv 4 w 9 6) (bv 3 w 5 3))
  else if fld w 2 0 = 1 ∧ fld w 21 16 = 0 then some (.prefL2 (bv 1 w 31 31) (bv 3 w 24 22) (bv 6 w 15 10) (bv 4 w 9 6) (bv 3 w 5 3))
  else none

/-- Major 0x32 (R49). -/
def decMajor32 (w : Nat) : Option Instr :=
  if fld w 9 7 = 0 ∧ fld w 21 16 = 0 then some (.cpyG2s (bv 1 w 31 31) (bv 3 w 24 22) (bv 6 w 15 10) (bv 7 w 6 0))
  else if fld w 9 7 = 1 ∧ fld w 21 16 = 0 then some (.cpyS2g (bv 1 w 31 31) (bv 3 w 24 22) (bv 6 w 15 10) (bv 7 w 6 0))
  else if fld w 9 7 = 2 ∧ fld w 21 16 = 0 then some (.cpyS2s (bv 1 w 31 31) (bv 3 w 24 22) (bv 6 w 15 10) (bv 7 w 6 0))
  else if fld w 9 7 = 3 ∧ fld w 21 16 = 0 then some (.cpyG2g (bv 1 w 31 31) (bv 3 w 24 22) (bv 6 w 15 10) (bv 7 w 6 0))
  else if fld w 9 7 = 4 ∧ fld w 21 16 = 0 then some (.cpyS2sm (bv 1 w 31 31) (bv 3 w 24 22) (bv 6 w 15 10) (bv 7 w 6 0))
  else none

/-- Major 0x33 (R49). -/
def decMajor33 (w : Nat) : Option Instr :=
  if fld w 21 7 = 0 then some (.cwait (bv 1 w 31 31) (bv 3 w 24 22) (bv 7 w 6 0))
  else if fld w 21 0 = 256 then some (.cwaitAll (bv 1 w 31 31) (bv 3 w 24 22))
  else if fld w 15 7 = 4 then some (.cwaitQuery (bv 1 w 31 31) (bv 3 w 24 22) (bv 6 w 21 16) (bv 7 w 6 0))
  else none

/-- Major 0x34 (R49). -/
def decMajor34 (w : Nat) : Option Instr :=
  if fld w 9 0 = 0 then some (.shopen (bv 1 w 31 31) (bv 3 w 24 22) (bv 6 w 21 16) (bv 6 w 15 10))
  else if fld w 9 0 = 1 ∧ fld w 21 16 = 0 then some (.shpub (bv 1 w 31 31) (bv 3 w 24 22) (bv 6 w 15 10))
  else if fld w 9 0 = 2 ∧ fld w 21 16 = 0 then some (.shabort (bv 1 w 31 31) (bv 3 w 24 22) (bv 6 w 15 10))
  else if fld w 9 0 = 3 then some (.shstat (bv 1 w 31 31) (bv 3 w 24 22) (bv 6 w 21 16) (bv 6 w 15 10))
  else none

/-- Major 0x35 (R49). -/
def decMajor35 (w : Nat) : Option Instr :=
  if fld w 3 0 = 0 ∧ fld w 21 16 = 0 then some (.raddF32 (bv 1 w 31 31) (bv 3 w 24 22) (bv 6 w 15 10) (bv 6 w 9 4))
  else if fld w 3 0 = 1 ∧ fld w 21 16 = 0 then some (.raddBf16x2 (bv 1 w 31 31) (bv 3 w 24 22) (bv 6 w 15 10) (bv 6 w 9 4))
  else if fld w 3 0 = 2 ∧ fld w 21 16 = 0 then some (.raddI32 (bv 1 w 31 31) (bv 3 w 24 22) (bv 6 w 15 10) (bv 6 w 9 4))
  else if fld w 3 0 = 3 ∧ fld w 21 16 = 0 then some (.rmaxF32 (bv 1 w 31 31) (bv 3 w 24 22) (bv 6 w 15 10) (bv 6 w 9 4))
  else if fld w 3 0 = 4 ∧ fld w 21 16 = 0 then some (.mst (bv 1 w 31 31) (bv 3 w 24 22) (bv 6 w 15 10) (bv 6 w 9 4))
  else none

/-- Major 0x38 (R49). -/
def decMajor38 (w : Nat) : Option Instr :=
  if fld w 24 22 = 7 then some (.mma (bv 1 w 31 31) (bv 4 w 21 18) (bv 6 w 17 12) (bv 6 w 11 6) (bv 3 w 5 3) (bv 3 w 2 0))
  else none

/-- Major 0x39 (R49). -/
def decMajor39 (w : Nat) : Option Instr :=
  if fld w 24 22 = 7 then some (.mmat (bv 1 w 31 31) (bv 4 w 21 18) (bv 6 w 17 12) (bv 6 w 11 6) (bv 3 w 5 3) (bv 3 w 2 0))
  else none

/-- Major 0x3A (R49). -/
def decMajor3A (w : Nat) : Option Instr :=
  if fld w 24 22 = 7 then some (.mmas (bv 1 w 31 31) (bv 4 w 21 18) (bv 6 w 17 12) (bv 6 w 11 6) (bv 3 w 5 3) (bv 3 w 2 0))
  else none

/-- Major 0x3B (R49). -/
def decMajor3B (w : Nat) : Option Instr :=
  if fld w 15 0 = 0 ∧ fld w 24 20 = 28 then some (.mzero (bv 1 w 31 31) (bv 4 w 19 16))
  else if fld w 9 0 = 128 ∧ fld w 24 20 = 28 then some (.mload (bv 1 w 31 31) (bv 4 w 19 16) (bv 6 w 15 10))
  else if fld w 3 0 = 0 ∧ fld w 9 7 = 2 ∧ fld w 24 20 = 28 then some (.mdrain (bv 1 w 31 31) (bv 4 w 19 16) (bv 6 w 15 10) (bv 3 w 6 4))
  else if fld w 15 0 = 384 ∧ fld w 24 20 = 28 then some (.mchk (bv 1 w 31 31) (bv 4 w 19 16))
  else none

/-- Major 0x3C (R49). -/
def decMajor3C (w : Nat) : Option Instr :=
  if fld w 15 10 = 0 then some (.mfs (bv 1 w 31 31) (bv 3 w 24 22) (bv 6 w 21 16) (bv 10 w 9 0))
  else none

/-- Major 0x3D (R49). -/
def decMajor3D (w : Nat) : Option Instr :=
  if fld w 21 16 = 0 then some (.mts (bv 1 w 31 31) (bv 3 w 24 22) (bv 6 w 15 10) (bv 10 w 9 0))
  else none

/-- Major 0x3E (R49). -/
def decMajor3E (w : Nat) : Option Instr :=
  if fld w 15 0 = 0 then some (.spstat (bv 1 w 31 31) (bv 3 w 24 22) (bv 6 w 21 16))
  else if fld w 21 0 = 1 then some (.spscrub (bv 1 w 31 31) (bv 3 w 24 22))
  else if fld w 9 0 = 2 ∧ fld w 21 16 = 0 then some (.spretire (bv 1 w 31 31) (bv 3 w 24 22) (bv 6 w 15 10))
  else none

/-- The instruction of a word by its major, operands not yet judged; a transfer word's C bit apart. -/
def decFields (w : Nat) : Option Instr :=
  match fld w 30 25 with
  | 0x00 => decMajor00 w
  | 0x01 => decMajor01 w
  | 0x02 => decMajor02 w
  | 0x03 => decMajor03 w
  | 0x04 => decMajor04 w
  | 0x05 => decMajor05 w
  | 0x06 => decMajor06 w
  | 0x07 => decMajor07 w
  | 0x08 => decMajor08 w
  | 0x09 => decMajor09 w
  | 0x0A => decMajor0A w
  | 0x0B => decMajor0B w
  | 0x0C => decMajor0C w
  | 0x0D => decMajor0D w
  | 0x0E => decMajor0E w
  | 0x0F => decMajor0F w
  | 0x10 => decMajor10 w
  | 0x11 => decMajor11 w
  | 0x12 => decMajor12 w
  | 0x13 => decMajor13 w
  | 0x14 => decMajor14 w
  | 0x15 => decMajor15 w
  | 0x16 => decMajor16 w
  | 0x17 => decMajor17 w
  | 0x18 => decMajor18 w
  | 0x19 => decMajor19 w
  | 0x1A => decMajor1A w
  | 0x1B => decMajor1B w
  | 0x20 => decMajor20 w
  | 0x21 => decMajor21 w
  | 0x22 => decMajor22 w
  | 0x23 => decMajor23 w
  | 0x24 => decMajor24 w
  | 0x25 => decMajor25 w
  | 0x26 => decMajor26 w
  | 0x27 => decMajor27 w
  | 0x28 => decMajor28 w
  | 0x29 => decMajor29 w
  | 0x2A => decMajor2A w
  | 0x2B => decMajor2B w
  | 0x2C => decMajor2C w
  | 0x2D => decMajor2D w
  | 0x2E => decMajor2E w
  | 0x2F => decMajor2F w
  | 0x30 => decMajor30 w
  | 0x31 => decMajor31 w
  | 0x32 => decMajor32 w
  | 0x33 => decMajor33 w
  | 0x34 => decMajor34 w
  | 0x35 => decMajor35 w
  | 0x38 => decMajor38 w
  | 0x39 => decMajor39 w
  | 0x3A => decMajor3A w
  | 0x3B => decMajor3B w
  | 0x3C => decMajor3C w
  | 0x3D => decMajor3D w
  | 0x3E => decMajor3E w
  | _ => none

/-- A control-transfer word: majors 0x20 to 0x24 (R48). -/
def isTransferWord (w : Nat) : Bool := decide (0x20 ≤ fld w 30 25) && decide (fld w 30 25 ≤ 0x24)

/-- The instruction a 32-bit word is (R41 to R51). -/
def decodeWord (w : Word) : Except Reject Instr :=
  match decFields w.toNat with
  | none => .error .illegal
  | some i =>
    if i.wellFormed then
      (if isTransferWord w.toNat && decide (fld w.toNat 31 31 = 1) then .error .chainedTransfer else .ok i)
    else .error .illegal

/-- Four bytes of memory as a word, little-endian (R37). -/
def wordOfBytes (b0 b1 b2 b3 : Byte) : Word := b3 ++ b2 ++ b1 ++ b0

/-- The instruction at the front of some bytes. -/
def decodeBytes : List Byte → Except Reject Instr
  | b0 :: b1 :: b2 :: b3 :: _ => decodeWord (wordOfBytes b0 b1 b2 b3)
  | _ => .error .truncated

/-- The bytes of a word, as the hardware stores them (R37). -/
def bytesOfWord (w : Word) : List Byte :=
  [w.setWidth 8, (w >>> 8).setWidth 8, (w >>> 16).setWidth 8, (w >>> 24).setWidth 8]

/-- The instruction the decoder reads from an opcode-table word of `nbits` bits; an event has no word. -/
def decodeTableWord (nbits w : Nat) : Option Instr :=
  if nbits = 0 then none
  else match decodeBytes (bytesOfWord (BitVec.ofNat 32 w)) with
    | .ok i => some i
    | .error _ => none

/-- A word from its fixed bits and its fields, each a value and its lowest bit. -/
def wd : Nat → List (Nat × Nat) → Nat
  | m, [] => m
  | m, (v, lo) :: t => wd (m + v * 2 ^ lo) t

/-- The word of an instruction (R44, R49); events have none. -/
def encodeNat : Instr → Option Nat
  | .nop => some (wd 0x0 [])
  | .add c g d a b => some (wd 0x2000000 [(c.toNat, 31), (g.toNat, 22), (d.toNat, 16), (a.toNat, 10), (b.toNat, 4)])
  | .sub c g d a b => some (wd 0x2000001 [(c.toNat, 31), (g.toNat, 22), (d.toNat, 16), (a.toNat, 10), (b.toNat, 4)])
  | .mul c g d a b => some (wd 0x2000002 [(c.toNat, 31), (g.toNat, 22), (d.toNat, 16), (a.toNat, 10), (b.toNat, 4)])
  | .mulh c g d a b => some (wd 0x2000003 [(c.toNat, 31), (g.toNat, 22), (d.toNat, 16), (a.toNat, 10), (b.toNat, 4)])
  | .mulhu c g d a b => some (wd 0x2000004 [(c.toNat, 31), (g.toNat, 22), (d.toNat, 16), (a.toNat, 10), (b.toNat, 4)])
  | .and c g d a b => some (wd 0x2000005 [(c.toNat, 31), (g.toNat, 22), (d.toNat, 16), (a.toNat, 10), (b.toNat, 4)])
  | .or c g d a b => some (wd 0x2000006 [(c.toNat, 31), (g.toNat, 22), (d.toNat, 16), (a.toNat, 10), (b.toNat, 4)])
  | .xor c g d a b => some (wd 0x2000007 [(c.toNat, 31), (g.toNat, 22), (d.toNat, 16), (a.toNat, 10), (b.toNat, 4)])
  | .andn c g d a b => some (wd 0x2000008 [(c.toNat, 31), (g.toNat, 22), (d.toNat, 16), (a.toNat, 10), (b.toNat, 4)])
  | .shl c g d a b => some (wd 0x2000009 [(c.toNat, 31), (g.toNat, 22), (d.toNat, 16), (a.toNat, 10), (b.toNat, 4)])
  | .shr c g d a b => some (wd 0x200000A [(c.toNat, 31), (g.toNat, 22), (d.toNat, 16), (a.toNat, 10), (b.toNat, 4)])
  | .sar c g d a b => some (wd 0x200000B [(c.toNat, 31), (g.toNat, 22), (d.toNat, 16), (a.toNat, 10), (b.toNat, 4)])
  | .min c g d a b => some (wd 0x200000C [(c.toNat, 31), (g.toNat, 22), (d.toNat, 16), (a.toNat, 10), (b.toNat, 4)])
  | .max c g d a b => some (wd 0x200000D [(c.toNat, 31), (g.toNat, 22), (d.toNat, 16), (a.toNat, 10), (b.toNat, 4)])
  | .minu c g d a b => some (wd 0x200000E [(c.toNat, 31), (g.toNat, 22), (d.toNat, 16), (a.toNat, 10), (b.toNat, 4)])
  | .maxu c g d a b => some (wd 0x200000F [(c.toNat, 31), (g.toNat, 22), (d.toNat, 16), (a.toNat, 10), (b.toNat, 4)])
  | .addsat c g d a b => some (wd 0x4000000 [(c.toNat, 31), (g.toNat, 22), (d.toNat, 16), (a.toNat, 10), (b.toNat, 4)])
  | .subsat c g d a b => some (wd 0x4000001 [(c.toNat, 31), (g.toNat, 22), (d.toNat, 16), (a.toNat, 10), (b.toNat, 4)])
  | .addsatu c g d a b => some (wd 0x4000002 [(c.toNat, 31), (g.toNat, 22), (d.toNat, 16), (a.toNat, 10), (b.toNat, 4)])
  | .subsatu c g d a b => some (wd 0x4000003 [(c.toNat, 31), (g.toNat, 22), (d.toNat, 16), (a.toNat, 10), (b.toNat, 4)])
  | .div c g d a b => some (wd 0x4000004 [(c.toNat, 31), (g.toNat, 22), (d.toNat, 16), (a.toNat, 10), (b.toNat, 4)])
  | .divu c g d a b => some (wd 0x4000005 [(c.toNat, 31), (g.toNat, 22), (d.toNat, 16), (a.toNat, 10), (b.toNat, 4)])
  | .rem c g d a b => some (wd 0x4000006 [(c.toNat, 31), (g.toNat, 22), (d.toNat, 16), (a.toNat, 10), (b.toNat, 4)])
  | .remu c g d a b => some (wd 0x4000007 [(c.toNat, 31), (g.toNat, 22), (d.toNat, 16), (a.toNat, 10), (b.toNat, 4)])
  | .popc c g d a => some (wd 0x4000008 [(c.toNat, 31), (g.toNat, 22), (d.toNat, 16), (a.toNat, 10)])
  | .clz c g d a => some (wd 0x4000009 [(c.toNat, 31), (g.toNat, 22), (d.toNat, 16), (a.toNat, 10)])
  | .ctz c g d a => some (wd 0x400000A [(c.toNat, 31), (g.toNat, 22), (d.toNat, 16), (a.toNat, 10)])
  | .brev c g d a => some (wd 0x400000B [(c.toNat, 31), (g.toNat, 22), (d.toNat, 16), (a.toNat, 10)])
  | .abs c g d a => some (wd 0x400000C [(c.toNat, 31), (g.toNat, 22), (d.toNat, 16), (a.toNat, 10)])
  | .neg c g d a => some (wd 0x400000D [(c.toNat, 31), (g.toNat, 22), (d.toNat, 16), (a.toNat, 10)])
  | .absdiff c g d a b => some (wd 0x400000E [(c.toNat, 31), (g.toNat, 22), (d.toNat, 16), (a.toNat, 10), (b.toNat, 4)])
  | .add64 c g d a b => some (wd 0x6000000 [(c.toNat, 31), (g.toNat, 22), (d.toNat, 16), (a.toNat, 10), (b.toNat, 4)])
  | .sub64 c g d a b => some (wd 0x6000001 [(c.toNat, 31), (g.toNat, 22), (d.toNat, 16), (a.toNat, 10), (b.toNat, 4)])
  | .shl64 c g d a b => some (wd 0x6000002 [(c.toNat, 31), (g.toNat, 22), (d.toNat, 16), (a.toNat, 10), (b.toNat, 4)])
  | .shr64 c g d a b => some (wd 0x6000003 [(c.toNat, 31), (g.toNat, 22), (d.toNat, 16), (a.toNat, 10), (b.toNat, 4)])
  | .sar64 c g d a b => some (wd 0x6000004 [(c.toNat, 31), (g.toNat, 22), (d.toNat, 16), (a.toNat, 10), (b.toNat, 4)])
  | .mulw c g d a b => some (wd 0x6000005 [(c.toNat, 31), (g.toNat, 22), (d.toNat, 16), (a.toNat, 10), (b.toNat, 4)])
  | .mulwu c g d a b => some (wd 0x6000006 [(c.toNat, 31), (g.toNat, 22), (d.toNat, 16), (a.toNat, 10), (b.toNat, 4)])
  | .and64 c g d a b => some (wd 0x6000007 [(c.toNat, 31), (g.toNat, 22), (d.toNat, 16), (a.toNat, 10), (b.toNat, 4)])
  | .or64 c g d a b => some (wd 0x6000008 [(c.toNat, 31), (g.toNat, 22), (d.toNat, 16), (a.toNat, 10), (b.toNat, 4)])
  | .xor64 c g d a b => some (wd 0x6000009 [(c.toNat, 31), (g.toNat, 22), (d.toNat, 16), (a.toNat, 10), (b.toNat, 4)])
  | .addw c g d a b => some (wd 0x600000A [(c.toNat, 31), (g.toNat, 22), (d.toNat, 16), (a.toNat, 10), (b.toNat, 4)])
  | .addws c g d a b => some (wd 0x600000B [(c.toNat, 31), (g.toNat, 22), (d.toNat, 16), (a.toNat, 10), (b.toNat, 4)])
  | .lea2 c g d a b => some (wd 0x600000C [(c.toNat, 31), (g.toNat, 22), (d.toNat, 16), (a.toNat, 10), (b.toNat, 4)])
  | .lea4 c g d a b => some (wd 0x600000D [(c.toNat, 31), (g.toNat, 22), (d.toNat, 16), (a.toNat, 10), (b.toNat, 4)])
  | .lea8 c g d a b => some (wd 0x600000E [(c.toNat, 31), (g.toNat, 22), (d.toNat, 16), (a.toNat, 10), (b.toNat, 4)])
  | .lea16 c g d a b => some (wd 0x600000F [(c.toNat, 31), (g.toNat, 22), (d.toNat, 16), (a.toNat, 10), (b.toNat, 4)])
  | .addi c g d a i => some (wd 0x8000000 [(c.toNat, 31), (g.toNat, 22), (d.toNat, 16), (a.toNat, 10), (i.toNat, 0)])
  | .andi c g d a i => some (wd 0xA000000 [(c.toNat, 31), (g.toNat, 22), (d.toNat, 16), (a.toNat, 10), (i.toNat, 0)])
  | .ori c g d a i => some (wd 0xC000000 [(c.toNat, 31), (g.toNat, 22), (d.toNat, 16), (a.toNat, 10), (i.toNat, 0)])
  | .xori c g d a i => some (wd 0xE000000 [(c.toNat, 31), (g.toNat, 22), (d.toNat, 16), (a.toNat, 10), (i.toNat, 0)])
  | .shli c g d a n => some (wd 0x10000000 [(c.toNat, 31), (g.toNat, 22), (d.toNat, 16), (a.toNat, 10), (n.toNat, 0)])
  | .shri c g d a n => some (wd 0x10000100 [(c.toNat, 31), (g.toNat, 22), (d.toNat, 16), (a.toNat, 10), (n.toNat, 0)])
  | .sari c g d a n => some (wd 0x10000200 [(c.toNat, 31), (g.toNat, 22), (d.toNat, 16), (a.toNat, 10), (n.toNat, 0)])
  | .roli c g d a n => some (wd 0x10000300 [(c.toNat, 31), (g.toNat, 22), (d.toNat, 16), (a.toNat, 10), (n.toNat, 0)])
  | .movi c g d i => some (wd 0x12000000 [(c.toNat, 31), (g.toNat, 22), (d.toNat, 16), (i.toNat, 0)])
  | .movhi c g d i => some (wd 0x14000000 [(c.toNat, 31), (g.toNat, 22), (d.toNat, 16), (i.toNat, 0)])
  | .add64i c g d a i => some (wd 0x16000000 [(c.toNat, 31), (g.toNat, 22), (d.toNat, 16), (a.toNat, 10), (i.toNat, 0)])
  | .icmp c g p k a b f => some (wd 0x18000000 [(c.toNat, 31), (g.toNat, 22), (p.toNat, 19), (k.toNat, 16), (a.toNat, 10), (b.toNat, 4), (f.toNat, 0)])
  | .fcmp c g p k a b q f => some (wd 0x1A000000 [(c.toNat, 31), (g.toNat, 22), (p.toNat, 19), (k.toNat, 16), (a.toNat, 10), (b.toNat, 4), (q.toNat, 3), (f.toNat, 0)])
  | .sel c s d a b => some (wd 0x1C000000 [(c.toNat, 31), (s.toNat, 22), (d.toNat, 16), (a.toNat, 10), (b.toNat, 4)])
  | .pand c g d a b => some (wd 0x1E000000 [(c.toNat, 31), (g.toNat, 22), (d.toNat, 16), (a.toNat, 10), (b.toNat, 4)])
  | .por c g d a b => some (wd 0x1E000001 [(c.toNat, 31), (g.toNat, 22), (d.toNat, 16), (a.toNat, 10), (b.toNat, 4)])
  | .pxor c g d a b => some (wd 0x1E000002 [(c.toNat, 31), (g.toNat, 22), (d.toNat, 16), (a.toNat, 10), (b.toNat, 4)])
  | .pandn c g d a b => some (wd 0x1E000003 [(c.toNat, 31), (g.toNat, 22), (d.toNat, 16), (a.toNat, 10), (b.toNat, 4)])
  | .pnot c g d a => some (wd 0x1E000004 [(c.toNat, 31), (g.toNat, 22), (d.toNat, 16), (a.toNat, 10)])
  | .pmov c g d a => some (wd 0x1E000005 [(c.toNat, 31), (g.toNat, 22), (d.toNat, 16), (a.toNat, 10)])
  | .ptov c g d a => some (wd 0x1E000006 [(c.toNat, 31), (g.toNat, 22), (d.toNat, 16), (a.toNat, 10)])
  | .vtop c g d a => some (wd 0x1E000007 [(c.toNat, 31), (g.toNat, 22), (d.toNat, 16), (a.toNat, 10)])
  | .fadd c g d a b q => some (wd 0x20000000 [(c.toNat, 31), (g.toNat, 22), (d.toNat, 16), (a.toNat, 10), (b.toNat, 4), (q.toNat, 3)])
  | .fsub c g d a b q => some (wd 0x20000001 [(c.toNat, 31), (g.toNat, 22), (d.toNat, 16), (a.toNat, 10), (b.toNat, 4), (q.toNat, 3)])
  | .fmul c g d a b q => some (wd 0x20000002 [(c.toNat, 31), (g.toNat, 22), (d.toNat, 16), (a.toNat, 10), (b.toNat, 4), (q.toNat, 3)])
  | .fdiv c g d a b q => some (wd 0x20000003 [(c.toNat, 31), (g.toNat, 22), (d.toNat, 16), (a.toNat, 10), (b.toNat, 4), (q.toNat, 3)])
  | .fmin c g d a b q => some (wd 0x20000004 [(c.toNat, 31), (g.toNat, 22), (d.toNat, 16), (a.toNat, 10), (b.toNat, 4), (q.toNat, 3)])
  | .fmax c g d a b q => some (wd 0x20000005 [(c.toNat, 31), (g.toNat, 22), (d.toNat, 16), (a.toNat, 10), (b.toNat, 4), (q.toNat, 3)])
  | .fcopysign c g d a b q => some (wd 0x20000006 [(c.toNat, 31), (g.toNat, 22), (d.toNat, 16), (a.toNat, 10), (b.toNat, 4), (q.toNat, 3)])
  | .fscale c g d a b q => some (wd 0x20000007 [(c.toNat, 31), (g.toNat, 22), (d.toNat, 16), (a.toNat, 10), (b.toNat, 4), (q.toNat, 3)])
  | .fma c g d a b q => some (wd 0x22000000 [(c.toNat, 31), (g.toNat, 22), (d.toNat, 16), (a.toNat, 10), (b.toNat, 4), (q.toNat, 3)])
  | .fms c g d a b q => some (wd 0x22000001 [(c.toNat, 31), (g.toNat, 22), (d.toNat, 16), (a.toNat, 10), (b.toNat, 4), (q.toNat, 3)])
  | .fnma c g d a b q => some (wd 0x22000002 [(c.toNat, 31), (g.toNat, 22), (d.toNat, 16), (a.toNat, 10), (b.toNat, 4), (q.toNat, 3)])
  | .fnms c g d a b q => some (wd 0x22000003 [(c.toNat, 31), (g.toNat, 22), (d.toNat, 16), (a.toNat, 10), (b.toNat, 4), (q.toNat, 3)])
  | .rcp c g d a q => some (wd 0x24000000 [(c.toNat, 31), (g.toNat, 22), (d.toNat, 16), (a.toNat, 10), (q.toNat, 3)])
  | .rsq c g d a q => some (wd 0x24000001 [(c.toNat, 31), (g.toNat, 22), (d.toNat, 16), (a.toNat, 10), (q.toNat, 3)])
  | .sqrt c g d a q => some (wd 0x24000002 [(c.toNat, 31), (g.toNat, 22), (d.toNat, 16), (a.toNat, 10), (q.toNat, 3)])
  | .exp2 c g d a q => some (wd 0x24000003 [(c.toNat, 31), (g.toNat, 22), (d.toNat, 16), (a.toNat, 10), (q.toNat, 3)])
  | .log2 c g d a q => some (wd 0x24000004 [(c.toNat, 31), (g.toNat, 22), (d.toNat, 16), (a.toNat, 10), (q.toNat, 3)])
  | .sinpi c g d a q => some (wd 0x24000005 [(c.toNat, 31), (g.toNat, 22), (d.toNat, 16), (a.toNat, 10), (q.toNat, 3)])
  | .cospi c g d a q => some (wd 0x24000006 [(c.toNat, 31), (g.toNat, 22), (d.toNat, 16), (a.toNat, 10), (q.toNat, 3)])
  | .tanh c g d a q => some (wd 0x24000007 [(c.toNat, 31), (g.toNat, 22), (d.toNat, 16), (a.toNat, 10), (q.toNat, 3)])
  | .hadd c g d a b q t => some (wd 0x26000000 [(c.toNat, 31), (g.toNat, 22), (d.toNat, 16), (a.toNat, 10), (b.toNat, 4), (q.toNat, 3), (t.toNat, 2)])
  | .hsub c g d a b q t => some (wd 0x26000001 [(c.toNat, 31), (g.toNat, 22), (d.toNat, 16), (a.toNat, 10), (b.toNat, 4), (q.toNat, 3), (t.toNat, 2)])
  | .hmul c g d a b q t => some (wd 0x26000002 [(c.toNat, 31), (g.toNat, 22), (d.toNat, 16), (a.toNat, 10), (b.toNat, 4), (q.toNat, 3), (t.toNat, 2)])
  | .hfma c g d a b q t => some (wd 0x26000003 [(c.toNat, 31), (g.toNat, 22), (d.toNat, 16), (a.toNat, 10), (b.toNat, 4), (q.toNat, 3), (t.toNat, 2)])
  | .ftoi c g d a => some (wd 0x28000000 [(c.toNat, 31), (g.toNat, 22), (d.toNat, 16), (a.toNat, 10)])
  | .ftoiz c g d a => some (wd 0x28000001 [(c.toNat, 31), (g.toNat, 22), (d.toNat, 16), (a.toNat, 10)])
  | .ftou c g d a => some (wd 0x28000002 [(c.toNat, 31), (g.toNat, 22), (d.toNat, 16), (a.toNat, 10)])
  | .itof c g d a => some (wd 0x28000003 [(c.toNat, 31), (g.toNat, 22), (d.toNat, 16), (a.toNat, 10)])
  | .utof c g d a => some (wd 0x28000004 [(c.toNat, 31), (g.toNat, 22), (d.toNat, 16), (a.toNat, 10)])
  | .pkh c g d a b => some (wd 0x28000005 [(c.toNat, 31), (g.toNat, 22), (d.toNat, 16), (a.toNat, 10), (b.toNat, 4)])
  | .pkb c g d a b => some (wd 0x28000006 [(c.toNat, 31), (g.toNat, 22), (d.toNat, 16), (a.toNat, 10), (b.toNat, 4)])
  | .xthl c g d a => some (wd 0x28000007 [(c.toNat, 31), (g.toNat, 22), (d.toNat, 16), (a.toNat, 10)])
  | .xthh c g d a => some (wd 0x28000008 [(c.toNat, 31), (g.toNat, 22), (d.toNat, 16), (a.toNat, 10)])
  | .xtbl c g d a => some (wd 0x28000009 [(c.toNat, 31), (g.toNat, 22), (d.toNat, 16), (a.toNat, 10)])
  | .xtbh c g d a => some (wd 0x2800000A [(c.toNat, 31), (g.toNat, 22), (d.toNat, 16), (a.toNat, 10)])
  | .frnd c g d a => some (wd 0x2800000B [(c.toNat, 31), (g.toNat, 22), (d.toNat, 16), (a.toNat, 10)])
  | .frndz c g d a => some (wd 0x2800000C [(c.toNat, 31), (g.toNat, 22), (d.toNat, 16), (a.toNat, 10)])
  | .pk8 c g d a k e s => some (wd 0x2A000000 [(c.toNat, 31), (g.toNat, 22), (d.toNat, 16), (a.toNat, 10), (k.toNat, 6), (e.toNat, 5), (s.toNat, 4)])
  | .xt8 c g d a k e => some (wd 0x2A000100 [(c.toNat, 31), (g.toNat, 22), (d.toNat, 16), (a.toNat, 10), (k.toNat, 6), (e.toNat, 5)])
  | .pk4 c g d a k s => some (wd 0x2A000200 [(c.toNat, 31), (g.toNat, 22), (d.toNat, 16), (a.toNat, 10), (k.toNat, 5), (s.toNat, 4)])
  | .xt4 c g d a k => some (wd 0x2A000300 [(c.toNat, 31), (g.toNat, 22), (d.toNat, 16), (a.toNat, 10), (k.toNat, 5)])
  | .mov c g d a => some (wd 0x2C000000 [(c.toNat, 31), (g.toNat, 22), (d.toNat, 16), (a.toNat, 10)])
  | .rdx c g d n o => some (wd 0x2C000001 [(c.toNat, 31), (g.toNat, 22), (d.toNat, 16), (n.toNat, 10), (o.toNat, 4)])
  | .wrx c g d n o => some (wd 0x2C000002 [(c.toNat, 31), (g.toNat, 22), (d.toNat, 16), (n.toNat, 10), (o.toNat, 4)])
  | .nset c g n a => some (wd 0x2E000000 [(c.toNat, 31), (g.toNat, 22), (n.toNat, 16), (a.toNat, 10)])
  | .nget c g d n => some (wd 0x2E000001 [(c.toNat, 31), (g.toNat, 22), (d.toNat, 16), (n.toNat, 10)])
  | .nadv c g n a => some (wd 0x2E000002 [(c.toNat, 31), (g.toNat, 22), (n.toNat, 16), (a.toNat, 10)])
  | .nclr c g n => some (wd 0x2E000003 [(c.toNat, 31), (g.toNat, 22), (n.toNat, 16)])
  | .shfl c g d a b y => some (wd 0x30000000 [(c.toNat, 31), (g.toNat, 22), (d.toNat, 16), (a.toNat, 10), (b.toNat, 4), (y.toNat, 3)])
  | .shflx c g d a b y => some (wd 0x30000001 [(c.toNat, 31), (g.toNat, 22), (d.toNat, 16), (a.toNat, 10), (b.toNat, 4), (y.toNat, 3)])
  | .shflu c g d a b y => some (wd 0x30000002 [(c.toNat, 31), (g.toNat, 22), (d.toNat, 16), (a.toNat, 10), (b.toNat, 4), (y.toNat, 3)])
  | .shfld c g d a b y => some (wd 0x30000003 [(c.toNat, 31), (g.toNat, 22), (d.toNat, 16), (a.toNat, 10), (b.toNat, 4), (y.toNat, 3)])
  | .bcast c g d a b y => some (wd 0x30000004 [(c.toNat, 31), (g.toNat, 22), (d.toNat, 16), (a.toNat, 10), (b.toNat, 4), (y.toNat, 3)])
  | .vote c g p m a y => some (wd 0x30000005 [(c.toNat, 31), (g.toNat, 22), (p.toNat, 19), (m.toNat, 16), (a.toNat, 10), (y.toNat, 3)])
  | .count c g d a y => some (wd 0x30000006 [(c.toNat, 31), (g.toNat, 22), (d.toNat, 16), (a.toNat, 10), (y.toNat, 3)])
  | .rank c g d a y => some (wd 0x30000007 [(c.toNat, 31), (g.toNat, 22), (d.toNat, 16), (a.toNat, 10), (y.toNat, 3)])
  | .rediIadd c g d a y => some (wd 0x32000000 [(c.toNat, 31), (g.toNat, 22), (d.toNat, 16), (a.toNat, 10), (y.toNat, 3)])
  | .rediImin c g d a y => some (wd 0x32000001 [(c.toNat, 31), (g.toNat, 22), (d.toNat, 16), (a.toNat, 10), (y.toNat, 3)])
  | .rediImax c g d a y => some (wd 0x32000002 [(c.toNat, 31), (g.toNat, 22), (d.toNat, 16), (a.toNat, 10), (y.toNat, 3)])
  | .rediUmin c g d a y => some (wd 0x32000003 [(c.toNat, 31), (g.toNat, 22), (d.toNat, 16), (a.toNat, 10), (y.toNat, 3)])
  | .rediUmax c g d a y => some (wd 0x32000004 [(c.toNat, 31), (g.toNat, 22), (d.toNat, 16), (a.toNat, 10), (y.toNat, 3)])
  | .rediAnd c g d a y => some (wd 0x32000005 [(c.toNat, 31), (g.toNat, 22), (d.toNat, 16), (a.toNat, 10), (y.toNat, 3)])
  | .rediOr c g d a y => some (wd 0x32000006 [(c.toNat, 31), (g.toNat, 22), (d.toNat, 16), (a.toNat, 10), (y.toNat, 3)])
  | .rediXor c g d a y => some (wd 0x32000007 [(c.toNat, 31), (g.toNat, 22), (d.toNat, 16), (a.toNat, 10), (y.toNat, 3)])
  | .redfFaddt c g d a y => some (wd 0x34000000 [(c.toNat, 31), (g.toNat, 22), (d.toNat, 16), (a.toNat, 10), (y.toNat, 3)])
  | .redfFadds c g d a y => some (wd 0x34000001 [(c.toNat, 31), (g.toNat, 22), (d.toNat, 16), (a.toNat, 10), (y.toNat, 3)])
  | .redfFmin c g d a y => some (wd 0x34000002 [(c.toNat, 31), (g.toNat, 22), (d.toNat, 16), (a.toNat, 10), (y.toNat, 3)])
  | .redfFmax c g d a y => some (wd 0x34000003 [(c.toNat, 31), (g.toNat, 22), (d.toNat, 16), (a.toNat, 10), (y.toNat, 3)])
  | .redfScani c g d a y => some (wd 0x34000004 [(c.toNat, 31), (g.toNat, 22), (d.toNat, 16), (a.toNat, 10), (y.toNat, 3)])
  | .redfScanf c g d a y => some (wd 0x34000005 [(c.toNat, 31), (g.toNat, 22), (d.toNat, 16), (a.toNat, 10), (y.toNat, 3)])
  | .redfScanx c g d a y => some (wd 0x34000006 [(c.toNat, 31), (g.toNat, 22), (d.toNat, 16), (a.toNat, 10), (y.toNat, 3)])
  | .setw c n x l => some (wd 0x37C00000 [(c.toNat, 31), (n.toNat, 6), (x.toNat, 3), (l.toNat, 0)])
  | .slice c => some (wd 0x37C00200 [(c.toNat, 31)])
  | .wsync c g => some (wd 0x36000201 [(c.toNat, 31), (g.toNat, 22)])
  | .br g d => some (wd 0x40000000 [(g.toNat, 22), (d.toNat, 0)])
  | .call g d => some (wd 0x42000000 [(g.toNat, 22), (d.toNat, 0)])
  | .split g d => some (wd 0x44000000 [(g.toNat, 22), (d.toNat, 0)])
  | .join g => some (wd 0x46000000 [(g.toNat, 22)])
  | .ret g => some (wd 0x48000000 [(g.toNat, 22)])
  | .exit g => some (wd 0x48000001 [(g.toNat, 22)])
  | .brx g a => some (wd 0x48000002 [(g.toNat, 22), (a.toNat, 10)])
  | .callx g a => some (wd 0x48000003 [(g.toNat, 22), (a.toNat, 10)])
  | .tret g => some (wd 0x48000004 [(g.toNat, 22)])
  | .tretr g => some (wd 0x48000005 [(g.toNat, 22)])
  | .yield g => some (wd 0x48000006 [(g.toNat, 22)])
  | .breakp g => some (wd 0x48000007 [(g.toNat, 22)])
  | .trap g t => some (wd 0x48000008 [(g.toNat, 22), (t.toNat, 16)])
  | .waitt g a => some (wd 0x48000009 [(g.toNat, 22), (a.toNat, 10)])
  | .watch c g d a b f => some (wd 0x4A000000 [(c.toNat, 31), (g.toNat, 22), (d.toNat, 16), (a.toNat, 10), (b.toNat, 4), (f.toNat, 0)])
  | .barSync c l s e n => some (wd 0x4DC00000 [(c.toNat, 31), (l.toNat, 7), (s.toNat, 5), (e.toNat, 4), (n.toNat, 0)])
  | .barArrive c l s e n => some (wd 0x4DC00100 [(c.toNat, 31), (l.toNat, 7), (s.toNat, 5), (e.toNat, 4), (n.toNat, 0)])
  | .barWait c l s e n => some (wd 0x4DC00200 [(c.toNat, 31), (l.toNat, 7), (s.toNat, 5), (e.toNat, 4), (n.toNat, 0)])
  | .trigger c g => some (wd 0x4E000000 [(c.toNat, 31), (g.toNat, 22)])
  | .launch c g d a => some (wd 0x4E000001 [(c.toNat, 31), (g.toNat, 22), (d.toNat, 16), (a.toNat, 10)])
  | .launchb c g d a => some (wd 0x4E000002 [(c.toNat, 31), (g.toNat, 22), (d.toNat, 16), (a.toNat, 10)])
  | .ldg c g d a o z v p => some (wd 0x50000000 [(c.toNat, 31), (g.toNat, 22), (d.toNat, 16), (a.toNat, 10), (o.toNat, 6), (z.toNat, 3), (v.toNat, 2), (p.toNat, 0)])
  | .stg c g d a o z v p => some (wd 0x52000000 [(c.toNat, 31), (g.toNat, 22), (d.toNat, 16), (a.toNat, 10), (o.toNat, 6), (z.toNat, 3), (v.toNat, 2), (p.toNat, 0)])
  | .lds c g d a o z v p => some (wd 0x54000000 [(c.toNat, 31), (g.toNat, 22), (d.toNat, 16), (a.toNat, 10), (o.toNat, 6), (z.toNat, 3), (v.toNat, 2), (p.toNat, 0)])
  | .sts c g d a o z v p => some (wd 0x56000000 [(c.toNat, 31), (g.toNat, 22), (d.toNat, 16), (a.toNat, 10), (o.toNat, 6), (z.toNat, 3), (v.toNat, 2), (p.toNat, 0)])
  | .atgAdd c g d a b => some (wd 0x58000000 [(c.toNat, 31), (g.toNat, 22), (d.toNat, 16), (a.toNat, 10), (b.toNat, 4)])
  | .atgMin c g d a b => some (wd 0x58000001 [(c.toNat, 31), (g.toNat, 22), (d.toNat, 16), (a.toNat, 10), (b.toNat, 4)])
  | .atgMax c g d a b => some (wd 0x58000002 [(c.toNat, 31), (g.toNat, 22), (d.toNat, 16), (a.toNat, 10), (b.toNat, 4)])
  | .atgMinu c g d a b => some (wd 0x58000003 [(c.toNat, 31), (g.toNat, 22), (d.toNat, 16), (a.toNat, 10), (b.toNat, 4)])
  | .atgMaxu c g d a b => some (wd 0x58000004 [(c.toNat, 31), (g.toNat, 22), (d.toNat, 16), (a.toNat, 10), (b.toNat, 4)])
  | .atgAnd c g d a b => some (wd 0x58000005 [(c.toNat, 31), (g.toNat, 22), (d.toNat, 16), (a.toNat, 10), (b.toNat, 4)])
  | .atgOr c g d a b => some (wd 0x58000006 [(c.toNat, 31), (g.toNat, 22), (d.toNat, 16), (a.toNat, 10), (b.toNat, 4)])
  | .atgXor c g d a b => some (wd 0x58000007 [(c.toNat, 31), (g.toNat, 22), (d.toNat, 16), (a.toNat, 10), (b.toNat, 4)])
  | .atgXchg c g d a b => some (wd 0x58000008 [(c.toNat, 31), (g.toNat, 22), (d.toNat, 16), (a.toNat, 10), (b.toNat, 4)])
  | .atgCas c g d a b => some (wd 0x58000009 [(c.toNat, 31), (g.toNat, 22), (d.toNat, 16), (a.toNat, 10), (b.toNat, 4)])
  | .atgFadd c g d a b => some (wd 0x5800000A [(c.toNat, 31), (g.toNat, 22), (d.toNat, 16), (a.toNat, 10), (b.toNat, 4)])
  | .atgFmin c g d a b => some (wd 0x5800000B [(c.toNat, 31), (g.toNat, 22), (d.toNat, 16), (a.toNat, 10), (b.toNat, 4)])
  | .atgFmax c g d a b => some (wd 0x5800000C [(c.toNat, 31), (g.toNat, 22), (d.toNat, 16), (a.toNat, 10), (b.toNat, 4)])
  | .atgHadd2 c g d a b => some (wd 0x5800000D [(c.toNat, 31), (g.toNat, 22), (d.toNat, 16), (a.toNat, 10), (b.toNat, 4)])
  | .atgIncw c g d a b => some (wd 0x5800000E [(c.toNat, 31), (g.toNat, 22), (d.toNat, 16), (a.toNat, 10), (b.toNat, 4)])
  | .atg64Add c g d a b => some (wd 0x5A000000 [(c.toNat, 31), (g.toNat, 22), (d.toNat, 16), (a.toNat, 10), (b.toNat, 4)])
  | .atg64Minu c g d a b => some (wd 0x5A000001 [(c.toNat, 31), (g.toNat, 22), (d.toNat, 16), (a.toNat, 10), (b.toNat, 4)])
  | .atg64Maxu c g d a b => some (wd 0x5A000002 [(c.toNat, 31), (g.toNat, 22), (d.toNat, 16), (a.toNat, 10), (b.toNat, 4)])
  | .atg64And c g d a b => some (wd 0x5A000003 [(c.toNat, 31), (g.toNat, 22), (d.toNat, 16), (a.toNat, 10), (b.toNat, 4)])
  | .atg64Or c g d a b => some (wd 0x5A000004 [(c.toNat, 31), (g.toNat, 22), (d.toNat, 16), (a.toNat, 10), (b.toNat, 4)])
  | .atg64Xor c g d a b => some (wd 0x5A000005 [(c.toNat, 31), (g.toNat, 22), (d.toNat, 16), (a.toNat, 10), (b.toNat, 4)])
  | .atg64Xchg c g d a b => some (wd 0x5A000006 [(c.toNat, 31), (g.toNat, 22), (d.toNat, 16), (a.toNat, 10), (b.toNat, 4)])
  | .atg64Cas c g d a b => some (wd 0x5A000007 [(c.toNat, 31), (g.toNat, 22), (d.toNat, 16), (a.toNat, 10), (b.toNat, 4)])
  | .atsAdd c g d a b => some (wd 0x5C000000 [(c.toNat, 31), (g.toNat, 22), (d.toNat, 16), (a.toNat, 10), (b.toNat, 4)])
  | .atsMin c g d a b => some (wd 0x5C000001 [(c.toNat, 31), (g.toNat, 22), (d.toNat, 16), (a.toNat, 10), (b.toNat, 4)])
  | .atsMax c g d a b => some (wd 0x5C000002 [(c.toNat, 31), (g.toNat, 22), (d.toNat, 16), (a.toNat, 10), (b.toNat, 4)])
  | .atsMinu c g d a b => some (wd 0x5C000003 [(c.toNat, 31), (g.toNat, 22), (d.toNat, 16), (a.toNat, 10), (b.toNat, 4)])
  | .atsMaxu c g d a b => some (wd 0x5C000004 [(c.toNat, 31), (g.toNat, 22), (d.toNat, 16), (a.toNat, 10), (b.toNat, 4)])
  | .atsAnd c g d a b => some (wd 0x5C000005 [(c.toNat, 31), (g.toNat, 22), (d.toNat, 16), (a.toNat, 10), (b.toNat, 4)])
  | .atsOr c g d a b => some (wd 0x5C000006 [(c.toNat, 31), (g.toNat, 22), (d.toNat, 16), (a.toNat, 10), (b.toNat, 4)])
  | .atsXor c g d a b => some (wd 0x5C000007 [(c.toNat, 31), (g.toNat, 22), (d.toNat, 16), (a.toNat, 10), (b.toNat, 4)])
  | .atsXchg c g d a b => some (wd 0x5C000008 [(c.toNat, 31), (g.toNat, 22), (d.toNat, 16), (a.toNat, 10), (b.toNat, 4)])
  | .atsCas c g d a b => some (wd 0x5C000009 [(c.toNat, 31), (g.toNat, 22), (d.toNat, 16), (a.toNat, 10), (b.toNat, 4)])
  | .atsFadd c g d a b => some (wd 0x5C00000A [(c.toNat, 31), (g.toNat, 22), (d.toNat, 16), (a.toNat, 10), (b.toNat, 4)])
  | .atsFmin c g d a b => some (wd 0x5C00000B [(c.toNat, 31), (g.toNat, 22), (d.toNat, 16), (a.toNat, 10), (b.toNat, 4)])
  | .atsFmax c g d a b => some (wd 0x5C00000C [(c.toNat, 31), (g.toNat, 22), (d.toNat, 16), (a.toNat, 10), (b.toNat, 4)])
  | .fenceRel c g s => some (wd 0x5E000000 [(c.toNat, 31), (g.toNat, 22), (s.toNat, 0)])
  | .fenceAcq c g s => some (wd 0x5E000100 [(c.toNat, 31), (g.toNat, 22), (s.toNat, 0)])
  | .fencePhase c g s => some (wd 0x5E000200 [(c.toNat, 31), (g.toNat, 22), (s.toNat, 0)])
  | .fenceDrain c g => some (wd 0x5E000300 [(c.toNat, 31), (g.toNat, 22)])
  | .ldga c g d a o z p => some (wd 0x60000000 [(c.toNat, 31), (g.toNat, 22), (d.toNat, 16), (a.toNat, 10), (o.toNat, 6), (z.toNat, 3), (p.toNat, 0)])
  | .prefL1 c g a o z => some (wd 0x62000000 [(c.toNat, 31), (g.toNat, 22), (a.toNat, 10), (o.toNat, 6), (z.toNat, 3)])
  | .prefL2 c g a o z => some (wd 0x62000001 [(c.toNat, 31), (g.toNat, 22), (a.toNat, 10), (o.toNat, 6), (z.toNat, 3)])
  | .cpyG2s c g a t => some (wd 0x64000000 [(c.toNat, 31), (g.toNat, 22), (a.toNat, 10), (t.toNat, 0)])
  | .cpyS2g c g a t => some (wd 0x64000080 [(c.toNat, 31), (g.toNat, 22), (a.toNat, 10), (t.toNat, 0)])
  | .cpyS2s c g a t => some (wd 0x64000100 [(c.toNat, 31), (g.toNat, 22), (a.toNat, 10), (t.toNat, 0)])
  | .cpyG2g c g a t => some (wd 0x64000180 [(c.toNat, 31), (g.toNat, 22), (a.toNat, 10), (t.toNat, 0)])
  | .cpyS2sm c g a t => some (wd 0x64000200 [(c.toNat, 31), (g.toNat, 22), (a.toNat, 10), (t.toNat, 0)])
  | .cwait c g t => some (wd 0x66000000 [(c.toNat, 31), (g.toNat, 22), (t.toNat, 0)])
  | .cwaitAll c g => some (wd 0x66000100 [(c.toNat, 31), (g.toNat, 22)])
  | .cwaitQuery c g d t => some (wd 0x66000200 [(c.toNat, 31), (g.toNat, 22), (d.toNat, 16), (t.toNat, 0)])
  | .shopen c g d a => some (wd 0x68000000 [(c.toNat, 31), (g.toNat, 22), (d.toNat, 16), (a.toNat, 10)])
  | .shpub c g a => some (wd 0x68000001 [(c.toNat, 31), (g.toNat, 22), (a.toNat, 10)])
  | .shabort c g a => some (wd 0x68000002 [(c.toNat, 31), (g.toNat, 22), (a.toNat, 10)])
  | .shstat c g d a => some (wd 0x68000003 [(c.toNat, 31), (g.toNat, 22), (d.toNat, 16), (a.toNat, 10)])
  | .raddF32 c g a b => some (wd 0x6A000000 [(c.toNat, 31), (g.toNat, 22), (a.toNat, 10), (b.toNat, 4)])
  | .raddBf16x2 c g a b => some (wd 0x6A000001 [(c.toNat, 31), (g.toNat, 22), (a.toNat, 10), (b.toNat, 4)])
  | .raddI32 c g a b => some (wd 0x6A000002 [(c.toNat, 31), (g.toNat, 22), (a.toNat, 10), (b.toNat, 4)])
  | .rmaxF32 c g a b => some (wd 0x6A000003 [(c.toNat, 31), (g.toNat, 22), (a.toNat, 10), (b.toNat, 4)])
  | .mst c g a b => some (wd 0x6A000004 [(c.toNat, 31), (g.toNat, 22), (a.toNat, 10), (b.toNat, 4)])
  | .mma c t a b x y => some (wd 0x71C00000 [(c.toNat, 31), (t.toNat, 18), (a.toNat, 12), (b.toNat, 6), (x.toNat, 3), (y.toNat, 0)])
  | .mmat c t a b x y => some (wd 0x73C00000 [(c.toNat, 31), (t.toNat, 18), (a.toNat, 12), (b.toNat, 6), (x.toNat, 3), (y.toNat, 0)])
  | .mmas c t a b x y => some (wd 0x75C00000 [(c.toNat, 31), (t.toNat, 18), (a.toNat, 12), (b.toNat, 6), (x.toNat, 3), (y.toNat, 0)])
  | .mzero c t => some (wd 0x77C00000 [(c.toNat, 31), (t.toNat, 16)])
  | .mload c t a => some (wd 0x77C00080 [(c.toNat, 31), (t.toNat, 16), (a.toNat, 10)])
  | .mdrain c t a f => some (wd 0x77C00100 [(c.toNat, 31), (t.toNat, 16), (a.toNat, 10), (f.toNat, 4)])
  | .mchk c t => some (wd 0x77C00180 [(c.toNat, 31), (t.toNat, 16)])
  | .mfs c g d n => some (wd 0x78000000 [(c.toNat, 31), (g.toNat, 22), (d.toNat, 16), (n.toNat, 0)])
  | .mts c g a n => some (wd 0x7A000000 [(c.toNat, 31), (g.toNat, 22), (a.toNat, 10), (n.toNat, 0)])
  | .spstat c g d => some (wd 0x7C000000 [(c.toNat, 31), (g.toNat, 22), (d.toNat, 16)])
  | .spscrub c g => some (wd 0x7C000001 [(c.toNat, 31), (g.toNat, 22)])
  | .spretire c g a => some (wd 0x7C000002 [(c.toNat, 31), (g.toNat, 22), (a.toNat, 10)])
  | .activeSetEntry _ _ => none
  | .activeSetTimeout _ _ => none
  | .pathwaitTimeout _ _ _ => none
  | .joinTimeout _ _ _ => none
  | .sliceTimeout _ _ => none
  | .waittDeadline _ _ => none
  | .loadReply _ _ _ => none
  | .atomicReply _ _ => none
  | .ldgaWrite _ _ _ => none
  | .storeAck _ _ => none
  | .rstAck _ _ => none
  | .wcAgeExpiry _ _ => none
  | .wakePacket _ _ _ => none
  | .watchTimeout _ _ _ => none
  | .copyChunk _ _ => none
  | .copyRetire _ => none
  | .copyNack _ _ _ => none
  | .copyViolation _ _ => none
  | .engineOpStart _ => none
  | .engineOpDone _ => none
  | .parityApply _ _ => none
  | .rebuildComplete _ _ => none
  | .scrubPass _ _ _ => none
  | .spscrubComplete _ _ => none
  | .bindRecordWrite _ _ _ => none
  | .boltStart _ _ _ _ => none
  | .skeinEnd _ => none
  | .haltComplete _ => none
  | .abandonTimeout _ => none
  | .contextSaveComplete _ => none
  | .imageSpillStart _ => none
  | .spillComplete _ => none
  | .restoreComplete _ => none
  | .watchdog _ => none
  | .homeRequest _ => none
  | .faultRecordDelivery _ => none
  | .moveComplete _ _ => none
  | .recodingComplete _ _ => none
  | .filterInvalidation _ _ _ => none
  | .filterAck _ _ _ => none
  | .shadowOpenRequest _ _ => none
  | .shadowWrite _ => none
  | .shpubArrival _ => none
  | .publishPrepare _ _ _ => none
  | .publishCommit _ _ => none
  | .publishAbort _ _ => none
  | .replicaTimeout _ _ => none
  | .poolExtentWithdrawal _ _ _ _ => none
  | .poolInflightTimeout _ => none
  | .backInvalidate _ _ => none
  | .readyToken _ _ _ => none
  | .startToken _ _ => none
  | .doorbell _ _ => none
  | .qreset _ _ => none
  | .launchCmd _ => none
  | .evset _ => none
  | .evclear _ => none
  | .evread _ => none
  | .cancel _ => none
  | .build _ => none
  | .contextBuilt _ => none
  | .destroy _ => none
  | .setkeys _ => none
  | .setroot _ => none
  | .ringset _ => none
  | .qopen _ => none
  | .qclose _ => none
  | .replay _ _ => none
  | .tinval _ => none
  | .protect _ => none
  | .attest _ _ => none
  | .rspool _ => none
  | .carve _ _ => none
  | .uncarve _ _ => none
  | .partset _ _ _ _ _ => none
  | .preempt _ _ _ => none
  | .restore _ _ => none
  | .migrate _ _ _ => none
  | .tiermove _ _ _ _ => none
  | .compress _ _ => none
  | .expand _ _ => none
  | .extentGrant _ _ _ => none
  | .extentWithdraw _ => none
  | .genbump _ => none
  | .meterIntervalEnd _ => none
  | .tokenArrival _ _ => none
  | .flitReceive _ _ _ _ => none
  | .flitReplayTimeout _ _ => none
  | .rotationStep _ _ => none
  | .retrainDone _ _ _ _ => none
  | .shadowCalibrationDone _ _ => none
  | .loomLossOfLight _ _ => none
  | .portTraining _ _ _ => none
  | .portDown _ => none
  | .portUp _ => none
  | .fabricResponseTimeout _ => none
  | .hostMmioViolation _ _ => none
  | .capcfgWrite _ _ _ => none
  | .registerWrite _ _ => none
  | .powerOverLimit _ => none
  | .readring => none
  | .pwrcap _ _ => none
  | .reset _ => none
  | .setopkey _ _ => none
  | .resetRelease _ => none
  | .partitionReady _ => none
  | .shdReply _ => none
  | .instructionFetchReply _ => none
  | .captureSample _ _ => none
  | .fabricLaneWeak _ _ => none
  | .fabricLaneLost _ _ => none
  | .keyTableUpdateApplied _ _ => none
  | .walkComplete _ => none

/-- The word of an instruction. -/
def encode (i : Instr) : Option Word := (encodeNat i).map (BitVec.ofNat 32)

end Sys2Proof
end

