-- ==== Sys2Proof/Config.lean ====
section
/-! DEFINITION. Sys2Proof/Config.lean: what the implementation fixes and the spec leaves open. Every constant
here is opaque and has no body: no proof can see its value, so a claim holds whatever it is. -/

namespace Sys2Proof.Config

/-- Which of the values within the bound of R101 an FSPEC instruction delivers: by operation and operand (log 7). -/
opaque fspecChoice : Nat → Word → Nat

/-- Whether the uniform store has room for the `n`-th uniform or affine value written (R66; log 16). -/
opaque uniformRoom : Nat → Bool

/-- A value the spec leaves open, for the `n`-th such value of a run (logs 20, 24, 25). -/
opaque freeByte : Nat → Byte

/-- A yes-or-no choice the spec leaves to the module, for the `n`-th such choice of a run (log 26). -/
opaque freeBool : Nat → Bool

/-- A count the spec leaves to the module, for the `n`-th such count of a run (log 26). -/
opaque freeNat : Nat → Nat

/-- The set of a home's L2 that a line, or a granule's translation, falls into (R288; log 52). -/
opaque l2Set : Nat → Nat

/-- SHAKE256 with a 256-bit output (R336, R338, R409): the function of the standard, not evaluated (log 30). -/
opaque shake256 : List Byte → List Byte

/-- The public key of the `n`-th usage key, and the bytes of the signature of a message with it (R336, R338; log 30). -/
opaque usagePublic : Nat → List Byte
opaque usageSignByte : Nat → List Byte → Nat → Byte

/-- The bytes of the signature of a message with the device identity key (R339; log 30). -/
opaque quoteSignByte : List Byte → Nat → Byte

/-- Whether an SLH-DSA signature verifies: key, message, signature (R338, R408; log 30). -/
opaque slhVerify : List Byte → List Byte → List Byte → Bool

end Sys2Proof.Config
end

