-- ==== Sys2Proof/Machine/Bits.lean ====
section
/-! DEFINITION. Machine/Bits.lean: bit fields, sign extension and byte order (R3, R18), in one place. -/

namespace Sys2Proof.Machine

/-- Bits [hi:lo] of a natural number. -/
def bits (x hi lo : Nat) : Nat := x / 2 ^ lo % 2 ^ (hi + 1 - lo)

/-- One bit of a natural number. -/
def bit (x n : Nat) : Bool := x / 2 ^ n % 2 == 1

/-- `n` bits of `x` read as two's complement. -/
def signed (n x : Nat) : Int := if x % 2 ^ n < 2 ^ (n - 1) then (x % 2 ^ n : Nat) else (x % 2 ^ n : Nat) - 2 ^ n

/-- The bytes of a value, least significant first (R3). -/
def bytesOf : Nat → Nat → List Byte
  | 0, _ => []
  | n + 1, x => BitVec.ofNat 8 x :: bytesOf n (x / 256)

/-- The value of bytes, least significant first (R3). -/
def ofBytes : List Byte → Nat
  | [] => 0
  | b :: t => b.toNat + 256 * ofBytes t

/-- The low word of a pair (R45). -/
def lo32 (x : Dword) : Word := x.setWidth 32
/-- The high word of a pair (R45). -/
def hi32 (x : Dword) : Word := (x >>> 32).setWidth 32
/-- A pair from its words (R45). -/
def pair (lo hi : Word) : Dword := hi ++ lo

/-- `n` rounded down to a multiple of `k`. -/
def alignDown (n k : Nat) : Nat := n / k * k
/-- `n` rounded up to a multiple of `k`. -/
def alignUp (n k : Nat) : Nat := (n + (k - 1)) / k * k

/-- Population count of the low `n` bits. -/
def popCount : Nat → Nat → Nat
  | 0, _ => 0
  | n + 1, x => x % 2 + popCount n (x / 2)

/-- Floor of the square root, `k` bits, by the digit-by-digit method. -/
def isqrt : Nat → Nat → Nat → Nat
  | 0, _, r => r
  | k + 1, n, r => if (r + 2 ^ k) * (r + 2 ^ k) ≤ n then isqrt k n (r + 2 ^ k) else isqrt k n r

/-- Number of bits of `n`: 0 for 0, else floor(log2 n) + 1. -/
def bitLen (n : Nat) : Nat := if n = 0 then 0 else Nat.log2 n + 1

/-- Element `i` of a list, or a default. -/
def nth {α : Type} (d : α) (l : List α) (i : Nat) : α := (l[i]?).getD d

/-- Replace element `i` of a list (nothing where there is none). -/
def setNth {α : Type} : List α → Nat → α → List α
  | [], _, _ => []
  | _ :: t, 0, v => v :: t
  | h :: t, i + 1, v => h :: setNth t i v

/-- Insert before the first element that does not come before `x`. -/
def insertBy {α : Type} (le : α → α → Bool) (x : α) : List α → List α
  | [] => [x]
  | y :: t => if le x y then x :: y :: t else y :: insertBy le x t

/-- Stable insertion sort. -/
def sortBy {α : Type} (le : α → α → Bool) : List α → List α
  | [] => []
  | x :: t => insertBy le x (sortBy le t)

end Sys2Proof.Machine
end

