-- ==== Sys2Proof/Machine/Float.lean ====
section
/-! DEFINITION. Machine/Float.lean: the number formats, rounding, flags and NaN rules (R15 to R31), exact values
as `m × 2^e`, and the floating operations over them (R98 to R107). -/

namespace Sys2Proof.Machine

/-- A floating format (R15). Encodings are magnitudes; the sign bit stands above them. -/
structure Fmt where
  ebits : Nat
  fbits : Nat
  bias : Nat
  /-- The encoding of the largest finite magnitude. -/
  maxFin : Nat
  /-- E all ones holds infinity and NaN (false: E4M3, whose only NaN is all ones). -/
  ieee : Bool
  /-- The canonical NaN of R29. -/
  qnan : Nat
  deriving DecidableEq, Repr

def Fmt.fp32 : Fmt := ⟨8, 23, 127, 0x7F7FFFFF, true, 0x7FC00000⟩
def Fmt.fp16 : Fmt := ⟨5, 10, 15, 0x7BFF, true, 0x7E00⟩
def Fmt.bf16 : Fmt := ⟨8, 7, 127, 0x7F7F, true, 0x7FC0⟩
def Fmt.e4m3 : Fmt := ⟨4, 3, 7, 0x7E, false, 0x7F⟩
def Fmt.e5m2 : Fmt := ⟨5, 2, 15, 0x7B, true, 0x7E⟩

/-- The weight of the sign bit. -/
def Fmt.signBit (f : Fmt) : Nat := 2 ^ (f.ebits + f.fbits)
/-- The encoding of infinity. -/
def Fmt.inf (f : Fmt) : Nat := (2 ^ f.ebits - 1) * 2 ^ f.fbits
/-- The exponent of the smallest subnormal. -/
def Fmt.qmin (f : Fmt) : Int := 1 - (f.bias : Int) - (f.fbits : Int)

/-- A decoded operand: a NaN keeps its sign, fraction and fraction width for R29. `fin neg m e` is `±m × 2^e`. -/
inductive FpVal where
  | nan (neg : Bool) (frac fbits : Nat) (signalling payload : Bool)
  | inf (neg : Bool)
  | fin (neg : Bool) (m : Nat) (e : Int)
  deriving DecidableEq, Repr

/-- The value of an encoding (R15, R16). -/
def Fmt.decode (f : Fmt) (x : Nat) : FpVal :=
  let neg := x / f.signBit % 2 == 1
  let ex := x / 2 ^ f.fbits % 2 ^ f.ebits
  let fr := x % 2 ^ f.fbits
  if f.ieee ∧ ex = 2 ^ f.ebits - 1 then
    if fr = 0 then .inf neg else .nan neg fr f.fbits (fr < 2 ^ (f.fbits - 1)) true
  else if ¬ f.ieee ∧ x % f.signBit = f.signBit - 1 then .nan neg 0 f.fbits false false
  else if ex = 0 then .fin neg fr f.qmin
  else .fin neg (2 ^ f.fbits + fr) ((ex : Int) - 1 + f.qmin)

/-- E2M1 (R16), the reserved code 0b1000 apart: value × 2, sign. -/
def e2m1Twice (c : Nat) : Nat := nth 0 [0, 1, 2, 3, 4, 6, 8, 12] (c % 8)
/-- E2M1 as an exact value; 0b1000 is not a value and reads as NaN (R16). -/
def decodeE2M1 (c : Nat) : FpVal :=
  if c % 16 = 8 then .nan false 1 23 false false else .fin (c % 16 ≥ 8) (e2m1Twice c) (-1)

/-- Multiplication by a power of two, exact. -/
def FpVal.scale (n : Int) : FpVal → FpVal
  | .fin s m e => .fin s m (e + n)
  | v => v

/-- One element of an E2M1X block (R20). -/
def decodeE2M1X (c sc x : Nat) : FpVal :=
  if sc = 0xFF then .nan false 0 3 false false
  else if c % 16 = 8 then (Fmt.e4m3.decode x).scale ((sc : Int) - 127)
  else (decodeE2M1 c).scale ((sc : Int) - 127)

def FpVal.isNan : FpVal → Bool
  | .nan .. => true
  | _ => false
def FpVal.isSignalling : FpVal → Bool
  | .nan _ _ _ s _ => s
  | _ => false
def FpVal.isZero : FpVal → Bool
  | .fin _ m _ => m == 0
  | _ => false
def FpVal.isInf : FpVal → Bool
  | .inf _ => true
  | _ => false
def FpVal.neg : FpVal → Bool
  | .nan s .. => s
  | .inf s => s
  | .fin s _ _ => s
def FpVal.negate : FpVal → FpVal
  | .nan s f w g p => .nan s f w g p
  | .inf s => .inf (!s)
  | .fin s m e => .fin (!s) m e
/-- The magnitude, sign cleared. -/
def FpVal.absVal : FpVal → FpVal
  | .nan _ f w g p => .nan false f w g p
  | .inf _ => .inf false
  | .fin _ m e => .fin false m e

/-- The flag bits of R32. -/
abbrev FpFlags := BitVec 5
def fNV : FpFlags := 1
def fDZ : FpFlags := 2
def fOF : FpFlags := 4
def fUF : FpFlags := 8
def fNX : FpFlags := 16

/-- FPMODE and the compatibility level, as an operation reads them (R22, R35). -/
structure FpCtx where
  /-- 0 RNE, 1 RTZ, 2 RUP, 3 RDN. -/
  rm : Nat
  ftz : Bool
  lvl2 : Bool
  deriving DecidableEq, Repr

/-- An operation's result bits and the flags it raises. -/
structure FpOut where
  bits : Nat
  flags : FpFlags
  deriving DecidableEq, Repr

/-- Whether the truncated magnitude is rounded up: `low` of `2^sh`, `sticky` for what lies below, by R23. -/
def roundsUp (rm : Nat) (neg : Bool) (q low sh : Nat) (sticky : Bool) : Bool :=
  let inexact := low ≠ 0 ∨ sticky
  let half := 2 ^ (sh - 1)
  if rm = 0 then sh ≠ 0 ∧ (half < low ∨ (low = half ∧ (sticky ∨ q % 2 = 1)))
  else if rm = 1 then false
  else if rm = 2 then inexact ∧ !neg
  else inexact ∧ neg

/-- The magnitude `m × 2^e` (plus something below one unit when `sticky`) in units of `2^q`, rounded once;
and whether it was inexact. -/
def roundUnits (rm : Nat) (neg : Bool) (m : Nat) (e : Int) (sticky : Bool) (q : Int) : Nat × Bool :=
  if q ≤ e then (m * 2 ^ (e - q).toNat, sticky)
  else
    let sh := (q - e).toNat
    let hi := m / 2 ^ sh
    let low := m % 2 ^ sh
    (if roundsUp rm neg hi low sh sticky then hi + 1 else hi, low ≠ 0 ∨ sticky)

/-- Rounding to a format: the encoded magnitude (above the largest finite one on overflow) and inexactness (R23). -/
def Fmt.roundMag (f : Fmt) (rm : Nat) (neg : Bool) (m : Nat) (e : Int) (sticky : Bool) : Nat × Bool :=
  if m = 0 then (0, sticky)
  else
    let top : Int := e + (bitLen m : Int) - 1
    let q : Int := max (top - f.fbits) f.qmin
    let r := roundUnits rm neg m e sticky q
    ((q - f.qmin).toNat * 2 ^ f.fbits + r.1, r.2)

/-- Tininess after rounding (R26): below the smallest normal with an unbounded exponent range. -/
def Fmt.tiny (f : Fmt) (rm : Nat) (neg : Bool) (m : Nat) (e : Int) (sticky : Bool) : Bool :=
  if m = 0 then false
  else
    let top : Int := e + (bitLen m : Int) - 1
    let emin : Int := 1 - f.bias
    if emin ≤ top then false
    else if top < emin - 1 then true
    else (roundUnits rm neg m e sticky (top - f.fbits)).1 < 2 ^ (f.fbits + 1)

/-- An encoded magnitude with its sign. -/
def Fmt.pack (f : Fmt) (neg : Bool) (mag : Nat) : Nat := if neg then f.signBit + mag else mag

/-- The overflow result (R26): infinity or the largest finite value, by the rounding direction. -/
def Fmt.overflow (f : Fmt) (rm : Nat) (neg : Bool) : Nat :=
  if rm = 0 ∨ (rm = 2 ∧ !neg) ∨ (rm = 3 ∧ neg) then f.inf else f.maxFin

/-- Round a finite exact value to a format with its flags (R23, R26). FTZ32 is applied apart (R24). -/
def Fmt.round (f : Fmt) (rm : Nat) (neg : Bool) (m : Nat) (e : Int) (sticky : Bool) : FpOut :=
  let r := f.roundMag rm neg m e sticky
  if f.maxFin < r.1 then ⟨f.pack neg (f.overflow rm neg), fOF ||| fNX⟩
  else
    ⟨f.pack neg r.1,
      (if r.2 then fNX else 0) ||| (if r.2 ∧ f.tiny rm neg m e sticky then fUF else 0)⟩

/-- FTZ32 on an FP32 result (R22, R24, R26). -/
def ftz32 (c : FpCtx) (o : FpOut) : FpOut :=
  let mag := o.bits % 2 ^ 31
  if c.ftz ∧ mag ≠ 0 ∧ mag < 2 ^ 23 then ⟨o.bits - mag, o.flags ||| fUF ||| fNX⟩ else o

/-- The NaN result of R29 in a format: canonical at level 3, the first NaN operand's payload at level 2. -/
def Fmt.nanOf (f : Fmt) (c : FpCtx) : List FpVal → Nat
  | [] => f.qnan
  | .nan s fr w _ true :: t =>
      if ¬ c.lvl2 then f.qnan
      else
        let al := if f.fbits ≤ w then fr / 2 ^ (w - f.fbits) else fr * 2 ^ (f.fbits - w)
        let _ := t
        f.pack s (f.inf + (al ||| 2 ^ (f.fbits - 1)))
  | .nan _ _ _ _ false :: _ => f.qnan
  | .inf _ :: t => f.nanOf c t
  | .fin .. :: t => f.nanOf c t

/-- NV when some operand is a signalling NaN (R27). -/
def nvOf (ops : List FpVal) : FpFlags := if ops.any FpVal.isSignalling then fNV else 0

/-- A NaN result with its flags. -/
def Fmt.nanOut (f : Fmt) (c : FpCtx) (ops : List FpVal) (invalid : Bool) : FpOut :=
  ⟨f.nanOf c ops, nvOf ops ||| (if invalid then fNV else 0)⟩

/-- The signed integer `±m` in units of `2^q`, for `q ≤ e`. -/
def unitsAt (s : Bool) (m : Nat) (e q : Int) : Int :=
  let u : Int := ((m * 2 ^ (e - q).toNat : Nat) : Int)
  if s then -u else u

/-- The exact sum of two finite values, and the sign of an exact zero (R99). -/
def addFin (rm : Nat) (s1 : Bool) (m1 : Nat) (e1 : Int) (s2 : Bool) (m2 : Nat) (e2 : Int) : Bool × Nat × Int :=
  let q := min e1 e2
  let t := unitsAt s1 m1 e1 q + unitsAt s2 m2 e2 q
  if t = 0 then
    (if m1 = 0 ∧ m2 = 0 ∧ s1 = s2 then s1 else rm = 3, 0, q)
  else (t < 0, t.natAbs, q)

/-- The exact product. `none`: 0 × ∞. -/
def mulVal : FpVal → FpVal → Option FpVal
  | .fin s1 m1 e1, .fin s2 m2 e2 => some (.fin (s1 != s2) (m1 * m2) (e1 + e2))
  | .inf s1, .inf s2 => some (.inf (s1 != s2))
  | .inf s1, .fin s2 m _ => if m = 0 then none else some (.inf (s1 != s2))
  | .fin s1 m _, .inf s2 => if m = 0 then none else some (.inf (s1 != s2))
  | .nan s f w g p, _ => some (.nan s f w g p)
  | _, .nan s f w g p => some (.nan s f w g p)

/-- Round an exact sum of two non-NaN values; ∞ − ∞ is invalid (R27). -/
def Fmt.addVals (f : Fmt) (c : FpCtx) (ops : List FpVal) : FpVal → FpVal → FpOut
  | .inf s1, .inf s2 => if s1 = s2 then ⟨f.pack s1 f.inf, 0⟩ else f.nanOut c ops true
  | .inf s, _ => ⟨f.pack s f.inf, 0⟩
  | _, .inf s => ⟨f.pack s f.inf, 0⟩
  | .fin s1 m1 e1, .fin s2 m2 e2 =>
      let t := addFin c.rm s1 m1 e1 s2 m2 e2
      f.round c.rm t.1 t.2.1 t.2.2 false
  | _, _ => f.nanOut c ops false

def Fmt.add (f : Fmt) (c : FpCtx) (a b : FpVal) : FpOut :=
  if a.isNan ∨ b.isNan then f.nanOut c [a, b] false else f.addVals c [a, b] a b

def Fmt.sub (f : Fmt) (c : FpCtx) (a b : FpVal) : FpOut :=
  if a.isNan ∨ b.isNan then f.nanOut c [a, b] false else f.addVals c [a, b] a b.negate

def Fmt.mul (f : Fmt) (c : FpCtx) (a b : FpVal) : FpOut :=
  if a.isNan ∨ b.isNan then f.nanOut c [a, b] false
  else match mulVal a b with
    | some (.fin s m e) => f.round c.rm s m e false
    | some (.inf s) => ⟨f.pack s f.inf, 0⟩
    | _ => f.nanOut c [a, b] true

/-- `±(a × b) ± d` with one rounding (R100): `np` negates the product, `nd` the addend. -/
def Fmt.fma (f : Fmt) (c : FpCtx) (np nd : Bool) (a b d : FpVal) : FpOut :=
  let ops := [a, b, d]
  if a.isNan ∨ b.isNan then f.nanOut c ops false
  else match mulVal a b with
    | none => f.nanOut c ops true
    | some p =>
      if d.isNan then f.nanOut c ops false
      else f.addVals c ops (if np then p.negate else p) (if nd then d.negate else d)

/-- Correctly rounded quotient (R99, R27). The quotient is carried to 300 bits below and a sticky bit. -/
def Fmt.div (f : Fmt) (c : FpCtx) (a b : FpVal) : FpOut :=
  if a.isNan ∨ b.isNan then f.nanOut c [a, b] false
  else
    let s := a.neg != b.neg
    match a, b with
    | .inf _, .inf _ => f.nanOut c [a, b] true
    | .inf _, _ => ⟨f.pack s f.inf, 0⟩
    | _, .inf _ => ⟨f.pack s 0, 0⟩
    | .fin _ m1 e1, .fin _ m2 e2 =>
        if m2 = 0 then (if m1 = 0 then f.nanOut c [a, b] true else ⟨f.pack s f.inf, fDZ⟩)
        else if m1 = 0 then ⟨f.pack s 0, 0⟩
        else
          let n := m1 * 2 ^ 100
          f.round c.rm s (n / m2) (e1 - e2 - 100) (n % m2 ≠ 0)
    | _, _ => f.nanOut c [a, b] false

/-- Whether `a < b` for non-NaN values (−0 = +0). -/
def FpVal.lt : FpVal → FpVal → Bool
  | .inf s1, .inf s2 => s1 && !s2
  | .inf s, _ => s
  | _, .inf s => !s
  | .fin s1 m1 e1, .fin s2 m2 e2 =>
      let q := min e1 e2
      unitsAt s1 m1 e1 q < unitsAt s2 m2 e2 q
  | _, _ => false

/-- Whether `a = b` for non-NaN values (−0 = +0). -/
def FpVal.eqv (a b : FpVal) : Bool := !a.isNan && !b.isNan && !a.lt b && !b.lt a

/-- FMIN and FMAX (R28) on encodings `x`, `y` of a format: −0 below +0; one operand as it stands. -/
def Fmt.minMax (f : Fmt) (c : FpCtx) (isMax : Bool) (x y : Nat) : FpOut :=
  let a := f.decode x
  let b := f.decode y
  let nv := nvOf [a, b]
  if a.isNan ∧ b.isNan then ⟨f.nanOf c [a, b], nv⟩
  else if a.isNan then ⟨y, nv⟩
  else if b.isNan then ⟨x, nv⟩
  else
    let aLess := a.lt b || (a.isZero && b.isZero && a.neg && !b.neg)
    ⟨if aLess != isMax then x else y, nv⟩

/-- FSCALE (R99): `n` is applied exactly before the rounding; beyond ±1,000 the rounded result no longer changes. -/
def Fmt.fscale (f : Fmt) (c : FpCtx) (a : FpVal) (n : Int) : FpOut :=
  match a with
  | .nan .. => f.nanOut c [a] false
  | .inf s => ⟨f.pack s f.inf, 0⟩
  | .fin s m e =>
    if m = 0 then ⟨f.pack s 0, 0⟩ else f.round c.rm s m (e + max (-1000) (min 1000 n)) false

/-- The square root, correctly rounded RNE (R101), special inputs by R102. -/
def Fmt.sqrt (f : Fmt) (c : FpCtx) (a : FpVal) : FpOut :=
  match a with
  | .nan .. => f.nanOut c [a] false
  | .inf s => if s then f.nanOut c [a] true else ⟨f.inf, 0⟩
  | .fin s m e =>
    if m = 0 then ⟨f.pack s 0, 0⟩
    else if s then f.nanOut c [a] true
    else
      -- an even exponent, and 60 more bits below it
      let odd := e % 2 ≠ 0
      let m2 := (if odd then 2 * m else m) * 2 ^ 120
      let e2 := (if odd then e - 1 else e) - 120
      let r := isqrt 90 m2 0
      f.round 0 false r (e2 / 2) (r * r ≠ m2)

/-! ### The FSPEC functions with a bound (R101)

`y` is enclosed in `[lo, hi]`, in units of `2^-200`, computed with integers. The values within the bound of the
enclosure form a range in the order of FP32; Config.fspecChoice picks one of them. -/

/-- Fixed-point fraction bits of the enclosures. -/
def fxBits : Nat := 200

/-- FP32 encodings in numeric order: +0 is rank 0, −0 rank −1. -/
def fpUnrank (r : Int) : Nat := if r < 0 then 2 ^ 31 + (-r - 1).toNat else r.toNat

/-- The magnitude of a fixed-point integer rounded in a direction to FP32. -/
def fxMag (rm : Nat) (v : Int) : Nat :=
  (Fmt.fp32.roundMag rm (decide (v < 0)) v.natAbs (-(fxBits : Int)) false).1

/-- The lowest FP32 rank at or above a fixed-point integer. -/
def fxRankLo (v : Int) : Int :=
  let g := fxMag 2 v
  if v < 0 ∨ g = 0 then -(g : Int) - 1 else (g : Int)

/-- The highest FP32 rank at or below a fixed-point integer. -/
def fxRankHi (v : Int) : Int :=
  let g := fxMag 3 v
  if v < 0 ∧ g ≠ 0 then -(g : Int) - 1 else (g : Int)

/-- One unit in the last place of FP32 at a value in units of `2^-fxBits`. -/
def fxUlp (v : Int) : Int :=
  let top : Int := -(fxBits : Int) + (bitLen v.natAbs : Int) - 1
  let q : Int := max (top - 23) (-149)
  ((2 ^ (q + (fxBits : Int)).toNat : Nat) : Int)

/-- An FSPEC result: the exact value is `lo` where `lo = hi`, and lies strictly between them otherwise; the delivered one
is within `bound` of it (R101), cut at the largest finite value. NX when the result differs from the exact value, UF when
the exact value is tiny (R26). -/
def fspecPick (op : Nat) (a : Word) (lo hi bound : Int) : FpOut :=
  let inner : Int := if lo = hi then 0 else 1
  let r0 := max (fxRankLo (lo - bound + inner)) (-0x7F800000)
  let r1 := min (fxRankHi (hi + bound - inner)) 0x7F7FFFFF
  let n := (r1 - r0).toNat + 1
  let r := r0 + ((Config.fspecChoice op a % n : Nat) : Int)
  let bits := fpUnrank r
  let back : Int :=
    match Fmt.fp32.decode bits with
    | .fin s m e => unitsAt s m e (-(fxBits : Int))
    | _ => 0
  let exact : Bool := lo = hi ∧ back = lo
  let tiny : Bool := lo.natAbs < 2 ^ (fxBits - 126) ∧ hi.natAbs < 2 ^ (fxBits - 126)
  ⟨bits, if exact then 0 else fNX ||| (if tiny then fUF else 0)⟩

/-- `2^(2^-1)`, `2^(2^-2)`, … at 200 fraction bits, by repeated square roots. -/
def exp2Consts : Nat → Nat → List Nat
  | 0, _ => []
  | k + 1, c => let r := isqrt 202 (c * 2 ^ fxBits) 0; r :: exp2Consts k r

/-- The product of the constants chosen by the bits of a fraction, from bit `i − 1` down. -/
def exp2Frac (fr : Nat) : Nat → List Nat → Nat → Nat
  | _, [], acc => acc
  | i, c :: t, acc => exp2Frac fr (i - 1) t (if bit fr (i - 1) then acc * c / 2 ^ fxBits else acc)

/-- `2^(n + fr / 2^112)` at 200 fraction bits (relative error below `2^-110`). -/
def exp2Fx (n : Int) (fr : Nat) : Nat :=
  let m := exp2Frac fr 112 (exp2Consts 112 (2 * 2 ^ fxBits)) (2 ^ fxBits)
  if 0 ≤ n then m * 2 ^ n.toNat else m / 2 ^ (-n).toNat

/-- The fraction of log2 of `m / 2^200` in [1, 2), `k` bits, by squaring. -/
def log2Frac : Nat → Nat → Nat → Nat
  | 0, _, acc => acc
  | k + 1, m, acc =>
    let s := m * m / 2 ^ fxBits
    if 2 ^ (fxBits + 1) ≤ s then log2Frac k (s / 2) (2 * acc + 1) else log2Frac k s (2 * acc)

/-- π at 200 fraction bits, truncated. -/
def piFx : Nat := 5048344754617993871973410141242436836214643421488662971535368

/-- The alternating sine series from term `i`: `t` is the current term, `x2` the square of the argument. -/
def sinSeries : Nat → Nat → Nat → Nat → Int → Int
  | 0, _, _, _, acc => acc
  | k + 1, i, t, x2, acc =>
    sinSeries k (i + 1) (t * x2 / 2 ^ fxBits / ((2 * i + 2) * (2 * i + 3))) x2
      (if i % 2 = 0 then acc + (t : Int) else acc - (t : Int))

/-- sin(π r) for `r / 2^200` in [0, 2). -/
def sinPiFx (r : Nat) : Int :=
  let one := 2 ^ fxBits
  let r1 := if one ≤ r then r - one else r
  let r2 := if one / 2 < r1 then one - r1 else r1
  let x := r2 * piFx / one
  let v := sinSeries 24 0 x (x * x / one) 0
  if one ≤ r then -v else v

/-- log2 e at 200 fraction bits, truncated. -/
def log2eFx : Nat := 2318321547468254865173387471183990171487108758923299108729110

/-- A finite value as a fixed-point integer at 200 fraction bits. -/
def fxOf (s : Bool) (m : Nat) (e : Int) : Int := unitsAt s m e (-(fxBits : Int))

/-- `k` when the value is exactly `2^k`. -/
def powerOf (m : Nat) (e : Int) : Option Int :=
  if m = 2 ^ (bitLen m - 1) then some (e + (bitLen m : Int) - 1) else none

/-- RCP (R101, R102). An exact value of `2^128` or more overflows to infinity (log 7). -/
def fspecRcp (c : FpCtx) (a : Word) : FpOut :=
  match Fmt.fp32.decode a.toNat with
  | .nan s fr w g p => Fmt.fp32.nanOut c [.nan s fr w g p] false
  | .inf s => ⟨Fmt.fp32.pack s 0, 0⟩
  | .fin s m e =>
    let d := m * 2 ^ (e + 149).toNat
    let exact : Option Int :=
      match powerOf m e with
      | some k => if -127 ≤ k ∧ k ≤ 126 then some k else none
      | none => none
    if m = 0 then ⟨Fmt.fp32.pack s Fmt.fp32.inf, fDZ⟩
    else if d ≤ 2 ^ 21 then ⟨Fmt.fp32.pack s Fmt.fp32.inf, fOF ||| fNX⟩
    else match exact with
      | some k => Fmt.fp32.round 0 s 1 (-k) false
      | none =>
        let n := 2 ^ (fxBits + 149)
        let lo : Int := ((n / d : Nat) : Int)
        let hi : Int := if n % d = 0 then lo else lo + 1
        if s then fspecPick 0 a (-hi) (-lo) (fxUlp lo) else fspecPick 0 a lo hi (fxUlp lo)

/-- RSQ (R101, R102). -/
def fspecRsq (c : FpCtx) (a : Word) : FpOut :=
  match Fmt.fp32.decode a.toNat with
  | .nan s fr w g p => Fmt.fp32.nanOut c [.nan s fr w g p] false
  | .inf s => if s then Fmt.fp32.nanOut c [.inf s] true else ⟨0, 0⟩
  | .fin s m e =>
    if m = 0 then ⟨Fmt.fp32.pack s Fmt.fp32.inf, fDZ⟩
    else if s then Fmt.fp32.nanOut c [.fin s m e] true
    else
      let d := m * 2 ^ (e + 149).toNat
      let q := 2 ^ (2 * fxBits + 149) / d
      let r := isqrt 280 q 0
      let lo : Int := (r : Int)
      let hi : Int := if r * r * d = 2 ^ (2 * fxBits + 149) then lo else lo + 1
      fspecPick 1 a lo hi (fxUlp lo)

/-- EXP2 (R101, R102). -/
def fspecExp2 (c : FpCtx) (a : Word) : FpOut :=
  match Fmt.fp32.decode a.toNat with
  | .nan s fr w g p => Fmt.fp32.nanOut c [.nan s fr w g p] false
  | .inf s => if s then ⟨0, 0⟩ else ⟨Fmt.fp32.inf, 0⟩
  | .fin s m e =>
    let x := fxOf s m e
    let one : Int := ((2 ^ fxBits : Nat) : Int)
    let n := x / one
    if x % one = 0 ∧ -149 ≤ n ∧ n ≤ 127 then Fmt.fp32.round 0 false 1 n false
    else if 128 ≤ n then ⟨Fmt.fp32.inf, fOF ||| fNX⟩
    else
      let v := exp2Fx (max n (-400)) ((x % one).toNat / 2 ^ (fxBits - 112))
      let floor : Int := if -200 ≤ n then ((2 ^ (n + fxBits).toNat : Nat) : Int) else 0
      let lo : Int := max floor ((v - v / 2 ^ 110 - 1 : Nat) : Int)
      let hi : Int := min (max 1 (2 * floor)) ((v + v / 2 ^ 110 + 1 : Nat) : Int)
      fspecPick 3 a lo hi (2 * fxUlp lo)

/-- LOG2 (R101, R102): within 2 ulp; for A in [0.5, 2] the absolute bound applies (log 7). -/
def fspecLog2 (c : FpCtx) (a : Word) : FpOut :=
  match Fmt.fp32.decode a.toNat with
  | .nan s fr w g p => Fmt.fp32.nanOut c [.nan s fr w g p] false
  | .inf s => if s then Fmt.fp32.nanOut c [.inf s] true else ⟨Fmt.fp32.inf, 0⟩
  | .fin s m e =>
    if m = 0 then ⟨Fmt.fp32.pack true Fmt.fp32.inf, fDZ⟩
    else if s then Fmt.fp32.nanOut c [.fin s m e] true
    else
      let k : Int := e + (bitLen m : Int) - 1
      match powerOf m e with
      | some k => Fmt.fp32.round 0 (decide (k < 0)) k.natAbs 0 false
      | none =>
        let fr := log2Frac 95 (m * 2 ^ fxBits / 2 ^ (bitLen m - 1)) 0
        let v : Int := k * ((2 ^ fxBits : Nat) : Int) + ((fr * 2 ^ (fxBits - 95) : Nat) : Int)
        let slack : Int := ((2 ^ (fxBits - 94) : Nat) : Int)
        let bound : Int := if k = 0 ∨ k = -1 then ((2 ^ (fxBits - 22) : Nat) : Int) else 2 * fxUlp v
        fspecPick 4 a (v - slack) (v + slack) bound

/-- SINPI (`half = false`) and COSPI (`half = true`) (R101, R102). -/
def fspecSin (half : Bool) (c : FpCtx) (a : Word) : FpOut :=
  match Fmt.fp32.decode a.toNat with
  | .nan s fr w g p => Fmt.fp32.nanOut c [.nan s fr w g p] false
  | .inf s => Fmt.fp32.nanOut c [.inf s] true
  | .fin s m e =>
    let one : Int := ((2 ^ fxBits : Nat) : Int)
    let x := fxOf s m e
    let y := (if half then x + one / 2 else x) % (2 * one)
    if y % one = 0 then ⟨if half then 0 else Fmt.fp32.pack s 0, 0⟩
    else if y = one / 2 then ⟨0x3F800000, 0⟩
    else if y = one + one / 2 then ⟨0xBF800000, 0⟩
    else
      let v := sinPiFx y.toNat
      let slack : Int := ((2 ^ (fxBits - 150) : Nat) : Int)
      fspecPick (if half then 6 else 5) a (max (-one) (v - slack)) (min one (v + slack)) ((2 ^ (fxBits - 22) : Nat) : Int)

/-- TANH (R101, R102). -/
def fspecTanh (c : FpCtx) (a : Word) : FpOut :=
  match Fmt.fp32.decode a.toNat with
  | .nan s fr w g p => Fmt.fp32.nanOut c [.nan s fr w g p] false
  | .inf s => ⟨Fmt.fp32.pack s 0x3F800000, 0⟩
  | .fin s m e =>
    if m = 0 then ⟨Fmt.fp32.pack s 0, 0⟩
    else
      let one := 2 ^ fxBits
      let x := (fxOf false m e).toNat
      let enc : Nat × Nat :=
        if x < 2 ^ (fxBits - 12) then (x - x * x / one * x / one / 3 - 1, x)
        else if 32 * one ≤ x then (one - 2 ^ (fxBits - 60), one)
        else
          let y : Int := -((2 * x * log2eFx / one : Nat) : Int)
          let t := exp2Fx (y / (one : Int)) ((y % (one : Int)).toNat / 2 ^ (fxBits - 112))
          let v := (one - t) * one / (one + t)
          (v - 2 ^ (fxBits - 100), min one (v + 2 ^ (fxBits - 100)))
      let lo : Int := (enc.1 : Int)
      let hi : Int := (enc.2 : Int)
      if s then fspecPick 7 a (-hi) (-lo) (2 * fxUlp lo) else fspecPick 7 a lo hi (2 * fxUlp lo)

/-! ### Conversions (R104 to R107, R30, R31) -/

/-- Conversion of a value to a format, rounded once (R105). -/
def Fmt.convert (f : Fmt) (c : FpCtx) : FpVal → FpOut
  | .nan s fr w g p => f.nanOut c [.nan s fr w g p] false
  | .inf s => ⟨f.pack s f.inf, 0⟩
  | .fin s m e => f.round c.rm s m e false

/-- FTOI, FTOIZ (`lo = −2^31`, `hi = 2^31 − 1`) and FTOU (`lo = 0`, `hi = 2^32 − 1`) (R31, R104). -/
def fpToInt (c : FpCtx) (rm : Nat) (lo hi : Int) (a : FpVal) : FpOut :=
  let bad (above : Bool) : Nat :=
    if c.lvl2 then 0x80000000 else if above then (hi % 4294967296).toNat else (lo % 4294967296).toNat
  match a with
  | .nan .. => ⟨if c.lvl2 then 0x80000000 else 0, fNV⟩
  | .inf s => ⟨bad (!s), fNV⟩
  | .fin s m e =>
    let r := roundUnits rm s m e false 0
    let v : Int := if s then -(r.1 : Int) else (r.1 : Int)
    if hi < v then ⟨bad true, fNV⟩
    else if v < lo then ⟨bad false, fNV⟩
    else ⟨(v % 4294967296).toNat, if r.2 then fNX else 0⟩

/-- FRND and FRNDZ (R104): integral values are unchanged; FRNDZ raises no NX. -/
def fpRoundInt (c : FpCtx) (rm : Nat) (nx : Bool) (a : FpVal) : FpOut :=
  match a with
  | .nan s fr w g p => Fmt.fp32.nanOut c [.nan s fr w g p] false
  | .inf s => ⟨Fmt.fp32.pack s Fmt.fp32.inf, 0⟩
  | .fin s m e =>
    let r := roundUnits rm s m e false 0
    let q := if 0 ≤ e then Fmt.fp32.round 0 s m e false else Fmt.fp32.round 0 s r.1 0 false
    ⟨q.bits, if r.2 ∧ nx then fNX else 0⟩

/-- A 16-bit or 8-bit element: BF16 subnormals read as zero at level 3 (R25). -/
def Fmt.operand (f : Fmt) (c : FpCtx) (x : Nat) : FpVal :=
  match f.decode x with
  | .fin s m e => if f = Fmt.bf16 ∧ ¬ c.lvl2 ∧ m < 2 ^ 7 then .fin s 0 e else .fin s m e
  | v => v

/-- E2M1 as a rounding grid; magnitudes 0 to 7, 8 is out of range (R30). -/
def Fmt.e2m1 : Fmt := ⟨2, 1, 1, 7, false, 8⟩

/-- Conversion of FP32 to E4M3 or E5M2 (R30). A negative value that rounds to zero raises NX alone, as its own row of R30
says (DEDUCED, log 4). -/
def toFp8 (f : Fmt) (sat : Bool) (a : FpVal) : FpOut :=
  match a with
  | .nan _ _ _ g _ => ⟨f.qnan, if g then fNV else 0⟩
  | .inf s =>
    if f.ieee then ⟨f.pack s (if sat then f.maxFin else f.inf), 0⟩
    else ⟨f.pack s (if sat then f.maxFin else f.qnan), fNV⟩
  | .fin s m e =>
    let r := f.roundMag 0 s m e false
    if f.maxFin < r.1 then
      ⟨f.pack s (if sat then f.maxFin else if f.ieee then f.inf else f.qnan), fOF ||| fNX⟩
    else ⟨f.pack s r.1, (if r.2 then fNX else 0) ||| (if r.2 ∧ f.tiny 0 s m e false ∧ ¬ (s ∧ r.1 = 0) then fUF else 0)⟩

/-- Conversion of FP32 to E2M1 (R30); a negative value that rounds to zero as in `toFp8` (log 4). -/
def toE2M1 (sat : Bool) (a : FpVal) : FpOut :=
  match a with
  | .nan .. => ⟨if sat then 0 else 8, fNV⟩
  | .inf s => ⟨if sat then (if s then 15 else 7) else 8, fNV⟩
  | .fin s m e =>
    let r := Fmt.e2m1.roundMag 0 s m e false
    if 7 < r.1 then ⟨if sat then (if s then 15 else 7) else 8, fOF ||| fNX⟩
    else
      ⟨if r.1 = 0 then 0 else if s then 8 + r.1 else r.1,
        (if r.2 then fNX else 0) ||| (if r.2 ∧ Fmt.e2m1.tiny 0 s m e false ∧ ¬ (s ∧ r.1 = 0) then fUF else 0)⟩

/-- FP32 of an FP8 value (R106): exact. -/
def fromFp8 (f : Fmt) (c : FpCtx) (x : Nat) : FpOut := Fmt.fp32.convert { c with rm := 0 } (f.decode x)

/-- FP32 of an E2M1 code (R107): 0b1000 gives 0x7FC0_0001; no flag. -/
def fromE2M1 (x : Nat) : Nat :=
  match decodeE2M1 x with
  | .fin s m e => (Fmt.fp32.round 0 s m e false).bits
  | _ => 0x7FC00001

/-- The index of the first value of largest magnitude, and that value (in units of `2^-300`). -/
def largestAbs : List Nat → Nat → Nat → Nat → Nat × Nat
  | [], _, bi, bv => (bi, bv)
  | v :: t, i, bi, bv => if bv < v then largestAbs t (i + 1) i v else largestAbs t (i + 1) bi bv

/-- An encoded E2M1X block: 32 codes, scale, escape, flags. -/
structure E2M1XBlock where
  codes : List Nat
  scale : Nat
  escape : Nat
  flags : FpFlags
  deriving DecidableEq, Repr

/-- A finite value in units of `2^-300`; 0 for the others. -/
def units300 : FpVal → Int
  | .fin s m e => unitsAt s m e (-300)
  | _ => 0

/-- The E2M1X encoder (R21). -/
def encodeE2M1X (vs : List FpVal) : E2M1XBlock :=
  if vs.any (fun v => v.isNan || v.isInf) then ⟨vs.map (fun _ => 0), 0xFF, 0, fNV⟩
  else
    let big := largestAbs (vs.map (fun v => (units300 v).natAbs)) 0 0 0
    if big.2 = 0 then ⟨vs.map (fun _ => 0), 0x7F, 0, 0⟩
    else
      let lg : Int := (bitLen big.2 : Int) - 1 - 300
      let sc : Nat := (max 0 (min 254 (lg - 2 + 127))).toNat
      let down : Int := 127 - (sc : Int)
      let esc := (toFp8 Fmt.e4m3 true ((nth (.fin false 0 0) vs big.1).scale down)).bits
      let ev := units300 (Fmt.e4m3.decode esc)
      let one (v : FpVal) : Nat × FpFlags :=
        let y := v.scale down
        let yu := units300 y
        let c := (toE2M1 true y).bits
        let cv := units300 (decodeE2M1 c)
        let useEsc : Bool := (yu - ev).natAbs < (yu - cv).natAbs
        if useEsc then (8, if ev ≠ yu then fNX else 0) else (c, if cv ≠ yu then fNX else 0)
      let rs := vs.map one
      let uf : Bool := sc = 0 ∧ (vs.zip rs).any (fun p => !p.1.isZero && p.2.1 == 0)
      ⟨rs.map Prod.fst, sc, esc, rs.foldl (fun f r => f ||| r.2) (if uf then fUF else 0)⟩

end Sys2Proof.Machine
end

