-- ==== Sys2Proof/Machine/Flags.lean ====
section
/-! DEFINITION. Machine/Flags.lean: integer results, comparison conditions, predicate combination, and which trap
code an enabled floating flag takes (R34, R87 to R97). -/

namespace Sys2Proof.Machine

/-! ### INT.A, INT.B (R87, R88) -/

def intMulh (a b : Word) : Word := BitVec.ofInt 32 ((a.toInt * b.toInt) / 4294967296)
def intMulhu (a b : Word) : Word := BitVec.ofNat 32 (a.toNat * b.toNat / 4294967296)
/-- Shift amounts are B[4:0]. -/
def shAmt (b : Word) : Nat := b.toNat % 32
def intShl (a b : Word) : Word := a <<< shAmt b
def intShr (a b : Word) : Word := a >>> shAmt b
def intSar (a b : Word) : Word := a.sshiftRight (shAmt b)
def intMin (a b : Word) : Word := if a.toInt ≤ b.toInt then a else b
def intMax (a b : Word) : Word := if a.toInt ≤ b.toInt then b else a
def intMinu (a b : Word) : Word := if a.toNat ≤ b.toNat then a else b
def intMaxu (a b : Word) : Word := if a.toNat ≤ b.toNat then b else a

/-- A signed value clamped to 32 bits. -/
def clampS32 (x : Int) : Word := BitVec.ofInt 32 (max (-2147483648) (min 2147483647 x))
/-- An unsigned value clamped to 32 bits. -/
def clampU32 (x : Int) : Word := BitVec.ofInt 32 (max 0 (min 4294967295 x))

def intAddsat (a b : Word) : Word := clampS32 (a.toInt + b.toInt)
def intSubsat (a b : Word) : Word := clampS32 (a.toInt - b.toInt)
def intAddsatu (a b : Word) : Word := clampU32 ((a.toNat : Int) + b.toNat)
def intSubsatu (a b : Word) : Word := clampU32 ((a.toNat : Int) - b.toNat)
/-- DIV truncates towards zero; a zero divisor gives all ones, the overflow case wraps (R88). -/
def intDiv (a b : Word) : Word := if b = 0 then BitVec.allOnes 32 else BitVec.ofInt 32 (a.toInt.tdiv b.toInt)
def intDivu (a b : Word) : Word := if b = 0 then BitVec.allOnes 32 else BitVec.ofNat 32 (a.toNat / b.toNat)
def intRem (a b : Word) : Word := if b = 0 then a else BitVec.ofInt 32 (a.toInt.tmod b.toInt)
def intRemu (a b : Word) : Word := if b = 0 then a else BitVec.ofNat 32 (a.toNat % b.toNat)
def intPopc (a : Word) : Word := BitVec.ofNat 32 (popCount 32 a.toNat)
def intClz (a : Word) : Word := BitVec.ofNat 32 (32 - bitLen a.toNat)
/-- Trailing zeros, at most `k`. -/
def trailingZeros : Nat → Nat → Nat
  | 0, _ => 0
  | k + 1, x => if x % 2 = 1 then 0 else 1 + trailingZeros k (x / 2)
def intCtz (a : Word) : Word := BitVec.ofNat 32 (trailingZeros 32 a.toNat)
/-- The low `k` bits in reverse order, before `acc`. -/
def reverseBits : Nat → Nat → Nat → Nat
  | 0, _, acc => acc
  | k + 1, x, acc => reverseBits k (x / 2) (2 * acc + x % 2)
def intBrev (a : Word) : Word := BitVec.ofNat 32 (reverseBits 32 a.toNat 0)
def intAbs (a : Word) : Word := if a.toInt < 0 then -a else a
def intAbsdiff (a b : Word) : Word := BitVec.ofNat 32 (a.toInt - b.toInt).natAbs

/-! ### INT.W (R89, R90) -/

def wShl (a : Dword) (b : Word) : Dword := a <<< (b.toNat % 64)
def wShr (a : Dword) (b : Word) : Dword := a >>> (b.toNat % 64)
def wSar (a : Dword) (b : Word) : Dword := a.sshiftRight (b.toNat % 64)
def wMul (a b : Word) : Dword := BitVec.ofInt 64 (a.toInt * b.toInt)
def wMulu (a b : Word) : Dword := BitVec.ofNat 64 (a.toNat * b.toNat)
/-- ADDW and the LEA forms: the zero-extended index times `k`. -/
def wLea (k : Nat) (a : Dword) (b : Word) : Dword := a + BitVec.ofNat 64 (b.toNat * k)
def wAddws (a : Dword) (b : Word) : Dword := a + b.signExtend 64

/-! ### Immediate forms (R91 to R93) -/

def sext10 (i : BitVec 10) : Word := i.signExtend 32
def zext10 (i : BitVec 10) : Word := i.setWidth 32
def intRoli (a : Word) (n : BitVec 5) : Word := a.rotateLeft n.toNat
def intMovhi (old : Word) (i : BitVec 16) : Word := i ++ old.setWidth 16

/-! ### Conditions (R94, R95) -/

/-- ICMP's condition; the codes 12 to 15 are no instruction (R49). -/
def icmpCond (f : Nat) (a b : Word) : Bool :=
  match f with
  | 0 => a == b
  | 1 => a != b
  | 2 => a.toInt < b.toInt
  | 3 => a.toInt ≤ b.toInt
  | 4 => b.toInt < a.toInt
  | 5 => b.toInt ≤ a.toInt
  | 6 => a.toNat < b.toNat
  | 7 => a.toNat ≤ b.toNat
  | 8 => b.toNat < a.toNat
  | 9 => b.toNat ≤ a.toNat
  | 10 => (a &&& b) != 0
  | _ => (a &&& b) == 0

/-- How a condition is combined into the predicate: SET, AND, OR, SETN (R94). -/
def combine (k : Nat) (old c : Bool) : Bool :=
  match k with
  | 0 => c
  | 1 => old && c
  | 2 => old || c
  | _ => !c

/-- FCMP's condition and its flags: NV for a signalling NaN, or for any NaN in an ordered comparison (R95). -/
def fcmpCond (f : Nat) (x y : Word) : Bool × FpFlags :=
  let a := Fmt.fp32.decode x.toNat
  let b := Fmt.fp32.decode y.toNat
  let un := a.isNan || b.isNan
  let lt := a.lt b
  let gt := b.lt a
  let eq := !lt && !gt
  let c :=
    match f with
    | 0 => !un && eq
    | 1 => un || !eq
    | 2 => !un && lt
    | 3 => !un && (lt || eq)
    | 4 => !un && gt
    | 5 => !un && (gt || eq)
    | 6 => un
    | _ => !un
  let nv := if 2 ≤ f ∧ f ≤ 5 then un else a.isSignalling || b.isSignalling
  (c, if nv then fNV else 0)

/-- TCAUSE of the lowest-numbered enabled flag raised: NV 0x10, DZ 0x11, OF 0x12, UF 0x13, NX 0x14 (R34). -/
def fpCause (f : FpFlags) : Nat :=
  if f.getLsbD 0 then 0x10 else if f.getLsbD 1 then 0x11 else if f.getLsbD 2 then 0x12
  else if f.getLsbD 3 then 0x13 else 0x14

/-! ### Atomic results (R186, R187) are in Machine/Atomic.lean; HALF (R103) and the packed conversions (R105) follow. -/

/-- One HALF operation on both elements of packed words (R103). -/
def halfOp (bf : Bool) (op : Nat) (c : FpCtx) (a b d : Word) : FpOut :=
  let f := if bf then Fmt.bf16 else Fmt.fp16
  let one (i : Nat) : FpOut :=
    let x := f.operand c (bits a.toNat (16 * i + 15) (16 * i))
    let y := f.operand c (bits b.toNat (16 * i + 15) (16 * i))
    let z := f.operand c (bits d.toNat (16 * i + 15) (16 * i))
    match op with
    | 0 => f.add c x y
    | 1 => f.sub c x y
    | 2 => f.mul c x y
    | _ => f.fma c false false x y z
  let l := one 0
  let h := one 1
  ⟨h.bits * 65536 + l.bits, l.flags ||| h.flags⟩

/-- PKH and PKB (R105). -/
def packHalves (f : Fmt) (c : FpCtx) (a b : Word) : FpOut :=
  let l := f.convert c (Fmt.fp32.decode a.toNat)
  let h := f.convert c (Fmt.fp32.decode b.toNat)
  ⟨h.bits * 65536 + l.bits, l.flags ||| h.flags⟩

/-- XTHL, XTHH, XTBL, XTBH (R105): FP32 of half `i`. -/
def extractHalf (f : Fmt) (c : FpCtx) (i : Nat) (a : Word) : FpOut :=
  Fmt.fp32.convert c (f.operand c (bits a.toNat (16 * i + 15) (16 * i)))

/-- A word with `n` bits from bit `lo` replaced. -/
def insertBits (old : Word) (lo n v : Nat) : Word :=
  BitVec.ofNat 32 (old.toNat - bits old.toNat (lo + n - 1) lo * 2 ^ lo + v % 2 ^ n * 2 ^ lo)

end Sys2Proof.Machine
end

