-- ==== Sys2Proof/Machine/State.lean ====
section
/-! DEFINITION. Machine/State.lean: everything the spec gives the module, as plain data, and the state after reset. -/

namespace Sys2Proof.Machine

/-! ### Maps as plain data -/

/-- A map from addresses or numbers to values, in one canonical form: keys strictly rising, no entry equal to the
default `d` that an unlisted key reads as. -/
abbrev Cells (α : Type) := List (Nat × α)

/-- The value at a key; `d` where nothing is listed. -/
def Cells.get {α : Type} (d : α) : Cells α → Nat → α
  | [], _ => d
  | (k, v) :: t, a => if a < k then d else if a = k then v else Cells.get d t a

/-- Write one key, keeping the canonical form: writing the default removes the entry. -/
def Cells.set {α : Type} [DecidableEq α] (d : α) : Cells α → Nat → α → Cells α
  | [], a, v => if v = d then [] else [(a, v)]
  | (k, w) :: t, a, v =>
    if a < k then (if v = d then (k, w) :: t else (a, v) :: (k, w) :: t)
    else if a = k then
      (if v = d then t.dropWhile (fun e => decide (e.1 ≤ a)) else (a, v) :: t)
    else (k, w) :: Cells.set d t a v

/-- Keys strictly rising above `lo`, no entry equal to the default. -/
def Cells.wfFrom {α : Type} [DecidableEq α] (d : α) : Nat → Cells α → Bool
  | _, [] => true
  | lo, (k, v) :: t => decide (lo ≤ k) && decide (v ≠ d) && Cells.wfFrom d (k + 1) t

/-- The canonical form. -/
def Cells.wf {α : Type} [DecidableEq α] (d : α) (m : Cells α) : Bool := Cells.wfFrom d 0 m

/-- A table of records by number: `none` where there is none. -/
abbrev Tab (α : Type) := Cells (Option α)
def Tab.get {α : Type} (t : Tab α) (k : Nat) : Option α := Cells.get none t k
def Tab.set {α : Type} [DecidableEq α] (t : Tab α) (k : Nat) (v : Option α) : Tab α := Cells.set none t k v
/-- Change one record where there is one. -/
def Tab.upd {α : Type} [DecidableEq α] (t : Tab α) (k : Nat) (f : α → α) : Tab α :=
  match Tab.get t k with
  | some v => Tab.set t k (some (f v))
  | none => t
/-- The records, in the order of their numbers. -/
def Tab.list {α : Type} (t : Tab α) : List (Nat × α) := t.filterMap (fun e => e.2.map (fun v => (e.1, v)))

/-! ### Strands, wefts, skeins (R7, R8, R61, R76, R129) -/

/-- What a strand in RENDEZVOUS waits for (R129). -/
inductive Rendez where
  /-- An .all cross-lane instruction and its packet's K (R121 to R128). -/
  | xlane (i : Instr) (k : Word)
  | setw (minCode maxCode : Nat) (low : Bool)
  | slice
  | wsync
  /-- A barrier wait (R275, R278): level, number, the generation it waits to see complete, whether an acquire follows,
  and what then: 0 continue, 1 arrive and continue (ARRIVE), 2 arrive and wait (SYNC). -/
  | barrier (bolt : Bool) (num gen : Nat) (acq : Bool) (stage : Nat)
  /-- A scoped BAR whose rendezvous is over: its acquire waits for the weft's loads, atomics and LDGAs up to this issue
  (R161, R278). -/
  | acquire (upto : Nat)
  deriving DecidableEq, Repr

/-- Why a strand is PARKED (R129). -/
inductive ParkWhy where
  /-- A NACK: the fault record's number, and when it came (R184, R296). -/
  | nack (rec since : Nat)
  /-- A watch entry of the core (R283). -/
  | watch (entry : Nat)
  /-- LAUNCHB waiting for a launch entry (R320). -/
  | launchb
  /-- A fetch NACK (R308). -/
  | fetch (rec since : Nat)
  deriving DecidableEq, Repr

/-- The state of a strand (R129). -/
inductive Status where
  | ready
  /-- PATHWAIT since a moment of the clock (R131). -/
  | pathwait (since : Nat)
  /-- JOINWAIT on the record with this join target (R139). -/
  | joinwait (target : Word)
  | rendezvous (r : Rendez)
  | parked (w : ParkWhy)
  /-- SLEEPING until a moment of the clock (R144). -/
  | sleeping (deadline : Nat)
  /-- TRAPHOLD with its cause, value and pc (R148, R150). -/
  | traphold (cause : Nat) (val pc : Word) (order : Nat)
  | exited
  deriving DecidableEq, Repr

/-- One strand (R61, R76). -/
structure Strand where
  status : Status
  /-- The program counter (R38). -/
  pc : Word
  /-- The access the strand waits on at its pc: a request number (R184). -/
  hold : Option Nat
  /-- v0 to v62. -/
  v : Cells Word
  /-- p0 to p6. -/
  p : Cells Bool
  /-- n0 to n3. -/
  n : Cells (BitVec 20)
  fpflags : FpFlags
  fpmode : BitVec 3
  fptrapen : BitVec 5
  trapvec : Word
  tpc : Word
  tcause : BitVec 8
  tval : Word
  /-- The hidden handler-active bit (R148). -/
  active : Bool
  /-- CLOCKHI's latched word (R80). -/
  clkHi : Option Word
  /-- The timeout left of a WATCH that a save released (R284). -/
  watchLeft : Option Nat
  /-- The on-chip return stack, newest first (R134). -/
  onChip : List Word
  /-- How many return points are spilled (R134). -/
  spilled : Nat
  /-- The vector registers whose word the register file can no longer correct; a write heals one (R367, R369). -/
  bad : Cells Bool
  deriving DecidableEq, Repr

/-- A strand when it starts (R61, R76) at an entry pc. -/
def Strand.start (entry : Word) : Strand :=
  { status := .ready, pc := entry, hold := none, v := [], p := [], n := [], fpflags := 0, fpmode := 0, fptrapen := 0,
    trapvec := 0xFFFFFFFF, tpc := 0, tcause := 0, tval := 0, active := false, clkHi := none,
    watchLeft := none, onChip := [], spilled := 0, bad := [] }

/-- A rejoin record (R138). Masks are lists of strand numbers of the skein. -/
structure Rejoin where
  target : Word
  expected : List Nat
  arrived : List Nat
  /-- The timer: the moment it expires, once a strand has arrived (R139). -/
  deadline : Option Nat
  deriving DecidableEq, Repr

/-- An instruction-buffer entry: the group at a pc (R131). -/
structure BufEntry where
  pc : Word
  since : Nat
  lastIssue : Nat
  /-- The entry reserved for the weft's active slot. -/
  reserved : Bool
  /-- The strands of its group when the entries were last brought up to date. -/
  group : List Nat := []
  deriving DecidableEq, Repr

/-- A weft (R8, R111), named by its skein and its first strand. -/
structure Weft where
  g : Nat
  resliced : Bool
  /-- TMASK0 to TMASK7: bit j for logical lane j. -/
  tmask : Nat
  records : List Rejoin
  /-- When it entered the active set (R130). -/
  activeSince : Option Nat
  entries : List BufEntry
  /-- The clock at which it issued last: it issues one PC in a cycle (R48, R130). -/
  issuedAt : Option Nat
  /-- The clock until which a strand's group is ranked last after a YIELD, by strand (R145). -/
  yielded : Cells Nat
  /-- The strands that are between two words of one chain, and the PC of the chain's next word (R48, R268). -/
  chain : List (Nat × Word)
  /-- For each SLICE that strands wait at, by its PC, when the first arrived (R119). -/
  sliceSince : List (Word × Nat)
  /-- A CPY that found 256 copies in flight, or a CWAIT that waits: its PC, and the request number that was next when it was
  first reached. The weft issues nothing else meanwhile (R219, R225). -/
  solo : Option (Word × Nat)
  /-- A shadow operation the weft waits for (R229, R233): its request number. -/
  shadowWait : Option Nat
  /-- An SPSCRUB the weft waits for (R212). -/
  scrubWait : Bool
  /-- The group whose rebuild the weft waits for after SPRETIRE (R213). -/
  retireWait : Option Nat
  deriving DecidableEq, Repr

/-- A weft as a skein starts or as a regrouping forms it (R117). -/
def Weft.fresh (g : Nat) : Weft :=
  { g := g, resliced := false, tmask := 0, records := [], activeSince := none, entries := [], issuedAt := none, yielded := [], chain := [],
    sliceSince := [], solo := none, shadowWait := none, scrubWait := false, retireWait := none }

/-! ### Requests between cores and homes (R154, R172 to R190) -/

inductive ReqKind where
  | load | ldga | store | atomic | rst | pref
  /-- A return-stack spill or fill (R136). -/
  | spill | fill
  deriving DecidableEq, Repr

/-- Where a request is on its way. -/
inductive ReqStage where
  /-- In the core's write-combining buffer (R167). -/
  | buffered
  /-- In its station's or port's queue, to be sent (R349). -/
  | outbound
  /-- At its home, waiting to be judged or held there (R295). -/
  | atHome
  /-- Waiting for a translation walk at the home (R288). -/
  | walking
  /-- Performed or refused; its reply waits in the home's queue. `hi` is the moment it was performed (R157). -/
  | replied (code : Nat) (hi : Nat)
  /-- The reply has reached the core (R351). -/
  | returned (code : Nat) (hi : Nat)
  /-- Held in the core after a NACK, with the fault record it joined (R183, R296). -/
  | held (code : Nat) (rec : Nat)
  /-- Denied by the home's key check; reported at the waiting instruction (R175, R183). -/
  | denied
  /-- A shadow write discarded after prepare; reported at the waiting instruction (R231). -/
  | shadowBad
  /-- Over the fabric, towards another module (R362). -/
  | remote (port : Nat)
  deriving DecidableEq, Repr

/-- One request of a core (R154, R172). -/
structure Req where
  kind : ReqKind
  core : Nat
  skein : Nat
  /-- First strand of the issuing weft. -/
  weft : Nat
  strand : Nat
  ctx : Nat
  domain : Nat
  gen : Nat
  /-- The context's R and W rights vectors (R175). -/
  rdRights : Nat
  wrRights : Nat
  va : Nat
  /-- Bytes. -/
  size : Nat
  data : List Byte
  /-- Destination register; 63 for none. -/
  reg : Nat
  /-- The size code of a load (R46). -/
  sz : Nat
  /-- The operation of an atomic or RST, its operand and the expected value (R186, R232). -/
  fn : Nat
  opnd : Dword
  expect : Dword
  lvl2 : Bool
  vol : Bool
  pol : Nat
  /-- Issue order on the core: one number for the accesses of one instruction (R154). -/
  seq : Nat
  /-- PMC_PARKS has counted a NACK of its instruction (R183). -/
  counted : Bool
  /-- The clock at issue (R373). -/
  issued : Nat
  pc : Word
  stage : ReqStage
  /-- The old value of an atomic, the flags of an RST (R186, R232). -/
  result : Nat
  /-- The protection key its reply carries (R175). -/
  key : Nat
  /-- The cluster's L1 fill is stopped by an acquire issued meanwhile (R182). -/
  noFill : Bool
  /-- The clock at which it was held on a NACK (R373). -/
  nackAt : Nat
  /-- The L1 group of its core when it issued (R156, R182). -/
  group : Nat
  /-- When a store reached the slice of a fused L1, as a request number: every request below that number was issued before
  (R156); and a number by which it had not. -/
  reached : Option Nat
  unreached : Nat
  /-- The request number that was next when it was performed. -/
  stamp : Nat
  /-- The first store of the write-combining entry it was sent in (R167). -/
  entry : Option Nat
  /-- Its data is sent onward marked poisoned (R368). -/
  bad : Bool := false
  /-- Another strand of its instruction has written its words already (R66). -/
  wrote : Bool := false
  /-- The bytes of the write-combining entry that it carries as one write; 0 for a store that goes alone (R167, R304). -/
  payload : Nat := 0
  /-- Of another module's write, the mask of the bytes that it writes (R362). -/
  mask : Nat := 2 ^ 256 - 1
  deriving DecidableEq, Repr

/-- One write that took effect at a point of visibility: its moment, the byte before and after, the store's core and
issue order (R154, R157), and when it reached its bolt's fused L1 (R156). Core 768 stands for writers that are no core,
769 for a publish. -/
structure HistEntry where
  moment : Nat
  old : Byte
  new : Byte
  core : Nat
  seq : Nat
  reached : Nat
  deriving DecidableEq, Repr

/-- A line in an L1 group, with its domain's generation (R12), the key it was filled with (R175), its retention: 0
`.stream`, 1 normal, 2 `.keep` (R178), and, of a line of another module, its bytes by offset as far as they are known. -/
structure L1Line where
  domain : Nat
  gen : Nat
  line : Nat
  key : Nat
  ret : Nat
  data : Tab Byte
  deriving DecidableEq, Repr

/-- A write-combining entry: one line of a peer module, the bytes written in it by offset, and its stores, oldest first
(R167). -/
structure WcEntry where
  domain : Nat
  line : Nat
  since : Nat
  bytes : Tab Byte
  reqs : List Nat
  deriving DecidableEq, Repr

/-- An entry of a core's reuse table (R68, R72). The key lists the operation, the sources' contents, the old
destination, the predicates and the modes, by content. -/
structure ReuseEntry where
  ctx : Nat
  skein : Nat
  weft : Nat
  key : List (List Nat)
  isLoad : Bool
  scratch : Bool
  /-- The aligned 256-byte region of a load entry. -/
  region : Nat
  /-- The loaded values: lane, register offset, value. -/
  vals : List (Nat × Nat × Word)
  /-- The contents of its result registers (R66, R70). -/
  results : List (List Word)
  /-- Which of the 256 sets it stands in (R13). -/
  set : Nat
  /-- The issue whose replies are still to come: the entry is not yet in the table (R71, R72). -/
  pending : Option Nat
  deriving DecidableEq, Repr

/-- An instruction-cache line: one 16-byte packet's aligned 64 bytes (R308). -/
structure ILine where
  domain : Nat
  gen : Nat
  line : Nat
  data : List Byte
  deriving DecidableEq, Repr

/-- A watch-table entry of a core (R280 to R283): strands of one issue set that watch one word with one condition and
comparand share it. -/
structure Watch where
  skein : Nat
  weft : Nat
  /-- The strands that wait on it, each with its expiry on the clock; `none` for no timeout. -/
  strands : List (Nat × Option Nat)
  ctx : Nat
  domain : Nat
  /-- The domain's generation and the R rights vector when it issued (R12, R175). -/
  gen : Nat
  rights : Nat
  va : Nat
  cond : Nat
  cmp : Word
  reg : Nat
  pc : Word
  /-- 0 on its way to the home, 1 at the home, 2 installed, 3 answered, 4 the answer has reached the core. -/
  stage : Nat
  /-- The answer: a NACK code or 0, its fault record, the word. -/
  code : Nat
  record : Nat
  val : Word
  /-- The moment at which the word was read (R157). -/
  moment : Nat
  /-- The issue it came from (R280). -/
  seq : Nat
  /-- The request number that was next when its home answered (R156). -/
  stamp : Nat := 0
  deriving DecidableEq, Repr

/-! ### Scratchpad banks and selvage (R192 to R214) -/

/-- An open or closed parity-queue entry (R196). -/
structure ParityEntry where
  group : Nat
  row : Nat
  delta : BitVec 128
  complete : Bool
  deriving DecidableEq, Repr

/-- A bank group (R205, R208). -/
structure BankGroup where
  rebuilding : Bool
  /-- RETIRED: 0 none, 1 to 4 a data bank, 5 the selvage bank. -/
  retired : Nat
  offline : Bool
  lost : Nat
  /-- A second failure met during the rebuild (R205). -/
  failed : Bool
  /-- The cause reported with the retirement, and the context that caused it (R206). -/
  cause : Nat
  byCtx : Option Nat
  deriving DecidableEq, Repr

def BankGroup.normal : BankGroup :=
  { rebuilding := false, retired := 0, offline := false, lost := 0, failed := false, cause := 0, byCtx := none }

/-- A core's scratchpad (R192). -/
structure Scratch where
  /-- The 393,216 data bytes by physical address. -/
  data : Cells Byte
  /-- Selvage words, at group × 768 + row. -/
  sel : Cells (BitVec 128)
  queue : List ParityEntry
  groups : Cells BankGroup
  /-- Damage the ECC finds, by data word: 1 single-bit, 2 uncorrectable (R198). -/
  eccData : Cells Nat
  eccSel : Cells Nat
  /-- Poisoned (lost) data words (R199). -/
  poison : Cells Bool
  corr : Nat
  rebuilt : Nat
  retired : Nat
  lost : Nat
  /-- The clocks of the last uncorrectable events of each bank, newest first (R201). -/
  events : Cells (List Nat)
  /-- Banks to retire once the accesses already granted are complete, with the cause and the context (R202). -/
  due : List (Nat × Nat × Option Nat) := []
  /-- The clock by which every access made so far, and the parity updates after it, are over (R192, R197). -/
  busy : Nat := 0
  deriving DecidableEq, Repr

def Scratch.zero : Scratch :=
  { data := [], sel := [], queue := [], groups := [], eccData := [], eccSel := [], poison := [], corr := 0,
    rebuilt := 0, retired := 0, lost := 0, events := [] }

/-! ### Copies and shadows (R215 to R234) -/

/-- A copy in flight (R215, R220, R223). -/
structure Copy where
  core : Nat
  skein : Nat
  weft : Nat
  ctx : Nat
  /-- 0 G2S, 1 S2G, 2 S2S, 3 G2G, 4 S2SM. -/
  kind : Nat
  tag : Nat
  src : Nat
  dst : Nat
  /-- S2SM's peers. -/
  mask : Nat
  /-- The destination is a shadow (SH), of this slot. -/
  shadow : Option Nat
  rowb : Nat
  rows : Nat
  sstr : Nat
  dstr : Nat
  /-- Bytes done, in row and byte order (R220). -/
  done : Nat
  seq : Nat
  /-- Parked on a fault record (R222), and since when. -/
  parked : Option Nat
  parkedAt : Nat
  frozen : Bool
  /-- A shadow write was discarded after prepare (R231). -/
  shadowBad : Bool
  /-- What its own writes replaced in its source, by address (R220). -/
  orig : Tab Byte
  /-- The data of its next chunk is sent onward marked poisoned (R368). -/
  bad : Bool := false
  /-- Its chunk on the Loom (R220, R348): 0 none begun, 1 its reads are under way, 2 its writes, 3 their acknowledgements. -/
  phase : Nat := 0
  /-- Flits of the phase that have not arrived, and the number that this chunk's traffic carries. -/
  waits : Nat := 0
  packet : Nat := 0
  deriving DecidableEq, Repr

/-- The bytes of rows of a global range: first VA, bytes a row, rows, stride (R215). -/
structure Rows where
  lo : Nat
  rowb : Nat
  rows : Nat
  stride : Nat
  deriving DecidableEq, Repr

/-- A retired copy that a CWAIT may still cover: its tag, its issue, its global destination, and whether a shadow write
of it was discarded (R164, R225, R231). -/
structure DoneCopy where
  tag : Nat
  seq : Nat
  dest : Option Rows
  bad : Bool
  deriving DecidableEq, Repr

/-- A CWAIT of a weft that covered a copy: the weft's first strand and width, the bytes, the moment (R157). -/
structure CopyWait where
  weft : Nat
  g : Nat
  dest : Rows
  moment : Nat
  deriving DecidableEq, Repr

/-- A shadow's state (R227). -/
inductive ShState where
  | free | opening | sopen | preparing | committed | failed
  deriving DecidableEq, Repr

/-- One shadow granule at its home: its frame, whose lines may be poisoned (R230, R233, R369). -/
structure ShGranule where
  frame : Nat
  deriving DecidableEq, Repr

/-- A shadow slot of a context (R226 to R233). Destination 0 is the primary, k + 1 replica k. -/
structure Shadow where
  state : ShState
  seq : Nat
  reason : Nat
  arrived : Nat
  base : Nat
  size : Nat
  count : Nat
  zero : Bool
  block : Nat
  replicas : List Nat
  /-- Base generations by destination × 2^43 + granule (R229). -/
  bases : Cells (Option Nat)
  /-- Shadow granules by destination × 2^43 + granule. -/
  granules : Tab ShGranule
  /-- Homes whose answer to the open, or to the prepare, is still to come; 128 stands for other modules. -/
  openWait : List Nat
  /-- The refusals of the homes that have prepared: destination, page, NACK code, reason. -/
  votes : List (Nat × Nat × Nat × Nat)
  /-- When the publish started (R227). -/
  started : Nat
  /-- A SHABORT waits for the outcome (R227). -/
  abortWait : Bool
  deriving DecidableEq, Repr

def Shadow.free : Shadow :=
  { state := .free, seq := 0, reason := 0, arrived := 0, base := 0, size := 0, count := 0, zero := false, block := 0,
    replicas := [], bases := [], granules := [], openWait := [], votes := [], started := 0, abortWait := false }

/-- A weft's shadow operation under way (R229, R233, R234). -/
structure ShdOp where
  /-- 0 SHOPEN, 1 SHPUB, 2 SHABORT, 3 SHSTAT. -/
  kind : Nat
  core : Nat
  skein : Nat
  weft : Nat
  strands : List Nat
  reg : Nat
  ctx : Nat
  slot : Nat
  /-- Each strand's handle, for SHSTAT; then its status word. -/
  vals : List (Nat × Nat)
  /-- The domain and generation that its requests carry (R12). -/
  domain : Nat := 0
  gen : Nat := 0
  /-- Homes that the request has reached. -/
  arrived : List Nat
  /-- 0 on its way, 1 answered and its reply on its way, 2 its reply has reached the core. -/
  stage : Nat
  /-- The answer: 0 done, 1 SHADOW_BAD, 6 an extent that the domain does not own, 0x106 a stale generation. -/
  answer : Nat
  deriving DecidableEq, Repr

/-! ### Tiles and the engine (R235 to R260) -/

/-- An accumulator tile. Checksums and magnitude sums are exact: in units of `2^-300` for an FP tile, of 1 for an INT
tile; `none` is not finite (R252). -/
structure Tile where
  elems : Cells Word
  flags : Cells Bool
  rsum : Cells (Option Int)
  csum : Cells (Option Int)
  rmag : Cells (Option Int)
  cmag : Cells (Option Int)
  /-- The status word (R238). -/
  status : Word
  /-- The correction count. -/
  count : Nat
  deriving DecidableEq, Repr

/-- A tile at the skein's start (R235). -/
def Tile.zero : Tile :=
  { elems := [], flags := [], rsum := [], csum := [], rmag := [], cmag := [], status := 0, count := 0 }

/-- One read of a peer's operand range that several engine operations share: when the first of them asked for it, its bytes,
`none` where a word is lost, and what it counts into PMC_RECON and PMC_STALE of each (R200, R251). -/
structure MergedRead where
  first : Nat
  bytes : Option (List Byte)
  recon : Nat
  stale : Nat
  deriving DecidableEq, Repr

/-- An operation in a core's engine queue (R249). -/
structure EngineOp where
  skein : Nat
  weft : Nat
  /-- 0 MMA, 1 MMAT, 2 MMAS, 3 MZERO, 4 MLOAD, 5 MDRAIN, 6 MCHK. -/
  kind : Nat
  tile : Nat
  /-- Scratch addresses of A (or the TILE range) and B: owning core and physical address. -/
  aCore : Nat
  aAddr : Nat
  bCore : Nat
  bAddr : Nat
  /-- A and B formats, or the drain format. -/
  af : Nat
  bf : Nat
  seq : Nat
  issued : Nat
  started : Option Nat
  /-- Its A read, and its B read, where it is one that other cores share (R251). -/
  readA : Option MergedRead
  readB : Option MergedRead
  /-- Whether A, and B, is reached through the bolt window, by the skein's own peer number also (R174, R251). -/
  winA : Bool := false
  winB : Bool := false
  /-- Whether the owning core has begun its read of A, and of B, so that no other core joins it any more (R251). -/
  begunA : Bool := false
  begunB : Bool := false
  deriving DecidableEq, Repr

/-! ### Kernels, bolts, barriers, skeins (R235, R261 to R279, R306) -/

/-- What a code-object header gives the running skein (R306). -/
structure Kernel where
  minor : Nat
  /-- CMPL's level, 2 or 3 (R35). -/
  level : Nat
  vregs : Nat
  tiles : Nat
  rstack : Nat
  scratch : Nat
  strands : Nat
  minCode : Nat
  maxCode : Nat
  rigid : Bool
  cosched : Bool
  /-- 0 none, 1 idempotent, 2 shadowonly (R273). -/
  relaunch : Nat
  entry : Word
  /-- VA of the code object and bytes of its code section. -/
  base : Nat
  codeSize : Nat
  dataOff : Nat
  argSize : Nat
  deriving DecidableEq, Repr

/-- A barrier: its generation and the strands whose arrival is pending, as skein × 1024 + strand (R275). -/
structure Barrier where
  gen : Nat
  pend : List Nat
  deriving DecidableEq, Repr
def Barrier.start : Barrier := ⟨0, []⟩

/-- The state of a bolt (R267). -/
inductive BoltState where
  | pending | running | halting | saved | killed | retired
  deriving DecidableEq, Repr

/-- A bolt (R7, R267). -/
structure Bolt where
  ctx : Nat
  /-- The launch, and its entry in the pending-launch store. -/
  launch : Nat
  lslot : Nat
  index : Nat
  bale : Nat
  state : BoltState
  /-- Skein numbers in peer order. -/
  skeins : List Nat
  nskein : Nat
  /-- The core that its skein 0 is on, or was on last (R331). -/
  lead : Nat
  /-- The cores that its skeins were put on last: no other skein comes to those of a fused bolt while it lives (R262). -/
  cores : List Nat
  fused : Bool
  dirty : Bool
  watchdog : Nat
  relaunches : Nat
  bars : Cells Barrier
  /-- Handles of the shadows the bolt wrote, in any of its runs (R273). -/
  shadows : List Nat
  deriving DecidableEq, Repr

/-- A skein (R7), resident or saved. -/
structure Skein where
  ctx : Nat
  bolt : Nat
  index : Nat
  /-- The core it is on; `none` while saved. -/
  core : Option Nat
  kern : Kernel
  nstrand : Nat
  nbolt : Nat
  nbale : Nat
  args : Nat
  /-- Base of its scratch allocation in bytes (R192). -/
  scrBase : Nat
  /-- Weft slots reserved, V and as a mask (R114). -/
  wslots : Nat
  /-- Core tiles given, ascending. -/
  coreTiles : List Nat
  prio : Nat
  /-- The partition's width cap as a code (R114). -/
  cap : Nat
  /-- VA of its return-stack block (R135). -/
  rsBlock : Option Nat
  jtimeout : Nat
  /-- DBGSEL (R328). -/
  dbgSel : Nat
  strands : Tab Strand
  /-- Wefts by their first strand. -/
  wefts : Tab Weft
  bars : Cells Barrier
  tiles : Cells Tile
  /-- PMC_ISSUE (0) to PMC_UNIF (9) (R79). -/
  pmc : Cells Nat
  /-- Moments of the last acquire, by strand (R157, R161). -/
  acqs : Cells Nat
  cwaits : List CopyWait
  /-- Its retired copies. -/
  doneCopies : List DoneCopy
  copyFrozen : Bool
  /-- The scratch contents of a saved skein (R214). -/
  savedScratch : Cells Byte
  /-- The saved ABFTINJ (R260). -/
  savedInj : Option Word
  deriving DecidableEq, Repr

/-- A slot of a core's slot table (R263, R264). Status: 0 empty, 1 BOUND, 2 REFUSED. -/
structure BindSlot where
  words : List Word
  status : Nat
  skein : Option Nat
  deriving DecidableEq, Repr

/-- A core (R13). -/
structure CoreSt where
  /-- Working lane quads (R112). -/
  quads : Nat
  offline : Bool
  /-- The number of the core's latest instruction that makes accesses (R154). -/
  issueSeq : Nat
  scratch : Scratch
  engine : List EngineOp
  /-- ABFTINJ, and the skein whose strand wrote it (R256). -/
  abftinj : Word
  abftSkein : Nat
  wc : List WcEntry
  reuse : List ReuseEntry
  icache : List ILine
  watches : Tab Watch
  slots : Tab BindSlot
  /-- Moment of the latest performed load of a location, by domain × 2^57 + VA (R157). -/
  lastLoad : Cells Nat
  deriving DecidableEq, Repr

def CoreSt.reset : CoreSt :=
  { quads := 4, offline := false, issueSeq := 0, scratch := Scratch.zero, engine := [], abftinj := 0,
    abftSkein := 0, wc := [], reuse := [], icache := [], watches := [], slots := [], lastLoad := [] }

/-! ### Homes, translation, faults (R285 to R305) -/

/-- An ownership-map entry that is VALID (R289). -/
structure Extent where
  withdrawing : Bool
  shared : Bool
  /-- The owning domain or the share group. -/
  domain : Nat
  deriving DecidableEq, Repr

/-- A share group: its translating domain and its members with their R, W, X masks (R289). -/
structure ShareGroup where
  translating : Nat
  members : List (Nat × Nat)
  deriving DecidableEq, Repr

/-- A present stage-2 entry (R294). -/
structure Stage2 where
  frame : Nat
  tier : Nat
  cmp : Bool
  poison : Bool
  w : Bool
  deriving DecidableEq, Repr

/-- A granule's stage-1 result: rights (R bit 0, W bit 1, X bit 2), key, DFN (R288, R292). -/
structure Attr where
  rights : Nat
  key : Nat
  dfn : Nat
  cmpOk : Bool
  tier : Nat
  deriving DecidableEq, Repr

/-- An entry of a home's translation cache: one granule's stage-1 and stage-2 result (R288). -/
structure Cached where
  attr : Attr
  s2 : Stage2
  /-- It can no longer be corrected (R367). -/
  bad : Bool := false
  deriving DecidableEq, Repr

/-- A line in the L2: its domain's generation, the attributes it was filled with, its retention (R178), and which of its
four 64-byte sectors it holds and which of them are dirty, as masks (R288). -/
structure L2Line where
  domain : Nat
  gen : Nat
  line : Nat
  attr : Attr
  s2w : Bool
  ret : Nat
  sectors : Nat
  dirty : Nat
  /-- An error has struck it that its check cannot correct: its loss is charged when it is written back (R367, R370). -/
  bad : Bool := false
  deriving DecidableEq, Repr

/-- The state of a present granule at its home (R300). -/
inductive GranState where
  | mapped
  /-- Moving to a frame of a tier. -/
  | moving (frame tier : Nat)
  | recoding (cmp : Bool)
  /-- XREVOKING, with the clusters whose filters have still to acknowledge. -/
  | xrevoking (waiting : List Nat)
  /-- PREPARED for the publish of a context's shadow slot. -/
  | prepared (ctx slot : Nat)
  deriving DecidableEq, Repr

/-- A command waiting for its granule to be MAPPED again (R300). -/
inductive GranCmd where
  /-- To a frame, of the tier named (TIERMOVE) or of the granule's own (MIGRATE). -/
  | move (frame : Nat) (tier : Option Nat)
  | recode (cmp : Bool)
  | protect
  deriving DecidableEq, Repr

/-- A fault record (R296, R297). -/
structure FaultRec where
  home : Nat
  ctx : Nat
  granule : Nat
  code : Nat
  flags : Nat
  clock : Nat
  partition : Nat
  va : Nat
  core : Nat
  joined : Nat
  domain : Nat
  dfn : Nat
  tag : Nat
  skein : Nat
  /-- To the secure manager rather than the domain's fault queue. -/
  toSm : Bool
  delivered : Bool
  /-- The other modules that hold a requester parked under it (R298). -/
  remotes : List Nat
  deriving DecidableEq, Repr

/-- A translation walk in progress at a home: the home, the granule's translating domain and VA (R288). -/
structure Walk where
  home : Nat
  domain : Nat
  va : Nat
  deriving DecidableEq, Repr

/-- A fetch of a cluster instruction cache (R308). -/
structure Fetch where
  core : Nat
  cluster : Nat
  ctx : Nat
  domain : Nat
  gen : Nat
  line : Nat
  /-- Strands waiting: skein, strand. -/
  waiting : List (Nat × Nat)
  /-- The judgement at the home: `none` before it; a NACK code or 0, and the record. -/
  answer : Option (Nat × Nat)
  /-- 0 on its way to the home, 1 at the home, 2 waiting for a walk, 3 answered, 4 the reply is at the cluster. -/
  stage : Nat
  /-- The line's 64 bytes. -/
  data : List Byte
  deriving DecidableEq, Repr

/-- A rate limiter's bucket: its tokens in seventeenths of a byte, and the clock of the last refill (R304, R305). -/
structure Limiter where
  tokens : Nat
  last : Nat
  deriving DecidableEq, Repr

/-! ### Launches, contexts, partitions (R306 to R339) -/

/-- Where a launch record is. -/
inductive LaunchState where
  /-- In the pending-launch store, not admitted. -/
  | stored
  /-- In the context's overflow ring (R312). -/
  | ring
  /-- Admitted, waiting for START (R317). -/
  | heldSpan
  /-- Handed to the scheduler firmware. -/
  | admitted
  deriving DecidableEq, Repr

/-- A launch record taken (R310, R311). -/
structure Launch where
  ctx : Nat
  state : LaunchState
  lslot : Nat
  order : Nat
  /-- When it was found eligible, as a record number (R266). -/
  eligible : Nat
  kernVa : Nat
  kern : Kernel
  args : Nat
  nbolt : Nat
  nskein : Nat
  prio : Nat
  fuse : Bool
  span : Bool
  spanList : List Nat
  sgen : Nat
  /-- 256-bit masks (R313). -/
  wait : Nat
  set : Nat
  clear : Nat
  /-- READY tokens the coordinator holds (R317). -/
  ready : List Nat
  /-- Skeins triggered: bolt × 8 + skein (R315). -/
  triggered : List Nat
  setDone : Bool
  /-- Submitted by a kernel: it runs at U privilege (R319). -/
  device : Bool
  /-- Bolts retired, by index. -/
  retired : List Nat
  deriving DecidableEq, Repr

inductive CtxState where
  | free | building | ready | running | preempting | saved | spilled | faulted | draining | dead
  deriving DecidableEq, Repr

/-- A context (R326 to R330). -/
structure Context where
  state : CtxState
  partition : Nat
  domain : Nat
  /-- true: S privilege. -/
  priv : Bool
  /-- Event vector, 256 bits. -/
  ev : Nat
  /-- Key rights: bit 0 R, bit 1 W, by key (R329). -/
  keys : Cells Nat
  gen : Nat
  /-- By PRIO, the number above the command queue taken from last; 0 before the first (R345). -/
  lastQueue : Cells Nat
  tolexp : Nat
  wdexp : Nat
  ringVa : Nat
  ringSize : Nat
  /-- Records written to the overflow ring so far (R312). -/
  ringTail : Nat
  poolVa : Nat
  poolSize : Nat
  /-- Return-stack blocks given: offset in the pool, bytes, and the skein as bolt × 8 + index (R135). -/
  blocks : List (Nat × Nat × Nat)
  shadows : Tab Shadow
  /-- Key-table changes on their way to the other cores, oldest first: core, key, the rights the core still holds, the
  clock by which the change applies (R329). -/
  keyWait : List (Nat × Nat × Nat × Nat)
  /-- DESTROY came while the context was PREEMPTING (R327). -/
  destroyWait : Bool
  /-- Its image: bytes in each quadrant's store, and the clock from which it shares the store (R332). -/
  image : Cells Nat
  sharedSince : Option Nat
  /-- Spilling since (R332). -/
  spilling : Option Nat
  /-- Selected for restore since (R333). -/
  restoring : Option Nat
  /-- The cores its skeins resume on: skein, core. -/
  resumeOn : List (Nat × Nat)
  deriving DecidableEq, Repr

/-- A partition (R321 to R324). -/
structure Partition where
  ready : Bool
  quads : List Nat
  domain : Nat
  settings : PartSettings
  /-- CLOCK at CARVE (R336). -/
  carved : Nat
  /-- The eleven meters of R335. -/
  meters : Cells Nat
  interval : Nat
  intervalStart : Nat
  prevLeaf : List Byte
  /-- A pre-emption under way: the clock of the request (R268, R334). -/
  preempt : Option Nat
  /-- When the last core halted. -/
  haltedAt : Option Nat
  /-- The contexts it pre-empts, and whether they are restored afterwards (PARTSET). -/
  preempting : List Nat
  restoreAfter : Bool
  /-- 8 µs have passed since the request (R268). -/
  abandoned : Bool
  /-- Of the pre-emption under way: the contexts saved, the quadrants that did not fit, the largest image (R334). -/
  savedCtxs : List Nat
  misfit : Nat
  largest : Nat
  /-- Free bytes of each quadrant's shadow store for the save of a pre-emption under way (R332). -/
  room : Cells Nat
  /-- Rate-limiter state by point: clusters 0 to 95, fabric 96, CXL 97. -/
  limiters : Tab Limiter
  /-- UNCARVE is under way; its last interval has closed, and its fixed queues close (R324). -/
  closing : Bool
  counted : Bool
  /-- Settings and extents that a PARTSET writes once its contexts are saved (R324). -/
  pending : Option (PartSettings × List (Nat × Nat) × List (Nat × Nat))
  deriving DecidableEq, Repr

/-! ### Queues (R340 to R346) -/

inductive QState where
  | closed | qopen | active | stalled | draining | error
  deriving DecidableEq, Repr

/-- A queue (R340, R341). Kind: 0 command, 1 system, 2 fault, 3 event. -/
structure Queue where
  kind : Nat
  state : QState
  err : Nat
  lost : Nat
  /-- Its context (command), its domain's first context otherwise; domain; partition. -/
  ctx : Nat
  domain : Nat
  partition : Nat
  base : Nat
  l : Nat
  prio : Nat
  head : Nat
  tail : Nat
  /-- Records waiting for room (event queue), oldest first. -/
  waiting : List (List Byte)
  /-- A dropped record marks the next one (R346). -/
  marked : Bool
  /-- The record whose write failed (R345). -/
  failed : Option (List Byte)
  /-- The counts of commands that will not be taken: each is still to complete with STATUS 5 (R345). -/
  drops : List Nat := []
  /-- How many counts from the head on will not be taken: the head counts records taken, and stays (R341, R342). -/
  dropped : Nat := 0
  deriving DecidableEq, Repr

/-- A command taken and not completed: its queue (2^32 for the management port, 2^32 + 1 for the scheduler mailbox), its
record's fields, what it waits for, and, once its effect is over, the status and result still to be written. -/
structure PendCmd where
  queue : Nat
  tag : Nat
  caddr : Nat
  opcode : Nat
  /-- Context, partition or granule it concerns. -/
  subject : Nat
  done : Option (Nat × Nat)
  /-- The walks, in progress when it was taken, that it waits for (R299). -/
  waits : List Payload := []
  deriving DecidableEq, Repr

/-- What the secure manager returns to the management port (`port`) or the scheduler mailbox: status and bytes. -/
structure MgmtAnswer where
  port : Bool
  status : Nat
  data : List Byte
  deriving DecidableEq, Repr

/-! ### The Loom, the fabric, reliability, the device (R347 to R377, R404 to R410) -/

/-- A lane map (R350): the wavelengths that the holder drives, 0 to 16, as a mask, and the lane that the shadow carries. -/
structure LaneMap where
  mask : Nat
  onShadow : Option Nat
  deriving DecidableEq, Repr

/-- Every wavelength, each lane on its own. -/
def LaneMap.full : LaneMap := { mask := 2 ^ 17 - 1, onShadow := none }

/-- A channel's token (R350): the station that holds it, and the map that it brings the receiver. A holder of 255 is none. -/
structure Token where
  holder : Nat
  map : LaneMap
  deriving DecidableEq, Repr
def Token.start : Token := { holder := 255, map := LaneMap.full }

/-- What a receiver has measured of a wavelength (R353): the bits received, and at which of them, newest first, the line code
corrected one. -/
structure RxWave where
  bits : Nat
  fixed : List Nat
  /-- It is found weak, and the station has been told. -/
  told : Bool := false
  deriving DecidableEq, Repr
def RxWave.fresh : RxWave := { bits := 0, fixed := [] }

/-- A flit in a station's replay buffer (R352). -/
structure Flit where
  seq : Nat
  /-- TYPE: 1 request, 2 exempt class, 3 link control. -/
  type : Nat
  payload : Payload
  /-- The clock it was last sent; `none` once marked for resending. -/
  sent : Option Nat
  /-- How often it failed in a row (R352). -/
  fails : Nat
  /-- The ACK field: the last SEQ delivered on the reverse path (R349, R351). -/
  ack : Nat
  /-- The 64 payload bytes, whose packing the spec leaves open (R349; log 26). -/
  bytes : List Byte := []
  /-- The lane map of the hold that it was last sent in (R350). -/
  map : LaneMap := LaneMap.full
  deriving DecidableEq, Repr

/-- The state of a data wavelength (R354). -/
inductive WaveState where
  | carrying
  | recal (since : Nat)
  | retrain (tries : Nat)
  | retired
  | dark
  deriving DecidableEq, Repr

/-- The state of a shadow wavelength (R354): which lane it lends to, or calibrating since after handing one back. -/
inductive ShadowWave where
  | standby
  | lending (lane : Nat)
  | calibrating (lane since : Nat)
  | dark
  deriving DecidableEq, Repr

/-- A station link, numbered channel × 256 + station (R352, R354, R360). -/
structure Link where
  waves : Cells WaveState
  shadow : ShadowWave
  /-- The next wavelength of the rotation. -/
  rotation : Nat
  /-- At the next hold: the lane that moves to the shadow, with the cause and the corrected bits of a weak one (cause 0
  for a rotation); whether the lane on the shadow returns. -/
  toShadow : Option (Nat × Nat × Nat)
  back : Bool
  nextSeq : Nat
  /-- Replay buffer, oldest first (R352). -/
  buffer : List Flit
  /-- Traffic waiting to be sent, oldest first, by type. -/
  outq : List (Nat × Payload)
  /-- The receiver's expected SEQ (R351). -/
  expect : Nat
  /-- Flits on the waveguide, not decoded yet. -/
  flying : List Flit
  replays : Nat
  swaps : Nat
  fault : Bool
  /-- A NAK that the token line brings to the station (R351). -/
  nak : Bool
  /-- Weak wavelengths that wait for the shadow, with cause and corrected bits (R354). -/
  weakWait : List (Nat × Nat × Nat)
  /-- What the receiver has measured, by wavelength (R353). -/
  rx : Cells RxWave
  /-- Weak wavelengths that the token line brings to the station (R350, R353). -/
  reports : List (Nat × Nat × Nat)
  /-- Since when the station has waited for the token (R373). -/
  since : Option Nat := none
  deriving DecidableEq, Repr

def Link.fresh : Link :=
  { waves := [], shadow := .standby, rotation := 0, toShadow := none, back := false, nextSeq := 0, buffer := [], outq := [], expect := 0, flying := [],
    replays := 0, swaps := 0, fault := false, nak := false, weakWait := [],
    rx := [], reports := [] }

/-- A fabric port (R362 to R365). -/
structure Port where
  up : Bool
  extended : Bool
  /-- The lane that the shadow lane carries, and its failed retrains. -/
  shadowLane : Option Nat
  tries : Nat
  lost : List Nat
  downSince : Option Nat
  /-- Trained again while down. -/
  trained : Bool
  /-- Since when the shadow lane calibrates itself after handing a lane back, and the weak lanes that wait for it (R354, R363). -/
  calibrating : Option Nat := none
  weakWait : List Nat := []
  /-- What the receiver has measured, by lane (R353). -/
  rx : Cells RxWave := []
  deriving DecidableEq, Repr

def Port.reset : Port :=
  { up := false, extended := false, shadowLane := none, tries := 0, lost := [], downSince := none, trained := false }

/-- A capture unit, numbered quadrant × 32 + unit (R373, R374). -/
structure Capture where
  cfg : Word
  min : Nat
  max : Nat
  bins : Cells Nat
  /-- When it sampled last (R373). -/
  sampled : Option Nat := none
  deriving DecidableEq, Repr

def Capture.reset : Capture := { cfg := 0, min := 0, max := 0, bins := [] }

/-- The secure manager, the management port and the boot (R336 to R339, R404 to R410). -/
structure Device where
  /-- The bring-up step under way: 0 in reset, 1 to 5; 6 accepts CARVE (R409). -/
  bootStep : Nat
  bootFailed : Bool
  bootLog : List (List Byte)
  provision : Bool
  provisionUsed : Bool
  /-- Non-volatile: the operator's public key and the last accepted sequence number (R408). -/
  opKey : Option (List Byte)
  opSeq : Nat
  /-- The number of the usage key that this boot's records are signed with, and its certificate (R338). -/
  usageKey : Nat
  cert : List Byte
  /-- Module-wide record sequence (R336). -/
  recSeq : Nat
  /-- The record ring: signed usage and health records (marked true) and host-complex events (R336, R346, R377). -/
  ring : List (Bool × List Byte)
  limit : Nat
  draw : Nat
  /-- Cycles are being withheld (R405). -/
  withhold : Bool
  linkcfg : Word
  lsel : Word
  healthth : Word
  /-- Passed mask of R376, and whether REPLACE_REQUEST stands. -/
  passed : Nat
  replace : Bool
  lquadsRetired : Nat
  /-- What bring-up meets, while it is under way (R409). -/
  boot : Option BootArgs := none
  /-- Dark comb sources (R355, R356), and those of them that were dark at reset (R407). -/
  darkSources : List Nat
  darkAtReset : List Nat := []
  /-- Frozen host-core contexts (R371). -/
  frozenHosts : List Nat
  /-- What has been returned to the operator and the scheduler, oldest first (R324, R408). -/
  answers : List MgmtAnswer
  deriving DecidableEq, Repr

def Device.reset : Device :=
  { bootStep := 0, bootFailed := false, bootLog := [], provision := false, provisionUsed := false, opKey := none,
    opSeq := 0, usageKey := 0, cert := [], recSeq := 0, ring := [], limit := 4400, draw := 0, withhold := false, linkcfg := 0xC3080000, lsel := 0,
    healthth := 0x10840204, passed := 0, replace := false, lquadsRetired := 0, darkSources := [], frozenHosts := [],
    answers := [] }

/-! ### The whole module -/

/-- A pool extent being withdrawn, or released since (R302): its pool base, its frames, since when, its granules and dirty
lines. -/
structure Withdrawal where
  base : Nat
  frame : Nat
  count : Nat
  since : Nat
  granules : Nat
  dirty : Nat
  /-- The partitions that had a granule on it, and the requests in flight to it. -/
  parts : List Nat
  inflight : List Payload
  /-- It has been given back to the fabric manager: none of its frames is the module's any more. -/
  released : Bool
  deriving DecidableEq, Repr

/-- A write of a shadow block or of a launch ring's record that its home owes: the bytes at a VA, under the domain, generation
and W rights of its context; it is made once its granule is no longer held (R229, R233, R300, R312). -/
structure OwedWrite where
  ctx : Nat
  /-- The VA of the block or record it is part of, whose writes are made in order. -/
  part : Nat
  domain : Nat
  gen : Nat
  rights : Nat
  va : Nat
  data : List Byte
  deriving DecidableEq, Repr

/-- What the homes hold together (R288 to R303). Keys: `domain × 2^43 + granule` for a granule of a domain (granule =
VA / 16,384), `domain × 2^36 + DFN` for stage 2, `frame × 16,384 + offset` for memory. -/
structure Homes where
  /-- The bytes of the physical frames. -/
  mem : Cells Byte
  /-- The writes that took effect, newest first, by domain × 2^57 + VA (R157). -/
  hist : Cells (List HistEntry)
  /-- Memory lines reported poisoned, by frame × 64 + line (R369). -/
  poisonLines : Cells Bool
  /-- Bytes rewritten since their line was poisoned (R294, R369). -/
  rewritten : Cells Bool
  ownership : Tab Extent
  groups : Tab ShareGroup
  gens : Cells Nat
  /-- Stage-1 root DFN by domain × 1,024 + module (R291). -/
  roots : Tab Nat
  /-- The homes a domain's distribution table names in turn (R287), and entries changed since. -/
  tableHomes : Tab (List Nat)
  tableOver : Cells Nat
  stage2 : Tab Stage2
  /-- The translation caches, by granule (R288, R299). -/
  attrs : Tab Cached
  l2 : List L2Line
  /-- The cached translations that stand as victims in a way of an L2 set, by granule: the set (R288). -/
  victims : Tab Nat
  /-- How many lines have been filled since the homes last made room for them (R288). -/
  filled : Nat
  /-- Writes of shadow blocks and launch rings that wait, oldest first (R233, R312). -/
  owed : List OwedWrite
  gran : Cells GranState
  granCmds : Cells (List GranCmd)
  /-- Completions of the secure manager's commands on granules, oldest first: the granule, the command, and whether it took
  effect (R299, R300). -/
  granDone : List (Nat × GranCmd × Bool)
  /-- Bytes moved at the memory that no meter has counted yet, by domain × 2 + tier (R335). -/
  moved : Cells Nat
  /-- Publish generations by granule (R229). -/
  pubGen : Cells Nat
  walks : List (Walk × Payload)
  faultRecs : Tab FaultRec
  faultSeq : Cells Nat
  /-- Shadow frames free at each home; free pool frames (R230). -/
  shadowFrames : Cells (List Nat)
  poolFrames : List Nat
  /-- Pool extents withdrawn, by the fabric manager's identifier (R302). -/
  withdrawals : Tab Withdrawal
  /-- Instruction lines of each cluster cache, and its filter's granules (R308, R309). -/
  icache : Cells (List ILine)
  filter : Cells (List Nat)
  deriving DecidableEq, Repr

/-- A shadow write as it is forwarded to replicas (R230, R232): an RST's step with its operand, or the bytes of a copy. -/
inductive ShadowWrite where
  | rst (lvl2 : Bool) (fn : Nat) (opnd : Word)
  | bytes (data : List Byte)
  deriving DecidableEq, Repr

/-- What leaves through the fabric ports for another module: the answer to a request of it (its tag, a NACK code or 0, a fault
record, the page's key, the bytes), a wake packet, a release of a replayed record, the tokens of spanned launches, and of a
publish the forward of a shadow write at a primary VA, the prepare, the vote with its refusals, the commit or the abort (R230,
R233, R298, R317, R362). -/
inductive FabricMsg where
  | answer (module tag code rec key : Nat) (data : List Byte)
  | wake (module tag code : Nat) (val : Word)
  | release (module rec : Nat)
  | ready (module ctx sgen : Nat)
  | start (module ctx sgen : Nat)
  | forward (module ctx slot va : Nat) (write : ShadowWrite)
  | prepare (module ctx slot : Nat)
  | vote (module ctx slot : Nat) (refusals : List (Nat × Nat × Nat × Nat))
  | commit (module ctx slot : Nat)
  | abort (module ctx slot : Nat)
  deriving DecidableEq, Repr

/-- A fetch, watch, shadow operation or access of a copy's chunk that goes to another module: its payload, station, VA and port
(R362, R364). -/
structure FarItem where
  payload : Payload
  station : Nat
  va : Nat
  port : Nat
  deriving DecidableEq, Repr

/-- A shadow of another module's context, of which this module's homes hold granules (R229, R230, R362): the domain, the W rights
of the context that opened it, the shadow. -/
structure PeerShadow where
  domain : Nat
  rights : Nat
  shadow : Shadow
  deriving DecidableEq, Repr

/-- The links and ports (R347 to R366). -/
structure Net where
  /-- Station links by channel × 256 + station. -/
  links : Cells Link
  /-- The channels' tokens (R350). -/
  tokens : Cells Token
  ports : Cells Port
  /-- The port map: entry i names this port; i where not listed (R364). -/
  portMap : Tab Nat
  /-- Entries held until their old port's requests complete, as entry + 64 × old port (R364). -/
  portHold : List Nat
  /-- What has left for other modules, oldest first. -/
  sent : List FabricMsg
  /-- The associations that the secure managers have agreed, by module × 2^32 + number: the domain (R362). -/
  assocs : Tab Nat := []
  /-- Other modules' shadows, by context number × 64 + slot. -/
  peers : Tab PeerShadow := []
  /-- What is kept for a held entry, oldest first, and what has left through a port and may be in flight (R364). -/
  kept : List FarItem := []
  through : List FarItem := []
  /-- Integrity and data encryption of the pool port is on (R366). -/
  ide : Bool
  deriving DecidableEq, Repr

/-- What a trapping strand brings: the strand, its cause and value. -/
structure TrapReq where
  strand : Nat
  cause : Nat
  val : Word
  deriving DecidableEq, Repr

/-- What an issue has changed before its word acts, as it stood before (log 9): when the group last issued, the bolt's
watchdog, the weft's strands between two words of a chain, and when the weft issued last. -/
structure Before where
  age : Nat
  watchdog : Nat
  chain : List (Nat × Word)
  issuedAt : Option Nat
  deriving DecidableEq, Repr

/-- The issue a word acts in: the weft's issue set at one pc (R130), the word, the packet's K (R43), and what the
turn chose: whether a reuse entry is hit (R70), whether the L1 lines are still held, the moment a load reads. -/
structure Issue where
  skein : Nat
  weft : Nat
  strands : List Nat
  pc : Word
  word : Word
  k : Word
  reuse : Bool
  l1 : Bool
  moment : Option Nat
  /-- What a word that waits restores (log 9). -/
  before : Option Before
  /-- The denials that the word reports to strands of its issue set (R183). -/
  denied : List TrapReq
  deriving DecidableEq, Repr

def Issue.idle : Issue :=
  { skein := 0, weft := 0, strands := [], pc := 0, word := 0, k := 0, reuse := false, l1 := true, moment := none,
    before := none, denied := [] }

/-- A request of another module, as its fabric port brings it (R285, R362): the module and its tag for the answer, the
context, its association number, the rights vectors of the requester's keys (R175), the VA, the bytes, of a write the mask of
those it writes, and what each kind needs. -/
structure PeerAsk where
  module : Nat
  tag : Nat
  kind : ReqKind
  ctx : Nat
  assoc : Nat
  rdRights : Nat
  wrRights : Nat
  va : Nat
  size : Nat
  data : List Byte
  fn : Nat
  opnd : Dword
  expect : Dword
  lvl2 : Bool
  mask : Nat := 2 ^ 256 - 1
  deriving DecidableEq, Repr

/-- A WATCH of another module on a word of this one (R281, R362). -/
structure PeerWatch where
  module : Nat
  tag : Nat
  ctx : Nat
  assoc : Nat
  rights : Nat
  va : Nat
  cond : Nat
  cmp : Word
  deriving DecidableEq, Repr

/-- Another module's SHOPEN request to the homes of this one (R229): the module and its tag for the answer, the context, its slot,
association number and W rights, and the shadow's ranges. -/
structure PeerOpen where
  module : Nat
  tag : Nat
  ctx : Nat
  slot : Nat
  assoc : Nat
  rights : Nat
  base : Nat
  size : Nat
  zero : Bool
  replicas : List Nat
  deriving DecidableEq, Repr

/-- What another module tells the homes of this one about a shadow of its own (R230, R233). -/
inductive PeerStep where
  | forward (tag va : Nat) (write : ShadowWrite)
  | prepare
  | commit
  | abort
  deriving DecidableEq, Repr

/-- What comes to the machine from outside the instructions and events of the opcode table. -/
inductive Outside where
  /-- Errors that strike (R198, R259, R294, R367): a scratch or selvage word of a core (1 single-bit, 2 uncorrectable, 3
  uncorrectable again after its write-back), a tile's element, a register's word, a line of memory by physical
  frame, or of the L2 by domain and line, a whole frame of a granule by domain and DFN. -/
  | scratchError (core word damage : Nat)
  | selvageError (core ix damage : Nat)
  | tileError (skein tile elem : Nat)
  | registerError (skein strand reg : Nat)
  /-- A lane quad of a core is retired in service (R112, R375). -/
  | laneQuad (core : Nat)
  | lineError (frame line : Nat)
  | l2Error (domain line : Nat)
  | frameError (domain dfn : Nat)
  /-- An entry of a translation cache by its granule's key, or of a watch table, that can no longer be corrected (R367). -/
  | attrError (key : Nat)
  | watchError (core entry : Nat)
  /-- Data of a request or of a copy's next chunk that a hand-over finds beyond correction (R368). -/
  | sentError (req : Nat)
  | copyError (copy : Nat)
  /-- The secure manager makes a stage-2 entry present; it gives a granule a fresh, zeroed frame (R294, R300, R323). -/
  | mapFrame (domain dfn : Nat) (entry : Stage2)
  | freshFrame (domain granule frame tier : Nat)
  /-- The fabric manager adds a pool extent of its identifier: its first frame and their count. The secure manager turns the
  pool port's encryption on or off (R366). -/
  | poolExtent (id frame count : Nat)
  | ide (on : Bool)
  /-- It changes an entry of a distribution table (R287). -/
  | tableWrite (domain slot home : Nat)
  /-- It writes a share group (R289). -/
  | groupWrite (group : Nat) (g : Option ShareGroup)
  /-- Another module's request, and its watch, reach the fabric ingress (R285, R362). -/
  | peerAsk (a : PeerAsk)
  | peerWatch (w : PeerWatch)
  /-- Another module cancels a watch of its own, by its tag (R283). -/
  | peerCancel (module tag : Nat)
  /-- The secure managers agree an association, or end it (R362). -/
  | associate (module assoc : Nat) (domain : Option Nat)
  /-- Another module opens a shadow that has granules here; a step of it (R229, R230, R233). -/
  | peerOpen (o : PeerOpen)
  | peerShadow (module ctx slot : Nat) (step : PeerStep)
  /-- A host's operating system destroys a host-core context, and its freeze ends (R371). -/
  | hostDestroy (host : Nat)
  deriving DecidableEq, Repr

/-- What the next turn does. -/
inductive Move where
  /-- The grouping stage issues a weft (R130), with the choices of `Issue`. -/
  | issue (skein weft : Nat) (reuse l1 : Bool) (moment : Option Nat)
  /-- An event of the table. -/
  | event (i : Instr)
  /-- Something from outside. -/
  | outside (o : Outside)
  /-- Nothing but the time passing. -/
  | idle
  deriving DecidableEq, Repr

/-- One turn of the schedule: how many cc pass before it, and what it does. -/
structure Turn where
  wait : Nat
  move : Move
  deriving DecidableEq, Repr

/-- The module. `schedule`, `turn`, `cur`, `seq`, `free` and `homes.hist` are the model's own. -/
structure State where
  /-- The cc count since reset (R6). -/
  clock : Nat
  /-- Moments: how many effects have been ordered (R154). -/
  seq : Nat
  /-- How many free values have been used. -/
  free : Nat
  schedule : List Turn
  /-- How many turns a machine without a schedule has taken. -/
  turn : Nat
  cur : Issue
  nextId : Nat
  /-- This module's number, VA[56:47] (R153). -/
  modNo : Nat
  cores : Cells CoreSt
  skeins : Tab Skein
  bolts : Tab Bolt
  launches : Tab Launch
  contexts : Tab Context
  parts : Tab Partition
  queues : Tab Queue
  pend : Tab PendCmd
  /-- L1 groups: a core's own L1 by core index, a fused one by 1,024 + its bolt (R156). -/
  l1 : Cells (List L1Line)
  reqs : Tab Req
  copies : Tab Copy
  shdops : Tab ShdOp
  fetches : Tab Fetch
  homes : Homes
  net : Net
  captures : Cells Capture
  dev : Device
  deriving DecidableEq, Repr

def Homes.reset : Homes :=
  { mem := [], hist := [], poisonLines := [], rewritten := [], ownership := [], groups := [], gens := [], roots := [],
    tableHomes := [], tableOver := [], stage2 := [], attrs := [], l2 := [], victims := [], filled := 0, owed := [],
    gran := [], granCmds := [], granDone := [], moved := [], pubGen := [],
    walks := [], faultRecs := [], faultSeq := [], shadowFrames := [], poolFrames := [], withdrawals := [], icache := [],
    filter := [] }

def Net.reset : Net := { links := [], tokens := [], ports := [], portMap := [], portHold := [], sent := [], ide := false }

/-- The module right after reset, before bring-up starts (R6, R409). -/
def State.reset : State :=
  { clock := 0, seq := 0, free := 0, schedule := [], turn := 0, cur := Issue.idle, nextId := 0, modNo := 0, cores := [],
    skeins := [], bolts := [], launches := [], contexts := [], parts := [], queues := [], pend := [], l1 := [],
    reqs := [], copies := [], shdops := [], fetches := [], homes := Homes.reset, net := Net.reset, captures := [],
    dev := Device.reset }

/-- No step of this machine stops with a fault: every step of the spec has an effect (R51, R146, R184). The one
constructor stands for a step of a state that the spec gives no machine for; nothing raises it. Safe. -/
inductive Fault where
  | stuck
  deriving DecidableEq, Repr

/-- Why a step is refused. -/
inductive Refusal where
  /-- An arm of `exec` without a meaning raises it, with the mnemonic of the opcode table. Safe: the model stops. -/
  | notModelled (mnemonic : String)
  deriving DecidableEq, Repr

end Sys2Proof.Machine
end

