-- ==== Sys2Proof/Machine/Mem.lean ====
section
/-! DEFINITION. Machine/Mem.lean: identifiers, the distribution table, the two translation stages, the order of checks
at a home, and the reads and writes that take effect at a point of visibility (R9 to R11, R153, R154, R285 to R295,
R369). -/

namespace Sys2Proof.Machine

/-! ### Identifiers (R9 to R11) -/

/-- Cluster index of a core index. -/
def clusterOf (core : Nat) : Nat := core / 8
/-- Quadrant index of a core index. -/
def quadOf (core : Nat) : Nat := core / 48
/-- COREID of a core index (R9). -/
def coreId (core : Nat) : Nat := core / 48 * 64 + core / 8 % 6 * 8 + core % 8
/-- Core index of a COREID (R11). -/
def coreIndex (id : Nat) : Nat := (id / 64 * 6 + id / 8 % 8) * 8 + id % 8
/-- Quadrant index of a home-slice index; the identifier of R10 equals the index. -/
def homeQuad (home : Nat) : Nat := home / 8

/-! ### The distribution table (R285, R286, R348) -/

def hash7 (x : Nat) : Nat := bits x 6 0 ^^^ bits x 13 7 ^^^ bits x 20 14 ^^^ bits x 25 21
def hash5 (x : Nat) : Nat :=
  bits x 4 0 ^^^ bits x 9 5 ^^^ bits x 14 10 ^^^ bits x 19 15 ^^^ bits x 24 20 ^^^ bits x 25 25
/-- Slot(VA). -/
def slotOf (va : Nat) : Nat :=
  (bits va 20 14 ^^^ hash7 (bits va 46 21)) + 128 * hash5 (bits va 46 21)
/-- H6(VA). -/
def hash6 (va : Nat) : Nat :=
  bits va 13 8 ^^^ bits va 19 14 ^^^ bits va 25 20 ^^^ bits va 31 26 ^^^ bits va 37 32 ^^^ bits va 43 38 ^^^
  bits va 49 44 ^^^ bits va 55 50 ^^^ bits va 56 56
/-- The home that a slot of a domain's distribution table names: the entry changed since, or the one CARVE filled in (R287). -/
def homeOfSlot (h : Homes) (domain slot : Nat) : Nat :=
  match Tab.get h.tableHomes domain with
  | none => 0
  | some hs =>
    let o := Cells.get 0 h.tableOver (domain * 4096 + slot)
    if o ≠ 0 then o - 1 else nth 0 hs (if hs.length = 0 then 0 else slot % hs.length)
/-- Home(VA) (R286). -/
def homeOf (h : Homes) (domain va : Nat) : Nat := homeOfSlot h domain (slotOf va)
/-- HBM frames of a home's four channels: 768 GiB over 128 homes (R4). -/
def hbmFrames : Nat := 393216
/-- Whether a frame is one a home may map in a tier: an HBM frame of its own channels, or a pool frame (R294). The numbers are
the model's: home `n` has the HBM frames from `393,216 n` on, and pool frames follow all of them (DESIGN CHOICE, log 40). -/
def frameFits (home tier frame : Nat) : Bool :=
  if tier = 0 then frame / hbmFrames == home else decide (tier = 1 ∧ 128 * hbmFrames ≤ frame ∧ frame < 2 ^ 34)
/-- The module number of a VA (R153). -/
def moduleOf (va : Nat) : Nat := bits va 56 47

def locKey (domain va : Nat) : Nat := domain * 2 ^ 57 + va
def granKey (domain va : Nat) : Nat := domain * 2 ^ 43 + va / 16384
def s2Key (domain dfn : Nat) : Nat := domain * 2 ^ 36 + dfn
/-- Byte address of an offset in a physical frame. -/
def physAddr (frame off : Nat) : Nat := frame * 16384 + off % 16384

/-- The canonical form of a byte memory: addresses strictly rising, no byte equal to the 0 that an unlisted one reads as
(log 3). -/
def Memory.wf (m : Cells Byte) : Bool := Cells.wf 0 m

/-- `n` bytes of a byte map from an address, where nothing written reads 0 (log 3). -/
def readBytes (m : Cells Byte) : Nat → Nat → List Byte
  | _, 0 => []
  | a, n + 1 => Cells.get 0 m a :: readBytes m (a + 1) n

/-- Write bytes from an address. -/
def writeBytes (m : Cells Byte) : Nat → List Byte → Cells Byte
  | _, [] => m
  | a, b :: t => writeBytes (Cells.set 0 m a b) (a + 1) t

/-! ### Ownership and the two stages (R289 to R294) -/

/-- The translating domain of an access, and the rights mask a share group leaves it; `none` where it does not own the
extent (R289). -/
def ownerOf (h : Homes) (domain va : Nat) : Option (Nat × Nat × Bool) :=
  match Tab.get h.ownership (bits va 46 31) with
  | none => none
  | some e =>
    if e.shared then
      match Tab.get h.groups e.domain with
      | none => none
      | some g => (g.members.find? (fun m => m.1 == domain)).map (fun m => (g.translating, m.2, e.withdrawing))
    else if e.domain = domain then some (domain, 7, e.withdrawing) else none

/-- The domain whose tables translate a VA (R289); the accessing one where nobody owns it. -/
def transDomain (h : Homes) (domain va : Nat) : Nat :=
  match ownerOf h domain va with
  | some o => o.1
  | none => domain

/-- Whether a line is poisoned: reported by the memory, or of a POISON granule and not rewritten whole (R294, R369). -/
def linePoisoned (h : Homes) (s2 : Stage2) (va : Nat) : Bool :=
  Cells.get false h.poisonLines (physAddr s2.frame va / 256) ||
  (s2.poison && !((List.range 256).all (fun i => Cells.get false h.rewritten (physAddr s2.frame (va / 256 * 256) + i))))

/-- A stage-1 entry, read through its frame's home (R291). -/
def s1Entry (h : Homes) (domain dfn idx : Nat) : Option Nat :=
  (Tab.get h.stage2 (s2Key domain dfn)).map (fun e => ofBytes (readBytes h.mem (physAddr e.frame (idx * 8)) 8))

/-- The attributes of a leaf at a level, or the stage-1 NACK (R292, R293). -/
def s1Leaf (level va e : Nat) : Except Nat Attr :=
  let dfn := bits e 51 16
  let x := bits va 46 21
  let g := bits va 20 14
  let attr (d : Nat) : Attr :=
    { rights := 1 + (if bit e 2 then 2 else 0) + (if bit e 3 then 4 else 0), key := bits e 7 4, dfn := d,
      cmpOk := bit e 12, tier := bits e 11 10 }
  if level = 0 then (if dfn % 4096 = slotOf va then .ok (attr dfn) else .error 8)
  else if level = 1 then
    (if dfn % 128 = hash7 x ∧ bits dfn 11 7 = hash5 x then .ok (attr (dfn / 128 * 128 + (g ^^^ dfn % 128))) else .error 8)
  else if level = 2 then
    (if dfn % 2 ^ 21 = 0 then .ok (attr (dfn + bits va 29 21 * 4096 + slotOf va)) else .error 8)
  else .error 1

/-- Whether the line of a stage-1 entry is poisoned (R294, R369). -/
def s1Poisoned (h : Homes) (domain dfn idx : Nat) : Bool :=
  (Tab.get h.stage2 (s2Key domain dfn)).elim false (fun e => linePoisoned h e (idx * 8))

/-- The walk from a table frame, through the levels left: level number and index (R291). It reads no poisoned line (R294). -/
def s1Walk (h : Homes) (domain va : Nat) : List (Nat × Nat) → Nat → Except Nat Attr
  | [], _ => .error 1
  | (level, idx) :: rest, dfn =>
    match s1Entry h domain dfn idx with
    | none => .error 3
    | some e =>
      if s1Poisoned h domain dfn idx then .error 7
      else if ¬ bit e 0 then .error 1
      else if bits e 63 52 ≠ 0 ∨ bits e 15 13 ≠ 0 then .error 1
      else if bit e 1 then (if bits e 9 8 ≠ 0 then .error 1 else s1Leaf level va e)
      else s1Walk h domain va rest (bits e 51 16)

/-- The levels of a walk with the index of each (R291). -/
def s1Levels (va : Nat) : List (Nat × Nat) := [(3, bits va 46 39), (2, bits va 38 30), (1, bits va 29 21), (0, bits va 20 14)]

/-- Stage 1 of a VA (R291 to R293). -/
def stage1 (h : Homes) (domain va : Nat) : Except Nat Attr :=
  match Tab.get h.roots (domain * 1024 + moduleOf va) with
  | none => .error 1
  | some root =>
    s1Walk h domain va (s1Levels va) root

/-- The DFN of the table frame that a walk finds absent; 0 where it finds none (R297). -/
def absentTable (h : Homes) (domain : Nat) : List (Nat × Nat) → Nat → Nat
  | [], _ => 0
  | l :: rest, dfn =>
    match s1Entry h domain dfn l.2 with
    | none => dfn
    | some e => if bit e 0 ∧ ¬ bit e 1 then absentTable h domain rest (bits e 51 16) else 0

/-! ### The order of checks (R295) -/

/-- What a request asks of a page. -/
inductive AccKind where
  | read | write | atomic | fetch
  deriving DecidableEq, Repr

def AccKind.reads : AccKind → Bool
  | .read => true
  | .atomic => true
  | .fetch => true
  | .write => false
def AccKind.writes : AccKind → Bool
  | .write => true
  | .atomic => true
  | _ => false

/-- The outcome of a home's judgement: a NACK code, a hold, a walk to wait for, a key denial, or the page. -/
inductive Verdict where
  | nack (code : Nat)
  | hold
  | walk
  | deny
  | page (attr : Attr) (s2 : Stage2)
  deriving DecidableEq, Repr

/-- The L2 line that holds a VA, of the domain's current generation (R12, R288). -/
def l2Find (h : Homes) (tdom va : Nat) : Option L2Line :=
  h.l2.find? (fun l => l.domain == tdom && l.line == va / 256 && l.gen == Cells.get 0 h.gens tdom)

/-- Whether stage 1 and the share mask give the right (R292, R295): a fetch needs X and a page without W. -/
def rightsOk (kind : AccKind) (rights mask : Nat) : Bool :=
  match kind with
  | .read => bit mask 0
  | .write => bit rights 1 && bit mask 1
  | .atomic => bit rights 1 && bit mask 0 && bit mask 1
  | .fetch => bit rights 2 && !bit rights 1 && bit mask 2

/-- Whether a granule's state holds an access (R300, R301). -/
def heldBy (g : GranState) (kind : AccKind) : Bool :=
  match g with
  | .mapped => false
  | .moving .. => true
  | .recoding .. => true
  | .prepared .. => true
  | .xrevoking _ => kind.writes || kind == .fetch

/-- The attributes by which a home reaches a VA: those of its L2 line, those it has cached, else those of its
tables, or the stage-1 NACK (R288). -/
def homeAttr (h : Homes) (tdom va : Nat) : Except Nat Attr :=
  match l2Find h tdom va with
  | some l => .ok l.attr
  | none =>
    match Tab.get h.attrs (granKey tdom va) with
    | some a => .ok a.attr
    | none => stage1 h tdom va

/-- The stage-2 entry of a DFN as a home completes a judgement with it: the cached one of the granule where no line of the L2
holds the attributes (R288, R295). -/
def homeStage2 (h : Homes) (tdom va dfn : Nat) : Option Stage2 :=
  match l2Find h tdom va, Tab.get h.attrs (granKey tdom va) with
  | none, some c => some c.s2
  | _, _ => Tab.get h.stage2 (s2Key tdom dfn)

/-- Cached translations are dropped, with the L2 ways that they stand in as victims. -/
def Homes.forget (h : Homes) (p : Nat → Bool) : Homes :=
  { h with attrs := h.attrs.filter (fun e => !p e.1), victims := h.victims.filter (fun e => !p e.1) }

/-- A stage-2 entry changes at its home: what the home has cached of it changes with it, or goes (R288, R294, R300). -/
def Homes.putStage2 (h : Homes) (tdom dfn : Nat) (v : Option Stage2) : Homes :=
  let of' (key : Nat) (c : Cached) : Bool := key / 2 ^ 43 == tdom && c.attr.dfn == dfn
  let h1 : Homes := { h with stage2 := Tab.set h.stage2 (s2Key tdom dfn) v }
  match v with
  | some e => { h1 with attrs := h.attrs.map (fun x => (x.1, x.2.map (fun c => if of' x.1 c then { c with s2 := e } else c))) }
  | none => h1.forget (fun key => (Tab.get h.attrs key).elim false (of' key))

/-- HomeAccept (R295). `walked`: the stage-1 result of a walk that has just ended, where nothing is cached. DESIGN CHOICE (log
75): a read that meets a cached translation beyond correction draws POISON, and a write walks again. -/
def judge (h : Homes) (domain gen va : Nat) (kind : AccKind) (wrRights : Nat) (walked : Bool) : Verdict :=
  if gen ≠ Cells.get 0 h.gens domain then .nack 6
  else match ownerOf h domain va with
  | none => .nack 5
  | some (tdom, mask, withdrawing) =>
    if withdrawing then .nack 9
    else if heldBy (Cells.get .mapped h.gran (granKey tdom va)) kind then .hold
    else
      let hit := l2Find h tdom va
      let att : Option (Except Nat Attr) :=
        match hit with
        | some l => some (.ok l.attr)
        | none =>
          match Tab.get h.attrs (granKey tdom va) with
          | some a => if a.bad then (if kind.reads then some (.error 7) else if walked then some (stage1 h tdom va) else none)
            else some (.ok a.attr)
          | none => if walked then some (stage1 h tdom va) else none
      match att with
      | none => .walk
      | some (.error c) => .nack c
      | some (.ok a) =>
        if ¬ rightsOk kind a.rights mask then .nack 2
        else match homeStage2 h tdom va a.dfn with
        | none => .nack 3
        | some s2 =>
          let s2w : Bool := match hit with
            | some l => l.s2w
            | none => s2.w
          if kind.writes && !s2w then .nack 4
          else if kind.writes && !bit wrRights a.key then .deny
          else if kind.reads && linePoisoned h s2 va then .nack 7
          else .page a s2

/-- The 64-byte sectors of its line that an access of `n` bytes, at least one, touches, as a mask (R288). -/
def sectorsOf (va n : Nat) : Nat :=
  (List.range 4).foldl (fun m k => if va % 256 < 64 * k + 64 ∧ 64 * k < va % 256 + max 1 n then m ||| 2 ^ k else m) 0

/-- The sectors that an access covers whole. -/
def wholeSectors (va n : Nat) : Nat :=
  (List.range 4).foldl (fun m k => if va % 256 ≤ 64 * k ∧ 64 * k + 64 ≤ va % 256 + n then m ||| 2 ^ k else m) 0
/-- How many sectors a mask names. -/
def sectorCount (m : Nat) : Nat := ((List.range 4).filter (bit m)).length
/-- Bytes move between a home and a tier for a domain (R335). -/
def Homes.countMoved (h : Homes) (domain tier n : Nat) : Homes :=
  { h with moved := Cells.set 0 h.moved (domain * 2 + tier % 2) (Cells.get 0 h.moved (domain * 2 + tier % 2) + n) }

/-- The L2 retention of a policy (R178): 0 lowest, 1 normal, 2 highest. -/
def retOf (pol : Nat) : Nat := if pol = 1 then 0 else if pol = 2 then 2 else 1

/-- Note the L2 line and the cached translation an access leaves (R288): a line that is filled takes its retention from
`ret` (R178). What the L2 does not hold is read, but for sectors that a write covers whole. -/
def touchLine (h0 : Homes) (tdom va n : Nat) (a : Attr) (s2 : Stage2) (ret : Nat) (dirty : Bool) : Homes :=
  let m := sectorsOf va n
  let d := if dirty then m else 0
  let held := (l2Find h0 tdom va).elim 0 L2Line.sectors
  let missing := m - (m &&& held)
  let h := h0.countMoved tdom s2.tier (64 * sectorCount (if dirty then missing - (missing &&& wholeSectors va n) else missing))
  match l2Find h tdom va with
  | some o =>
    { h with l2 := h.l2.map (fun x => if x.domain == tdom && x.line == va / 256 then
        { o with sectors := o.sectors ||| m, dirty := o.dirty ||| d } else x) }
  | none =>
    let l : L2Line := { domain := tdom, gen := Cells.get 0 h.gens tdom, line := va / 256, attr := a, s2w := s2.w,
                        ret := ret, sectors := m, dirty := d }
    { h with
      filled := h.filled + 1
      l2 := l :: h.l2.filter (fun x => !(x.domain == tdom && x.line == va / 256))
      attrs := if (Tab.get h.attrs (granKey tdom va)).elim false (fun c => c.bad) ∧ ¬ dirty then h.attrs else
        Tab.set h.attrs (granKey tdom va) (some { attr := a, s2 := (Tab.get h.stage2 (s2Key tdom a.dfn)).getD s2 })
      victims := Tab.set h.victims (granKey tdom va) none }

/-- The history of a location gains one write (R154, R157). -/
def noteWrite (hist : Cells (List HistEntry)) (key moment core seq reached : Nat) (old new : Byte) :
    Cells (List HistEntry) :=
  Cells.set [] hist key
    ({ moment := moment, old := old, new := new, core := core, seq := seq, reached := reached } :: Cells.get [] hist key)

/-- Write bytes that take effect at one moment at a page (R154): memory, history, rewritten poison. -/
def putBytes (h : Homes) (tdom moment core seq reached frame : Nat) : Nat → List Byte → Homes
  | _, [] => h
  | va, b :: t =>
    let p := physAddr frame va
    let old := Cells.get 0 h.mem p
    putBytes
      { h with
        mem := Cells.set 0 h.mem p b
        hist := noteWrite h.hist (locKey tdom va) moment core seq reached old b
        rewritten := if Cells.get false h.poisonLines (p / 256) then Cells.set false h.rewritten p true else h.rewritten }
      tdom moment core seq reached frame (va + 1) t

/-- A line is poisoned: none of its bytes has been rewritten since (R369). -/
def Homes.poisonLine (h : Homes) (base : Nat) : Homes :=
  let b := base / 256 * 256
  { h with
    poisonLines := Cells.set false h.poisonLines (b / 256) true
    rewritten := h.rewritten.filter (fun e => decide (e.1 < b ∨ b + 256 ≤ e.1)) }

/-- Once all 256 bytes of a poisoned line are rewritten it is clear (R369); the marks stay while its granule is POISON
(R294). -/
def clearPoison (h : Homes) (s2 : Stage2) (va : Nat) : Homes :=
  let base := physAddr s2.frame va / 256 * 256
  if Cells.get false h.poisonLines (base / 256) ∧
     (List.range 256).all (fun i => Cells.get false h.rewritten (base + i)) then
    { h with
      poisonLines := Cells.set false h.poisonLines (base / 256) false
      rewritten := if s2.poison then h.rewritten
        else h.rewritten.filter (fun e => decide (e.1 < base ∨ base + 256 ≤ e.1)) }
  else h

/-- Bytes rewritten in a POISON granule; with no line left poisoned the mark goes (R294). -/
def rewriteGranule (h : Homes) (tdom : Nat) (a : Attr) (s2 : Stage2) (va n : Nat) : Homes :=
  if ¬ s2.poison then h
  else
    let base := s2.frame * 16384
    let rw := (List.range n).foldl (fun m i => Cells.set false m (physAddr s2.frame (va + i)) true) h.rewritten
    if (List.range 16384).all (fun i => Cells.get false rw (base + i)) then
      ({ h with rewritten := rw.filter (fun e => decide (e.1 < base ∨ base + 16384 ≤ e.1)) } : Homes).putStage2 tdom a.dfn
        (some { s2 with poison := false })
    else { h with rewritten := rw }

/-- The bytes at a page. -/
def getBytes (h : Homes) (s2 : Stage2) (va n : Nat) : List Byte := readBytes h.mem (physAddr s2.frame va) n

/-- A write that takes effect at its point of visibility; at most one granule (R154, R369). -/
def performWrite (h : Homes) (tdom moment core seq reached va : Nat) (a : Attr) (s2 : Stage2) (data : List Byte) : Homes :=
  let h1 := putBytes h tdom moment core seq reached s2.frame va data
  let h2 := rewriteGranule (clearPoison h1 s2 va) tdom a s2 va data.length
  touchLine h2 tdom va data.length a s2 1 true

/-- The value of one byte at its point of visibility at a moment (R157): what the first later write replaced, or what
stands there now. The history lists the newest write first. -/
def valueAt (cur : Byte) (moment : Nat) : List HistEntry → Byte
  | [] => cur
  | e :: t => if moment < e.moment then valueAt e.old moment t else cur

end Sys2Proof.Machine
end

