-- ==== Sys2Proof/Machine/Ops.lean ====
section
/-! DEFINITION. Machine/Ops.lean: the named operations over the state: strands and their registers, program counters,
counters, links' queues, memory effects with their watches, event records, barriers, acquires, gang kill and context
faults, taking a trap and returning from one (R61 to R64, R129, R146 to R150, R271 to R273, R281, R372). -/

namespace Sys2Proof.Machine

/-! ### Records -/

def State.core (s : State) (c : Nat) : CoreSt := Cells.get CoreSt.reset s.cores c
def State.modCore (s : State) (c : Nat) (f : CoreSt → CoreSt) : State :=
  { s with cores := Cells.set CoreSt.reset s.cores c (f (s.core c)) }
def State.skein? (s : State) (k : Nat) : Option Skein := Tab.get s.skeins k
def State.modSkein (s : State) (k : Nat) (f : Skein → Skein) : State := { s with skeins := Tab.upd s.skeins k f }
def State.strand? (s : State) (k i : Nat) : Option Strand := (s.skein? k).bind (fun sk => Tab.get sk.strands i)
def State.modStrand (s : State) (k i : Nat) (f : Strand → Strand) : State :=
  s.modSkein k (fun sk => { sk with strands := Tab.upd sk.strands i f })
def State.modStrands (s : State) (k : Nat) (is : List Nat) (f : Nat → Strand → Strand) : State :=
  s.modSkein k (fun sk => { sk with strands := is.foldl (fun t i => Tab.upd t i (f i)) sk.strands })
def State.modWeft (s : State) (k w : Nat) (f : Weft → Weft) : State :=
  s.modSkein k (fun sk => { sk with wefts := Tab.upd sk.wefts w f })
def State.weft? (s : State) (k w : Nat) : Option Weft := (s.skein? k).bind (fun sk => Tab.get sk.wefts w)
def State.bolt? (s : State) (b : Nat) : Option Bolt := Tab.get s.bolts b
def State.modBolt (s : State) (b : Nat) (f : Bolt → Bolt) : State := { s with bolts := Tab.upd s.bolts b f }
def State.ctx? (s : State) (c : Nat) : Option Context := Tab.get s.contexts c
def State.modCtx (s : State) (c : Nat) (f : Context → Context) : State := { s with contexts := Tab.upd s.contexts c f }
def State.part? (s : State) (p : Nat) : Option Partition := Tab.get s.parts p
def State.modPart (s : State) (p : Nat) (f : Partition → Partition) : State := { s with parts := Tab.upd s.parts p f }
def State.req? (s : State) (r : Nat) : Option Req := Tab.get s.reqs r
def State.modReq (s : State) (r : Nat) (f : Req → Req) : State := { s with reqs := Tab.upd s.reqs r f }
def State.dropReq (s : State) (r : Nat) : State := { s with reqs := Tab.set s.reqs r none }
def State.modHomes (s : State) (f : Homes → Homes) : State := { s with homes := f s.homes }
def State.link (s : State) (l : Nat) : Link := Cells.get Link.fresh s.net.links l
def State.modLink (s : State) (l : Nat) (f : Link → Link) : State :=
  { s with net := { s.net with links := Cells.set Link.fresh s.net.links l (f (s.link l)) } }
/-- A number no record has yet. -/
def State.fresh (s : State) : State := { s with nextId := s.nextId + 1 }

/-- The next free yes-or-no value (log 26). -/
def State.freeBool (s : State) : Bool × State := (Config.freeBool s.free, { s with free := s.free + 1 })
/-- The next free byte. -/
def State.freeByte (s : State) : Byte × State := (Config.freeByte s.free, { s with free := s.free + 1 })

/-! ### Meters (R335) -/

/-- Add to one of a partition's meters, numbered as R335's table lists them: BUSYCC 0, the MACs 1 to 6, HBM_BYTES 7,
LOOM_BYTES 8, FABRIC_BYTES 9, POOL_BYTES 10. -/
def State.addMeter (s : State) (part i n : Nat) : State :=
  s.modPart part (fun p => { p with meters := Cells.set 0 p.meters i ((Cells.get 0 p.meters i + n) % 2 ^ 64) })
/-- Payload bytes of a context at the fabric ports. -/
def State.fabricBytes (s : State) (ctx n : Nat) : State := match s.ctx? ctx with
  | some c => s.addMeter c.partition 9 n
  | none => s

/-! ### A strand's registers (R45, R61 to R64) -/

/-- Read a vector register: v63, and the word above a v62 pair, read zero. -/
def Strand.rv (t : Strand) (r : Nat) : Word := if r < 63 then Cells.get 0 t.v r else 0
/-- Write a vector register: v63 discards. A written word is whole again (R369). -/
def Strand.wv (t : Strand) (r : Nat) (x : Word) : Strand :=
  if r < 63 then { t with v := Cells.set 0 t.v r x, bad := Cells.set false t.bad r false } else t
/-- Read a pair; 63 reads zero in every word. -/
def Strand.rp (t : Strand) (r : Nat) : Dword := pair (t.rv r) (t.rv (r + 1))
/-- Write a pair. -/
def Strand.wp (t : Strand) (r : Nat) (x : Dword) : Strand := (t.wv r (lo32 x)).wv (r + 1) (hi32 x)
/-- The b operand: 63 reads K (R45). -/
def Strand.rb (t : Strand) (k : Word) (b : Nat) : Word := if b = 63 then k else t.rv b
/-- A b pair: 63 reads K sign-extended (R45). -/
def Strand.rbp (t : Strand) (k : Word) (b : Nat) : Dword := if b = 63 then k.signExtend 64 else t.rp b
/-- Read a predicate: p7 is true. -/
def Strand.rpr (t : Strand) (p : Nat) : Bool := if p < 7 then Cells.get false t.p p else true
/-- Write a predicate: p7 discards. -/
def Strand.wpr (t : Strand) (p : Nat) (x : Bool) : Strand := if p < 7 then { t with p := Cells.set false t.p p x } else t
/-- Read an index register. -/
def Strand.rn (t : Strand) (n : Nat) : BitVec 20 := Cells.get 0 t.n n
/-- Write an index register. -/
def Strand.wn (t : Strand) (n : Nat) (x : BitVec 20) : Strand := { t with n := Cells.set 0 t.n n x }
/-- Whether the strand is live (R129). -/
def Strand.live (t : Strand) : Bool := t.status != .exited

/-! ### Program counters (R38 to R40) -/

/-- NextPC: the following slot, or slot 0 of the next packet after slot 2 (R39). -/
def nextPc (pc : Word) : Word := if pc.toNat % 4 < 2 then pc + 1 else BitVec.ofNat 32 ((pc.toNat / 4 + 1) * 4)
/-- A valid target of a transfer (R40). -/
def pcOk (kern : Kernel) (t : Nat) : Bool := decide (t % 4 ≠ 3) && decide (t * 4 < kern.codeSize)
/-- Target(disp22) as an integer (R39). -/
def branchTarget (pc : Word) (disp : BitVec 22) : Int := ((pc.toNat / 4 : Nat) + disp.toInt) * 4
/-- Whether a branch target is valid (R40). -/
def targetOk (kern : Kernel) (t : Int) : Bool := decide (0 ≤ t) && pcOk kern t.toNat
def Strand.advance (t : Strand) : Strand := { t with pc := nextPc t.pc }

/-! ### Wefts and lanes (R8, R111) -/

/-- The weft that holds a strand: its first strand and record. -/
def Skein.weftOf (sk : Skein) (i : Nat) : Option (Nat × Weft) :=
  (Tab.list sk.wefts).find? (fun e => decide (e.1 ≤ i ∧ i < e.1 + e.2.g))
/-- The strands of a weft that exist. -/
def Skein.members (sk : Skein) (base : Nat) : List Nat :=
  match Tab.get sk.wefts base with
  | none => []
  | some w => (List.range w.g).filterMap (fun j => if base + j < sk.nstrand then some (base + j) else none)
/-- Its live strands. -/
def Skein.liveOf (sk : Skein) (base : Nat) : List Nat :=
  (sk.members base).filter (fun i => match Tab.get sk.strands i with
    | some t => t.live
    | none => false)
/-- The live strands of the skein. -/
def Skein.live (sk : Skein) : List Nat :=
  (Tab.list sk.strands).filterMap (fun e => if e.2.live then some e.1 else none)
/-- Count into a performance counter (R79). -/
def Skein.count (sk : Skein) (pmc n : Nat) : Skein :=
  { sk with pmc := Cells.set 0 sk.pmc pmc ((Cells.get 0 sk.pmc pmc + n) % 4294967296) }
def State.count (s : State) (k pmc n : Nat) : State := s.modSkein k (fun sk => sk.count pmc n)

/-- Whether a context's strands issue: it is not being pre-empted, saved or over (R268, R326). -/
def State.mayIssue (s : State) (ctx : Nat) : Bool := match s.ctx? ctx with
  | some c => c.state == .running
  | none => false

/-- Whether a context is being pre-empted (R268). -/
def State.preempting (s : State) (ctx : Nat) : Bool := match s.ctx? ctx with
  | some c => c.state == .preempting
  | none => false

/-- A 256-bit lane mask of strands of a weft. -/
def laneMask (base : Nat) (is : List Nat) : Nat := is.foldl (fun m i => m ||| 2 ^ (i - base)) 0

/-- A context's protection domain. -/
def State.domainOf (s : State) (c : Nat) : Nat := match s.ctx? c with
  | some x => x.domain
  | none => 0

/-! ### Links' queues (R347 to R349) -/

/-- Number of a station link. -/
def linkNo (channel station : Nat) : Nat := channel * 256 + station
/-- Put traffic in a station's queue for a channel: its type and payload (R350). -/
def State.enqueue (s : State) (channel station type : Nat) (p : Payload) : State :=
  s.modLink (linkNo channel station) (fun l => { l with
    outq := l.outq ++ [(type, p)], since := some (l.since.getD s.clock) })
/-- The home inbound channel of a line (R347, R348). -/
def inbound (home va : Nat) : Nat := 2 * home + hash6 va % 2
/-- The reply channel of a cluster for a line. -/
def replyChan (cluster va : Nat) : Nat := 256 + 2 * cluster + hash6 va % 2
/-- A cluster's request to a home. -/
def State.sendToHome (s : State) (core home va type : Nat) (p : Payload) : State :=
  s.enqueue (inbound home va) (clusterOf core) type p
/-- The number that stands for another module's requesters where a core's number does: 1,024 and the module. -/
def peerCore (module : Nat) : Nat := 1024 + module
/-- The working port of a fabric entry. -/
def State.portOf (s : State) (va : Nat) : Nat := (Tab.get s.net.portMap (hash6 va)).getD (hash6 va)
/-- A home's exempt-class traffic to a cluster, or through a fabric port to another module. -/
def State.sendToCore (s : State) (core home va : Nat) (p : Payload) : State :=
  s.enqueue (if core < 768 then replyChan (clusterOf core) va else 449 + s.portOf va) (96 + home) 2 p
/-- A message leaves for another module. -/
def State.tell (s : State) (m : FabricMsg) : State := { s with net := { s.net with sent := s.net.sent ++ [m] } }
/-- Control traffic leaves for another module, carried as a write of 64 bytes for a partition (R335, R362; log 79). -/
def State.tellFor (s : State) (part : Option Nat) (m : FabricMsg) : State := (part.elim s (fun p => s.addMeter p 9 64)).tell m

/-- The hold of a re-pointed entry, where it still stands (R364). -/
def State.entryHeld (s : State) (va : Nat) : Bool := s.net.portHold.any (fun e => e % 64 == hash6 va)
/-- A fetch, a watch, a shadow operation or an access of a copy goes to another module, through the port of its line; a held entry
keeps it (R362, R364). -/
def State.sendFar (s : State) (station va : Nat) (p : Payload) : State :=
  let item : FarItem := { payload := p, station := station, va := va, port := s.portOf va }
  if s.entryHeld va then { s with net := { s.net with kept := s.net.kept ++ [item] } }
  else ({ s with net := { s.net with through := s.net.through ++ [item] } } : State).enqueue (449 + s.portOf va) station 1 p

/-! ### Memory effects and watches (R154, R281) -/

/-- WATCH's condition on the word and the comparand (R282). -/
def watchCond (f : Nat) (w d : Word) : Bool :=
  match f with
  | 0 => w == d
  | 1 => w != d
  | 2 => decide (d.toInt ≤ w.toInt)
  | 3 => decide (w.toInt < d.toInt)
  | 4 => decide (d.toNat ≤ w.toNat)
  | 5 => decide (w.toNat < d.toNat)
  | 6 => (w &&& d) != 0
  | _ => (w &&& d) == 0

/-- The word at a page. -/
def pageWord (h : Homes) (s2 : Stage2) (va : Nat) : Word := BitVec.ofNat 32 (ofBytes (getBytes h s2 va 4))

/-- The installed watches on a written range that the new value satisfies: core, entry, value (R281). -/
def wokenBy (s : State) (tdom va n : Nat) (s2 : Stage2) : List (Nat × Nat × Nat × Word) :=
  s.cores.flatMap (fun c => (Tab.list c.2.watches).filterMap (fun e =>
    let w := e.2
    if w.stage = 2 ∧ transDomain s.homes w.domain w.va = tdom ∧ w.va < va + n ∧ va < w.va + 4 ∧
       watchCond w.cond (pageWord s.homes s2 w.va) w.cmp then
      some (c.1, e.1, w.va, pageWord s.homes s2 w.va) else none))

/-- Change a watch entry. -/
def State.modWatch (s : State) (c e : Nat) (f : Watch → Watch) : State :=
  s.modCore c (fun x => { x with watches := Tab.upd x.watches e f })

/-- After a write, evaluate the word's watch entries and send their wake packets (R281). -/
def State.wakeWatches (s : State) (tdom va n : Nat) (s2 : Stage2) : State :=
  (wokenBy s tdom va n s2).foldl
    (fun t w => (t.modWatch w.1 w.2.1 (fun x => { x with stage := 3, code := 0, val := w.2.2.2, moment := t.seq })).sendToCore w.1
      (homeOf t.homes tdom w.2.2.1) w.2.2.1 (.wake w.1 w.2.1)) s

/-- A write takes effect at its point of visibility (R154): the moment advances, the bytes change, watches are
evaluated. `core` 768 stands for writers that are no core; `reached`: when it reached its fused L1 (R156). -/
def State.effectWrite (s : State) (tdom core seq reached va : Nat) (a : Attr) (s2 : Stage2) (data : List Byte) : State :=
  let s1 := { s with seq := s.seq + 1, homes := performWrite s.homes tdom (s.seq + 1) core seq reached va a s2 data }
  s1.wakeWatches tdom va data.length s2

/-- Whether a VA belongs to this module. -/
def State.isLocal (s : State) (va : Nat) : Bool := moduleOf va == s.modNo

/-- What another module answers to an access of this one's own units: 0 done, 0x100 a key denial, else a NACK code; a free
value (log 25). -/
def State.farCode (s : State) : Nat :=
  if Config.freeBool s.free then 0
  else
    let n := Config.freeNat (s.free + 1) % 10
    if n = 0 then 0x100 else n

/-- The free values that such an access has used: its outcome, and `n` bytes read. -/
def State.spent (s : State) (va n : Nat) : State := if s.isLocal va then s else { s with free := s.free + 2 + n }

/-- The home of a VA as a domain's accesses reach it (R286, R289). -/
def State.homeFor (s : State) (domain va : Nat) : Nat := homeOf s.homes (transDomain s.homes domain va) va

/-- The partition that runs a domain. -/
def State.partOfDomain (s : State) (domain : Nat) : Option Nat :=
  ((Tab.list s.parts).find? (fun p => p.2.domain == domain)).map Prod.fst

/-- An access of `n` bytes that a unit or an instruction makes at once crosses the Loom from its station to the home, which answers,
or to a port (R5, R335, R347; log 78). -/
def State.unitSent (s : State) (station domain va n : Nat) : State :=
  let part := s.partOfDomain domain
  if s.isLocal va then s.enqueue (inbound (s.homeFor domain va) va) station 1 (.passed part true)
  else if station < 96 then
    (part.elim s (fun p => s.addMeter p 9 n)).enqueue (449 + s.portOf va) station 1 (.passed part false)
  else s
/-- The same for a read, with the free values it has used. -/
def State.fetched (s : State) (station domain va n : Nat) : State := (s.spent va n).unitSent station domain va n

/-- An access of the module's own units (queues, launches, spills), judged at once at its home with its walk; at most
one granule (R295, R340). -/
def State.modRead (s : State) (domain gen wr rd va n : Nat) : Except Nat (List Byte) :=
  match judge s.homes domain gen va .read wr true with
  | .page a s2 => if bit rd a.key then .ok (getBytes s.homes s2 va n) else .error 0x100
  | .nack c => .error c
  | .deny => .error 0x100
  | .hold => .error 0x101
  | .walk => .error 1

/-- A read whose bytes may cross a granule: each granule is judged by itself. A failure is a code and the VA it is of. -/
def State.modReadAll (s : State) (domain gen wr rd va n : Nat) : Except (Nat × Nat) (List Byte) :=
  let m := 16384 - va % 16384
  let piece (a k : Nat) : Except (Nat × Nat) (List Byte) := (s.modRead domain gen wr rd a k).mapError (fun c => (c, a))
  if n ≤ m then piece va n
  else match piece va m, piece (va + m) (n - m) with
    | .ok a, .ok b => .ok (a ++ b)
    | .error e, _ => .error e
    | _, .error e => .error e

/-- A read of the module's own units at this module's homes or, through the fabric, at another module's, whose bytes are free
values; `State.spent` follows it. -/
def State.unitRead (s : State) (domain gen wr rd va n : Nat) : Except (Nat × Nat) (List Byte) :=
  if s.isLocal va then s.modReadAll domain gen wr rd va n
  else if s.farCode = 0 then .ok ((List.range n).map (fun j => Config.freeByte (s.free + 2 + j)))
  else .error (s.farCode, va)

/-- A write of the module's own units, within one granule; 0x100 stands for a key denial, 0x101 for a hold. Another module's
bytes are that module's. -/
def State.modWrite (s : State) (domain gen wr core seq va : Nat) (data : List Byte) : Except Nat State :=
  if ¬ s.isLocal va then (if s.farCode = 0 then .ok (s.spent va 0) else .error s.farCode)
  else match judge s.homes domain gen va .write wr true with
  | .page a s2 => .ok (s.effectWrite (transDomain s.homes domain va) core seq 0 va a s2 data)
  | .nack c => .error c
  | .deny => .error 0x100
  | .hold => .error 0x101
  | .walk => .error 1

/-- A write in pieces that do not cross a 256-byte line; stops at the first failure, a code and its VA, with the state so far. -/
def State.modWriteAll (s : State) (domain gen wr va : Nat) : Nat → List Byte → State × Option (Nat × Nat)
  | 0, _ => (s, none)
  | fuel + 1, data =>
    if data.isEmpty then (s, none)
    else
      let n := 256 - va % 256
      match s.modWrite domain gen wr 768 0 va (data.take n) with
      | .error c => (s.spent va 0, some (c, va))
      | .ok t => State.modWriteAll t domain gen wr (va + n) fuel (data.drop n)

/-! ### Fault records (R296, R297) -/

/-- The number that stands for a context of another module (R297): one that no context here has. -/
def peerCtx (module ctx : Nat) : Nat := 64 * (module + 1) + ctx % 64
/-- The modules that a requester's context number names besides this one. -/
def peerOf (ctx : Nat) : List Nat := if ctx < 64 then [] else [ctx / 64 - 1]

/-- What a request names in a fault record: context, domain, VA, code, flags, COREID, copy tag and SKEIN (R297). -/
structure FaultAsk where
  ctx : Nat
  domain : Nat
  va : Nat
  code : Nat
  flags : Nat
  core : Nat
  tag : Nat
  skein : Nat
  deriving DecidableEq, Repr

/-- The codes that open no record: DOMAIN, STALE_GEN and POISON (R184, R296). -/
def fatalCode (code : Nat) : Bool := code == 5 || code == 6 || code == 7

/-- DFN of a fault record: of the page, or of the table frame that its walk finds absent, for a stage-2 code (R297). -/
def State.faultDfn (s : State) (domain va code : Nat) : Nat :=
  let tdom := transDomain s.homes domain va
  if code ≠ 3 ∧ code ≠ 4 then 0
  else match homeAttr s.homes tdom va with
    | .ok x => x.dfn
    | .error _ => (Tab.get s.homes.roots (tdom * 1024 + moduleOf va)).elim 0 (absentTable s.homes tdom (s1Levels va))

/-- Open or join a fault record at the VA's home: its ID; `none` while the home has 64 open records (R296). -/
def State.openRecord (s : State) (a : FaultAsk) : Option (Nat × State) :=
  let home := s.homeFor a.domain a.va
  let mine := (Tab.list s.homes.faultRecs).filter (fun e => e.2.home == home)
  match mine.find? (fun e => e.2.ctx == a.ctx && e.2.granule == a.va / 16384 && e.2.code == a.code) with
  | some e => some (e.1, s.modHomes (fun h => { h with
      faultRecs := Tab.upd h.faultRecs e.1 (fun x => { x with
        joined := min 0xFFFF (x.joined + 1), remotes := (x.remotes ++ peerOf a.ctx).dedup }) }))
  | none =>
    if 64 ≤ mine.length then none
    else
      let q := Cells.get 0 s.homes.faultSeq home
      let id := home * 65536 + q % 65536
      let r : FaultRec := {
        home := home, ctx := a.ctx, granule := a.va / 16384, code := a.code, flags := a.flags, clock := s.clock,
        partition := (match s.ctx? a.ctx with
          | some c => c.partition
          | none => (((Tab.list s.parts).find? (fun p => p.2.domain == a.domain)).map Prod.fst).getD 0),
        va := a.va, core := a.core, joined := 1, domain := a.domain, dfn := s.faultDfn a.domain a.va a.code, tag := a.tag, skein := a.skein,
        toSm := decide (a.code = 3 ∨ a.code = 4 ∨ a.code = 9), delivered := false, remotes := peerOf a.ctx }
      some (id, s.modHomes (fun h => { h with
        faultSeq := Cells.set 0 h.faultSeq home (q + 1)
        faultRecs := Tab.set h.faultRecs id (some r) }))

/-- A NACK of an access of the module's own units for a context (queues, launches, shadow blocks) opens or joins a record at its
home, as every NACK does; `none` while the access is held, or its home has no room for the record (R296). Its requester is no
core, as a remote one is none: DESIGN CHOICE (log 74). -/
def State.unitNack (s : State) (ctx domain va code flags : Nat) : Option State :=
  if code = 0x101 then none
  else if ¬ s.isLocal va ∨ code = 0x100 ∨ fatalCode code then some s
  else (s.openRecord { ctx := ctx, domain := domain, va := va, code := code, flags := flags, core := 0xFFFF, tag := 0, skein := 0 }).map
    Prod.snd

/-! ### Rights (R12, R175, R329) -/

/-- The rights of a context's key as a core holds them: bit 0 R, bit 1 W. -/
def State.keyRights (s : State) (c ctx key : Nat) : Nat :=
  match s.ctx? ctx with
  | none => 0
  | some x =>
    match x.keyWait.find? (fun e => e.1 == c && e.2.1 == key) with
    | some e => e.2.2.1
    | none => Cells.get 0 x.keys key

/-- A 16-bit vector of one right: 0 R, 1 W. -/
def State.rightsVec (s : State) (c ctx b : Nat) : Nat :=
  (List.range 16).foldl (fun v k => if bit (s.keyRights c ctx k) b then v + 2 ^ k else v) 0

/-- The generation that a context's requests carry (R12). -/
def State.genOf (s : State) (ctx : Nat) : Nat := match s.ctx? ctx with
  | some c => c.gen
  | none => 0

/-! ### Writes that wait for a held granule (R229, R233, R300, R312) -/

/-- Bytes in pieces that do not cross a 256-byte line: each with its VA. -/
def linePieces (va : Nat) (bs : List Byte) : List (Nat × List Byte) :=
  let n := 256 - va % 256
  if bs.length ≤ n then [(va, bs)] else [(va, bs.take n), (va + n, bs.drop n)]

/-- A home makes a write that it owes. One whose granule is held, or whose home has no room for its fault record, stays, and with
it the later ones of its block; one that its home refuses is dropped. -/
def State.writeOwed (s : State) (w : OwedWrite) : State :=
  let keep := s.modHomes (fun h => { h with owed := h.owed ++ [w] })
  if s.homes.owed.any (fun x => x.domain == w.domain && x.part == w.part) then keep
  else match s.modWrite w.domain w.gen w.rights 768 0 w.va w.data with
    | .ok u => u
    | .error c => (s.unitNack w.ctx w.domain w.va c 1).getD keep

/-- Make the writes that the homes owe, oldest first. -/
def State.settleOwed (s : State) : State :=
  if s.homes.owed = [] then s else s.homes.owed.foldl State.writeOwed (s.modHomes (fun h => { h with owed := [] }))

/-- Owe pieces of a block that a context's units write, and make those that nothing holds. -/
def State.owe (s : State) (ctx part : Nat) (ps : List (Nat × List Byte)) : State :=
  let put (p : Nat × List Byte) : OwedWrite :=
    { ctx := ctx, part := part, domain := s.domainOf ctx, gen := s.genOf ctx, rights := s.rightsVec 768 ctx 1, va := p.1, data := p.2 }
  (s.modHomes (fun h => { h with owed := h.owed ++ ps.map put })).settleOwed

/-! ### Event records (R346, R372) -/

/-- An event record of 64 bytes (R372). -/
def eventRecord (code sev flags src clock part ctx : Nat) (body : List Byte) : List Byte :=
  (bytesOf 2 code ++ bytesOf 1 sev ++ bytesOf 1 flags ++ bytesOf 4 src ++ bytesOf 8 clock ++ bytesOf 2 part ++
    bytesOf 2 ctx ++ body ++ List.replicate 44 0).take 64

/-- Generation, W and R rights of the context whose key 0 a queue uses; a fixed queue keeps both rights once its context
is gone. -/
def Queue.rights (s : State) (q : Queue) : Nat × Nat × Nat :=
  match s.ctx? q.ctx with
  | some c => (c.gen, Cells.get 0 c.keys 0 / 2 % 2, Cells.get 0 c.keys 0 % 2)
  | none => (Cells.get 0 s.homes.gens q.domain, if q.kind = 0 then 0 else 1, if q.kind = 0 then 0 else 1)

/-- Whether a ring has room (R341). -/
def Queue.hasRoom (q : Queue) : Bool := decide ((q.tail + 2 ^ 32 - q.head) % 2 ^ 32 < 2 ^ q.l)

/-- Write a record at the tail of a module-to-host queue (R340, R345): ERROR with ERR 2 or 3 when the write fails,
`none` while its granule is held at its home. -/
def State.ringWrite (s : State) (qn : Nat) (record : List Byte) : Option State :=
  match Tab.get s.queues qn with
  | none => some s
  | some q =>
    let r := q.rights s
    let va := q.base + q.tail % 2 ^ q.l * 64
    match s.modWrite q.domain r.1 r.2.1 768 0 va record with
    | .ok t =>
      let q' : Queue := { q with tail := (q.tail + 1) % 2 ^ 32 }
      some (({ t with queues := Tab.set t.queues qn (some { q' with state := if q'.hasRoom then .active else .stalled }) } :
        State).unitSent 224 q.domain va 64)
    | .error c =>
      let q' : Queue := { q with state := .error, err := if c = 0x100 then 3 else 2, failed := some record }
      (s.unitNack q.ctx q.domain va c 1).map (fun t => { t.spent q.base 0 with queues := Tab.set t.queues qn (some q') })

/-- Write an event queue's waiting records while its ring has room (R346). -/
def State.drainEvents : Nat → State → Nat → State
  | 0, s, _ => s
  | n + 1, s, qn =>
    match Tab.get s.queues qn with
    | none => s
    | some q =>
      match q.waiting with
      | [] => s
      | r :: rest =>
        if (q.state = .qopen ∨ q.state = .active ∨ q.state = .stalled) ∧ q.failed = none ∧ q.hasRoom then
          match State.ringWrite { s with queues := Tab.set s.queues qn (some { q with waiting := rest }) } qn r with
          | none => s
          | some t => State.drainEvents n t qn
        else s

/-- How many of its records the module holds for an event queue: 64 beyond what its ring has room for (R346). -/
def Queue.holds (q : Queue) : Nat :=
  64 + (if q.state = .error then 0 else 2 ^ q.l - (q.tail + 2 ^ 32 - q.head) % 2 ^ 32)

/-- Deliver a record to an event queue: at once, held, or dropped with LOST (R346). -/
def State.toEventQueue (s : State) (qn : Nat) (record : List Byte) : State :=
  match Tab.get s.queues qn with
  | none => s
  | some q =>
    if q.kind ≠ 3 ∨ q.state = .closed ∨ q.state = .draining then s
    else
      let record' := if q.marked then record.set 3 1 else record
      let t : State := { s with queues := Tab.set s.queues qn (some { q with
          waiting := q.waiting ++ [record'], marked := false }) }
      let u := t.drainEvents (q.waiting.length + 1) qn
      match Tab.get u.queues qn with
      | some q2 =>
        if q2.waiting.length ≤ q2.holds then u
        else { s with queues := Tab.set s.queues qn (some { q with lost := min 0xFFFF (q.lost + 1), marked := true }) }
      | none => u

/-- The event queue of a partition. -/
def State.eventQueueOf (s : State) (p : Nat) : Option Nat :=
  ((Tab.list s.queues).find? (fun e => e.2.kind == 3 && e.2.partition == p)).map Prod.fst

/-- Raise an event to the host complex (`host`) and to the event queues of some partitions (R346, R372). -/
def State.raise (s : State) (host : Bool) (code sev src : Nat) (part ctx : Option Nat) (dest : List Nat)
    (body : List Byte) : State :=
  let s1 :=
    if host then
      { s with dev := { s.dev with ring := s.dev.ring ++
          [(false, eventRecord code sev 0 src s.clock (part.getD 0xFFFF) (ctx.getD 0xFFFF) body)] } }
    else s
  dest.foldl (fun t p =>
    match t.eventQueueOf p with
    | none => t
    | some q =>
      t.toEventQueue q (eventRecord code sev 0 src s.clock (part.getD p) (ctx.getD 0xFFFF) body)) s1

/-! ### Acquire (R161) -/

/-- Whether a load entry belongs to a weft of a skein, context and grant: one whose issue could match its key (R158). -/
def ReuseEntry.loadOf (e : ReuseEntry) (k ctx g : Nat) : Bool :=
  e.isLoad && e.ctx == ctx && (!e.scratch || e.skein == k) && ((e.key.getD 2 []).headD 0 == g)

/-- The L1 group of a skein on a core (R156). -/
def State.l1Key (s : State) (k : Nat) : Nat :=
  match s.skein? k with
  | none => 0
  | some sk =>
    match s.bolt? sk.bolt with
    | some b => if b.fused then 1024 + sk.bolt else sk.core.getD 0
    | none => sk.core.getD 0

/-- Whether a request ended in a report that waits for its strand: a key denial or a discarded shadow write. -/
def Req.refused (r : Req) : Bool := r.stage == .denied || r.stage == .shadowBad

/-- An acquire waits for the loads, atomics and LDGAs of the weft, the fills of its return stack among its loads (R136,
R161); it reports an LDGA's denial (R183). -/
def acqNeed (k : Nat) (ms : List Nat) (r : Req) : Bool :=
  r.skein == k && ms.contains r.strand &&
    (r.kind == .ldga || (decide (r.kind = .load ∨ r.kind = .atomic ∨ r.kind = .fill) && !r.refused))

/-- The acquire's effects: the L1 group empties, fills asked for before are not installed (R182), the weft's held loads
die (R72), and its later loads read at or after this moment (R157). -/
def State.acquire (s : State) (k w : Nat) : State :=
  let key := s.l1Key k
  let s1 := { s with
    l1 := Cells.set [] s.l1 key []
    reqs := s.reqs.map (fun (e : Nat × Option Req) => (e.1, e.2.map (fun (r : Req) => if r.group = key then { r with noFill := true } else r))) }
  let s2 := s1.modSkein k (fun sk => { sk with
    acqs := (sk.members w).foldl (fun m i => Cells.set 0 m i s.seq) sk.acqs })
  match (s.skein? k).bind Skein.core, s.weft? k w with
  | some c, some wf => s2.modCore c (fun x => { x with reuse := x.reuse.filter (fun e => !e.loadOf k (match s.skein? k with
      | some sk => sk.ctx
      | none => 0) wf.g) })
  | _, _ => s2

/-! ### Barriers (R275 to R278) -/

/-- A strand's name in a barrier: its skein's number and its own. -/
def strandKey (k i : Nat) : Nat := k * 1024 + i

/-- The barrier of a level and number for a skein. -/
def State.barrier (s : State) (k : Nat) (bolt : Bool) (num : Nat) : Barrier :=
  match s.skein? k with
  | none => Barrier.start
  | some sk =>
    if bolt then match s.bolt? sk.bolt with
      | some b => Cells.get Barrier.start b.bars num
      | none => Barrier.start
    else Cells.get Barrier.start sk.bars num

def State.setBarrier (s : State) (k : Nat) (bolt : Bool) (num : Nat) (b : Barrier) : State :=
  match s.skein? k with
  | none => s
  | some sk =>
    if bolt then s.modBolt sk.bolt (fun x => { x with bars := Cells.set Barrier.start x.bars num b })
    else s.modSkein k (fun x => { x with bars := Cells.set Barrier.start x.bars num b })

/-- The skeins of a level. -/
def State.levelSkeins (s : State) (k : Nat) (bolt : Bool) : List Nat :=
  match s.skein? k with
  | none => []
  | some sk => if bolt then (match s.bolt? sk.bolt with
      | some b => b.skeins
      | none => [k]) else [k]

/-- The expected set: every live strand of the level (R275). -/
def State.expected (s : State) (k : Nat) (bolt : Bool) : List Nat :=
  (s.levelSkeins k bolt).flatMap (fun j => match s.skein? j with
    | some sk => sk.live.map (strandKey j)
    | none => [])

/-- The strands that wait on a barrier's generation: skein, strand, acquire, stage. -/
def State.barWaiters (s : State) (k : Nat) (bolt : Bool) (num gen : Nat) : List (Nat × Nat × Bool × Nat) :=
  (s.levelSkeins k bolt).flatMap (fun j => match s.skein? j with
    | some sk => (Tab.list sk.strands).filterMap (fun e => match e.2.status with
        | .rendezvous (.barrier bl n g acq st) =>
          if bl = bolt ∧ n = num ∧ g = gen then some (j, e.1, acq, st) else none
        | _ => none)
    | none => [])

/-- Whether every expected strand's arrival is pending. -/
def State.barComplete (s : State) (k : Nat) (bolt : Bool) (num : Nat) : Bool :=
  let b := s.barrier k bolt num
  !b.pend.isEmpty && (s.expected k bolt).all (fun x => b.pend.contains x)

/-- The acquire that follows a barrier waits for what the strands `ms` issued up to a number and has not returned; what was
denied counts as ended (R161, R183, R278). -/
def State.acqWaits (s : State) (k : Nat) (ms : List Nat) (upto : Nat) : Bool :=
  (Tab.list s.reqs).any (fun e => acqNeed k ms e.2 && !e.2.refused && decide (e.2.seq ≤ upto))

/-- A strand whose scoped wait at a barrier is over acquires for its weft and goes on, at once where nothing that the
acquire waits for is in flight. -/
def State.acquireThen (s : State) (k i : Nat) : State :=
  match s.skein? k with
  | none => s
  | some sk =>
    match sk.weftOf i with
    | none => s
    | some wf =>
      let upto := (s.core (sk.core.getD 0)).issueSeq
      if s.acqWaits k (sk.members wf.1) upto then
        s.modStrand k i (fun x => { x with status := .rendezvous (.acquire upto) })
      else (s.modStrand k i (fun x => { x.advance with status := .ready })).acquire k wf.1

/-- The acquires of a weft that have nothing left to wait for: each of its strands goes on. -/
def State.settleAcquires (s : State) : State :=
  (Tab.list s.skeins).foldl (fun t e =>
    (Tab.list e.2.strands).foldl (fun u x =>
      match x.2.status, e.2.weftOf x.1 with
      | .rendezvous (.acquire upto), some wf =>
        if u.acqWaits e.1 (e.2.members wf.1) upto then u
        else (u.modStrand e.1 x.1 (fun y => { y.advance with status := .ready })).acquire e.1 wf.1
      | _, _ => u) t) s

/-- A released waiter: continues (with its acquire), or arrives in the new generation and continues or waits. -/
def State.releaseWaiter (s : State) (bolt : Bool) (num : Nat) (w : Nat × Nat × Bool × Nat) : State :=
  let j := w.1
  let i := w.2.1
  let b := s.barrier j bolt num
  let go (t : State) : State := t.modStrand j i (fun x => { x.advance with status := .ready })
  let arrive (t : State) : State := t.setBarrier j bolt num { b with pend := b.pend ++ [strandKey j i] }
  match w.2.2.2 with
  | 0 => if w.2.2.1 then s.acquireThen j i else go s
  | 1 => arrive (go s)
  | _ => arrive (s.modStrand j i (fun x => { x with status := .rendezvous (.barrier bolt num b.gen w.2.2.1 0) }))

/-- Complete a barrier while it can be (R275): the generation flips, arrivals clear, waiters are released. -/
def State.settleBarrier : Nat → State → Nat → Bool → Nat → State
  | 0, s, _, _, _ => s
  | fuel + 1, s, k, bolt, num =>
    if s.barComplete k bolt num then
      let b := s.barrier k bolt num
      let ws := s.barWaiters k bolt num b.gen
      let s1 := s.setBarrier k bolt num { gen := b.gen + 1, pend := [] }
      State.settleBarrier fuel (ws.foldl (fun t w => t.releaseWaiter bolt num w) s1) k bolt num
    else s

/-! ### Gang kill and context faults (R271 to R273, R326, R331) -/

/-- Clear the slots of a skein on its core and free what it holds (R265, R272). DESIGN CHOICE (log 73): a SHPUB, SHABORT or
SHSTAT on its way is dropped with its skein; a SHOPEN is answered at the homes. -/
def State.freeSkein (s : State) (k : Nat) : State :=
  match s.skein? k with
  | none => s
  | some sk =>
    let s1 := match sk.core with
      | none => s
      | some c => s.modCore c (fun x => { x with
          slots := (x.slots.filter (fun e => match e.2 with
            | some b => b.skein != some k
            | none => true))
          engine := x.engine.filter (fun o => o.skein != k)
          watches := x.watches.filter (fun e => match e.2 with
            | some w => w.skein != k
            | none => true)
          reuse := x.reuse.filter (fun e => e.skein != k) })
    { s1 with
      skeins := Tab.set s1.skeins k none
      shdops := s1.shdops.filter (fun e => match e.2 with
        | some o => o.skein != k || o.kind == 0
        | none => true) }

/-- Whether a request of a killed gang lives on: sent ones take effect, held ones are discarded (R272). -/
def survives (r : Req) : Bool :=
  match r.stage with
  | .held .. => false
  | .denied => false
  | .shadowBad => false
  | _ => decide (r.kind = .store ∨ r.kind = .atomic ∨ r.kind = .rst ∨ r.kind = .spill)

/-- Halt and drop every skein of a bolt (R272). -/
def State.haltBolt (s : State) (b : Nat) : State :=
  match s.bolt? b with
  | none => s
  | some bo =>
    let s1 := { s with
      reqs := s.reqs.filter (fun e => match e.2 with
        | some r => !bo.skeins.contains r.skein || survives r
        | none => true)
      copies := s.copies.filter (fun e => match e.2 with
        | some c => !bo.skeins.contains c.skein
        | none => true) }
    let s2 := bo.skeins.foldl State.freeSkein s1
    s2.modBolt b (fun x => { x with state := .killed, skeins := [], bars := [] })

/-- The return-stack blocks of a bolt return to the pool (R135). -/
def State.freeBlocks (s : State) (b : Nat) : State :=
  match s.bolt? b with
  | none => s
  | some bo => s.modCtx bo.ctx (fun c => { c with blocks := c.blocks.filter (fun x => x.2.2 / 8 != b) })

/-- CONTEXT_FAULT for one bolt (R331). -/
def State.raiseFault (s : State) (ctx cause src strand pc boltIx skeinIx relaunches info : Nat)
    (relaunched faulted : Bool) : State :=
  let part := match s.ctx? ctx with
    | some c => c.partition
    | none => 0
  s.raise true 0x0100 2 src (some part) (some ctx) [part]
    (bytesOf 1 cause ++ bytesOf 1 ((if relaunched then 1 else 0) + (if faulted then 2 else 0)) ++ bytesOf 2 strand ++
      bytesOf 4 pc ++ bytesOf 2 boltIx ++ bytesOf 1 skeinIx ++ bytesOf 1 relaunches ++ bytesOf 8 info)

/-- Where a fault arose: source identifier, strand (0xFFFF for none), pc, skein index, TVAL or address (R331). -/
structure FaultAt where
  src : Nat
  strand : Nat
  pc : Nat
  skeinIx : Nat
  info : Nat
  deriving DecidableEq, Repr

/-- The bolts of a context that are not retired. -/
def State.boltsOf (s : State) (ctx : Nat) : List Nat :=
  (Tab.list s.bolts).filterMap (fun e => if e.2.ctx = ctx ∧ e.2.state ≠ .retired then some e.1 else none)

/-- The states from which a fault takes a context to FAULTED: bolts of it are on cores, or saved (R267, R326). -/
def CtxState.mayFault : CtxState → Bool
  | .ready => true
  | .running => true
  | .preempting => true
  | .saved => true
  | .spilled => true
  | _ => false

/-- The index of a bolt's skein on the core with a COREID. -/
def State.skeinIxOn (s : State) (bo : Bolt) (src : Nat) : Nat :=
  (bo.skeins.findSome? (fun k => (s.skein? k).bind (fun sk => if sk.core.map coreId = some src then some sk.index else none))).getD 0

/-- SKEIN in the record of a bolt that a fault kills beside the bolt it arose in: for SPAD_UE its own skein on the core, for
the other causes that name no strand what the fault names (R331). -/
def State.faultSkein (s : State) (bo : Bolt) (cause : Nat) (f : FaultAt) : Nat :=
  if cause = 0x40 then s.skeinIxOn bo f.src else if f.strand = 0xFFFF then f.skeinIx else 0

/-- The context goes to FAULTED: every bolt is killed without relaunch, each with its record (R326, R331). -/
def State.faultContext (s : State) (ctx cause : Nat) (atBolt : Option Nat) (f : FaultAt) : State :=
  match s.ctx? ctx with
  | none => s
  | some c =>
    let killed := (s.boltsOf ctx).foldl (fun t b =>
      match t.bolt? b with
      | none => t
      | some bo =>
        let own := atBolt = some b
        if bo.state = .killed then t.freeBlocks b
        else
          ((t.haltBolt b).freeBlocks b).raiseFault ctx cause f.src (if own then f.strand else 0xFFFF)
            (if own then f.pc else 0) bo.index (if own then f.skeinIx else t.faultSkein bo cause f) bo.relaunches f.info false true) s
    if c.state.mayFault then killed.modCtx ctx (fun x => { x with state := .faulted, restoring := none, spilling := none }) else killed

/-- Whether the relaunch policy allows a killed bolt another run (R273). -/
def State.mayRelaunch (s : State) (bo : Bolt) (cause : Nat) : Bool :=
  let limit := match (s.ctx? bo.ctx).bind (fun c => s.part? c.partition) with
    | some p => p.settings.relaunchLimit
    | none => 3
  let policy := match Tab.get s.launches bo.launch with
    | some l => l.kern.relaunch
    | none => 0
  let shadowsOpen := bo.shadows.all (fun n => match (s.ctx? bo.ctx).bind (fun c => Tab.get c.shadows (n % 64)) with
    | some sh => sh.state == .sopen && sh.seq % 65536 == n / 64
    | none => false)
  (cause == 0x40 || cause == 0x41 || cause == 0x42) && decide (bo.relaunches < limit) &&
    (policy == 1 || (policy == 2 && !bo.dirty && shadowsOpen))

/-- A gang-fatal fault of a bolt (R271 to R273): the kill, then the relaunch, or the context's FAULTED state. -/
def State.gangFault (s : State) (b cause : Nat) (f : FaultAt) : State :=
  match s.bolt? b with
  | none => s
  | some bo =>
    if bo.state = .killed ∨ bo.state = .retired then s
    else if s.mayRelaunch bo cause then
      let s1 := (s.haltBolt b).modBolt b (fun x => { x with
        state := .pending, relaunches := bo.relaunches + 1, dirty := false, watchdog := 0 })
      s1.raiseFault bo.ctx cause f.src f.strand f.pc bo.index f.skeinIx (bo.relaunches + 1) f.info true false
    else s.faultContext bo.ctx cause (some b) f

/-! ### Taking a trap, and returning from one (R146 to R150) -/

/-- Whether some strand of a weft is in a handler. DESIGN CHOICE (log 72): one that exits inside its handler is not. -/
def Skein.someActive (sk : Skein) (base : Nat) : Bool :=
  (sk.members base).any (fun i => match Tab.get sk.strands i with
    | some t => t.active && t.live
    | none => false)

/-- A strand's handler entry (R148). -/
def Strand.enter (t : Strand) (cause : Nat) (val pc : Word) : Strand :=
  { t with tpc := pc, tcause := BitVec.ofNat 8 cause, tval := val, active := true, pc := t.trapvec, status := .ready,
           hold := none }

/-- An unhandled or double trap: the context faults (R148, R331). -/
def State.trapFault (s : State) (k i cause : Nat) (val pc : Word) : State :=
  match s.skein? k with
  | none => s
  | some sk =>
    s.faultContext sk.ctx cause (some sk.bolt)
      { src := coreId (sk.core.getD 0), strand := i, pc := pc.toNat, skeinIx := sk.index, info := val.toNat }

/-- Enter(S) (R148): the strands of a weft that trap at one instruction, at a pc. A strand with no handler, or already
in one, faults the context; while another strand of the weft is in a handler, they are held (R150). Floating traps
that are not taken never come here (R34). -/
def State.takeTraps (s : State) (k w : Nat) (pc : Word) (ts : List TrapReq) : State :=
  match s.skein? k with
  | none => s
  | some sk =>
    match ts.find? (fun r => match Tab.get sk.strands r.strand with
        | some t => t.active || t.trapvec == 0xFFFFFFFF
        | none => false) with
    | some r => s.trapFault k r.strand r.cause r.val pc
    | none =>
      if sk.someActive w then
        let s1 := { s with seq := s.seq + 1 }
        ts.foldl (fun t r => t.modStrand k r.strand (fun x =>
          { x with status := .traphold r.cause r.val pc s.seq, pc := pc, hold := none })) s1
      else
        match ts.findSome? (fun r => match Tab.get sk.strands r.strand with
            | some t => if pcOk sk.kern t.trapvec.toNat then none else some (r.strand, t.trapvec)
            | none => none) with
        | some r => s.trapFault k r.1 0x09 r.2 pc
        | none =>
          let s1 := s.modWeft k w (fun x => { x with tmask := laneMask w (ts.map TrapReq.strand) })
          ts.foldl (fun t r => t.modStrand k r.strand (fun x => x.enter r.cause r.val pc)) s1

/-- The held groups of a weft: the lowest order number among its TRAPHOLD strands (R150). -/
def Skein.oldestHeld (sk : Skein) (base : Nat) : Option Nat :=
  (sk.members base).foldl (fun m i => match Tab.get sk.strands i with
    | some t => match t.status with
      | .traphold _ _ _ o => some (match m with
        | some x => min x o
        | none => o)
      | _ => m
    | none => m) none

/-- When no strand of the weft is in a handler, the oldest held group enters (R150). -/
def State.releaseHeld (s : State) (k w : Nat) : State :=
  match s.skein? k with
  | none => s
  | some sk =>
    if sk.someActive w then s
    else match sk.oldestHeld w with
      | none => s
      | some o =>
        let grp := (sk.members w).filterMap (fun i => match Tab.get sk.strands i with
          | some t => match t.status with
            | .traphold c v pc o' => if o' = o then some (({ strand := i, cause := c, val := v } : TrapReq), pc) else none
            | _ => none
          | none => none)
        match grp with
        | [] => s
        | g :: _ => s.takeTraps k w g.2 (grp.map Prod.fst)

/-- One strand's return: its target, or a double trap where R40 rejects it (R149). -/
def State.trapReturn (s : State) (k w : Nat) (rs : List (Nat × Nat)) : State :=
  match s.skein? k with
  | none => s
  | some sk =>
    match rs.find? (fun r => !pcOk sk.kern r.2) with
    | some r =>
      match Tab.get sk.strands r.1 with
      | some t => s.trapFault k r.1 0x09 (BitVec.ofNat 32 r.2) t.pc
      | none => s
    | none =>
      (s.modStrands k (rs.map Prod.fst) (fun i t => { t with
        active := false
        pc := BitVec.ofNat 32 (match rs.find? (fun r => r.1 == i) with
          | some r => r.2
          | none => t.pc.toNat) })).releaseHeld k w

end Sys2Proof.Machine
end

