-- ==== Sys2Proof/Machine/Operands.lean ====
section
/-! DEFINITION. Machine/Operands.lean: which registers a word names (R45, R50), the conditions of its encoding (R52 to
R54, R62, R236), the reuse table (R66 to R73), the wait for a request that an instruction needs (R183), and how a word
acts on the strands of its issue set (R42, R82). -/

namespace Sys2Proof.Machine

/-- The outcome of a step. -/
abbrev Out := Host.Outcome State Fault Refusal

/-! ### The registers a word names (R45, R46, R50) -/

/-- The vector registers a word reads and writes, the predicates it reads beside its guard, its guard (7 where it has
none), and whether it reads K. -/
structure RegUse where
  src : List Nat
  dst : List Nat
  prd : List Nat
  g : Nat
  k : Bool
  deriving DecidableEq, Repr

/-- The words of a pair. -/
def prs (r : VReg) : List Nat := [r.toNat, r.toNat + 1]
/-- The eight registers of a descriptor. -/
def oct (r : VReg) : List Nat := (List.range 8).map (r.toNat + ·)
/-- How many registers a size code names (R46). -/
def szCount (z : Nat) : Nat := if z = 6 then 4 else if z = 5 then 2 else 1
/-- The data registers of a size code. -/
def szs (z : BitVec 3) (r : VReg) : List Nat := (List.range (szCount z.toNat)).map (r.toNat + ·)

/-- R50's operand kinds, of every word; an event names no register. -/
def Instr.use : Instr → RegUse
  | .nop =>
    ⟨[], [], [], 7, false⟩
  | .add _ g d a b | .sub _ g d a b | .mul _ g d a b | .mulh _ g d a b | .mulhu _ g d a b | .and _ g d a b
  | .or _ g d a b | .xor _ g d a b | .andn _ g d a b | .shl _ g d a b | .shr _ g d a b | .sar _ g d a b
  | .min _ g d a b | .max _ g d a b | .minu _ g d a b | .maxu _ g d a b | .addsat _ g d a b | .subsat _ g d a b
  | .addsatu _ g d a b | .subsatu _ g d a b | .div _ g d a b | .divu _ g d a b | .rem _ g d a b | .remu _ g d a b
  | .absdiff _ g d a b | .pkh _ g d a b | .pkb _ g d a b | .atsAdd _ g d a b | .atsMin _ g d a b | .atsMax _ g d a b
  | .atsMinu _ g d a b | .atsMaxu _ g d a b | .atsAnd _ g d a b | .atsOr _ g d a b | .atsXor _ g d a b
  | .atsXchg _ g d a b | .atsFadd _ g d a b | .atsFmin _ g d a b | .atsFmax _ g d a b =>
    ⟨[a.toNat, b.toNat], [d.toNat], [], g.toNat, b == 63⟩
  | .popc _ g d a | .clz _ g d a | .ctz _ g d a | .brev _ g d a | .abs _ g d a | .neg _ g d a | .ftoi _ g d a
  | .ftoiz _ g d a | .ftou _ g d a | .itof _ g d a | .utof _ g d a | .xthl _ g d a | .xthh _ g d a | .xtbl _ g d a
  | .xtbh _ g d a | .frnd _ g d a | .frndz _ g d a | .mov _ g d a | .shstat _ g d a =>
    ⟨[a.toNat], [d.toNat], [], g.toNat, false⟩
  | .add64 _ g d a b | .sub64 _ g d a b | .and64 _ g d a b | .or64 _ g d a b | .xor64 _ g d a b | .atg64Add _ g d a b
  | .atg64Minu _ g d a b | .atg64Maxu _ g d a b | .atg64And _ g d a b | .atg64Or _ g d a b | .atg64Xor _ g d a b
  | .atg64Xchg _ g d a b =>
    ⟨prs a ++ prs b, prs d, [], g.toNat, b == 63⟩
  | .shl64 _ g d a b | .shr64 _ g d a b | .sar64 _ g d a b | .addw _ g d a b | .addws _ g d a b | .lea2 _ g d a b
  | .lea4 _ g d a b | .lea8 _ g d a b | .lea16 _ g d a b =>
    ⟨prs a ++ [b.toNat], prs d, [], g.toNat, b == 63⟩
  | .mulw _ g d a b | .mulwu _ g d a b =>
    ⟨[a.toNat, b.toNat], prs d, [], g.toNat, b == 63⟩
  | .addi _ g d a _ | .andi _ g d a _ | .ori _ g d a _ | .xori _ g d a _ | .shli _ g d a _ | .shri _ g d a _
  | .sari _ g d a _ | .roli _ g d a _ | .rcp _ g d a _ | .rsq _ g d a _ | .sqrt _ g d a _ | .exp2 _ g d a _
  | .log2 _ g d a _ | .sinpi _ g d a _ | .cospi _ g d a _ | .tanh _ g d a _ | .xt4 _ g d a _ | .rediIadd _ g d a _
  | .rediImin _ g d a _ | .rediImax _ g d a _ | .rediUmin _ g d a _ | .rediUmax _ g d a _ | .rediAnd _ g d a _
  | .rediOr _ g d a _ | .rediXor _ g d a _ | .redfFaddt _ g d a _ | .redfFadds _ g d a _ | .redfFmin _ g d a _
  | .redfFmax _ g d a _ | .redfScani _ g d a _ | .redfScanf _ g d a _ | .redfScanx _ g d a _ =>
    ⟨[a.toNat], [d.toNat], [], g.toNat, false⟩
  | .movi _ g d _ | .nget _ g d _ | .cwaitQuery _ g d _ | .mfs _ g d _ =>
    ⟨[], [d.toNat], [], g.toNat, false⟩
  | .movhi _ g d _ =>
    ⟨[d.toNat], [d.toNat], [], g.toNat, false⟩
  | .add64i _ g d a _ =>
    ⟨prs a, prs d, [], g.toNat, false⟩
  | .icmp _ g _ _ a b _ =>
    ⟨[a.toNat, b.toNat], [], [], g.toNat, b == 63⟩
  | .fcmp _ g _ _ a b _ _ =>
    ⟨[a.toNat, b.toNat], [], [], g.toNat, b == 63⟩
  | .sel _ s d a b =>
    ⟨[a.toNat, b.toNat], [d.toNat], [s.toNat], 7, b == 63⟩
  | .pand _ g _ a b | .por _ g _ a b | .pxor _ g _ a b | .pandn _ g _ a b =>
    ⟨[], [], [a.toNat, b.toNat], g.toNat, false⟩
  | .pnot _ g _ a | .pmov _ g _ a =>
    ⟨[], [], [a.toNat], g.toNat, false⟩
  | .ptov _ g d a =>
    ⟨[], [d.toNat], [a.toNat], g.toNat, false⟩
  | .vtop _ g _ a | .nset _ g _ a | .nadv _ g _ a =>
    ⟨[a.toNat], [], [], g.toNat, false⟩
  | .fadd _ g d a b _ | .fsub _ g d a b _ | .fmul _ g d a b _ | .fdiv _ g d a b _ | .fmin _ g d a b _
  | .fmax _ g d a b _ | .fcopysign _ g d a b _ | .fscale _ g d a b _ | .shfl _ g d a b _ | .shflx _ g d a b _
  | .shflu _ g d a b _ | .shfld _ g d a b _ | .bcast _ g d a b _ =>
    ⟨[a.toNat, b.toNat], [d.toNat], [], g.toNat, b == 63⟩
  | .fma _ g d a b _ | .fms _ g d a b _ | .fnma _ g d a b _ | .fnms _ g d a b _ =>
    ⟨[a.toNat, b.toNat, d.toNat], [d.toNat], [], g.toNat, b == 63⟩
  | .hadd _ g d a b _ _ | .hsub _ g d a b _ _ | .hmul _ g d a b _ _ =>
    ⟨[a.toNat, b.toNat], [d.toNat], [], g.toNat, b == 63⟩
  | .hfma _ g d a b _ _ =>
    ⟨[a.toNat, b.toNat, d.toNat], [d.toNat], [], g.toNat, b == 63⟩
  | .pk8 _ g d a _ _ _ =>
    ⟨[a.toNat, d.toNat], [d.toNat], [], g.toNat, false⟩
  | .xt8 _ g d a _ _ =>
    ⟨[a.toNat], [d.toNat], [], g.toNat, false⟩
  | .pk4 _ g d a _ _ =>
    ⟨[a.toNat, d.toNat], [d.toNat], [], g.toNat, false⟩
  | .rdx _ g d _ _ =>
    ⟨[], [d.toNat], [], g.toNat, false⟩
  | .wrx _ g d _ _ =>
    ⟨[d.toNat], [], [], g.toNat, false⟩
  | .nclr _ g _ | .fenceRel _ g _ | .fenceAcq _ g _ | .fencePhase _ g _ | .cwait _ g _ =>
    ⟨[], [], [], g.toNat, false⟩
  | .vote _ g _ _ a _ =>
    ⟨[], [], [a.toNat], g.toNat, false⟩
  | .count _ g d a _ | .rank _ g d a _ =>
    ⟨[], [d.toNat], [a.toNat], g.toNat, false⟩
  | .setw _ _ _ _ =>
    ⟨[], [], [], 7, false⟩
  | .slice _ =>
    ⟨[], [], [], 7, false⟩
  | .wsync _ g | .trigger _ g | .fenceDrain _ g | .cwaitAll _ g | .spscrub _ g =>
    ⟨[], [], [], g.toNat, false⟩
  | .br g _ | .call g _ | .split g _ | .trap g _ =>
    ⟨[], [], [], g.toNat, false⟩
  | .join g | .ret g | .exit g | .tret g | .tretr g | .yield g | .breakp g =>
    ⟨[], [], [], g.toNat, false⟩
  | .brx g a | .callx g a | .waitt g a =>
    ⟨[a.toNat], [], [], g.toNat, false⟩
  | .watch _ g d a b _ =>
    ⟨[d.toNat] ++ prs a ++ [b.toNat], [d.toNat], [], g.toNat, b == 63⟩
  | .barSync _ _ _ _ _ | .barArrive _ _ _ _ _ | .barWait _ _ _ _ _ =>
    ⟨[], [], [], 7, false⟩
  | .launch _ g d a | .launchb _ g d a =>
    ⟨prs a, [d.toNat], [], g.toNat, false⟩
  | .ldg _ g d a o z _ _ =>
    ⟨prs a, szs z d, [], g.toNat, o == 15⟩
  | .stg _ g d a o z _ _ =>
    ⟨szs z d ++ prs a, [], [], g.toNat, o == 15⟩
  | .lds _ g d a o z _ _ =>
    ⟨[a.toNat], szs z d, [], g.toNat, o == 15⟩
  | .sts _ g d a o z _ _ =>
    ⟨szs z d ++ [a.toNat], [], [], g.toNat, o == 15⟩
  | .atgAdd _ g d a b | .atgMin _ g d a b | .atgMax _ g d a b | .atgMinu _ g d a b | .atgMaxu _ g d a b
  | .atgAnd _ g d a b | .atgOr _ g d a b | .atgXor _ g d a b | .atgXchg _ g d a b | .atgFadd _ g d a b
  | .atgFmin _ g d a b | .atgFmax _ g d a b | .atgHadd2 _ g d a b | .atgIncw _ g d a b =>
    ⟨prs a ++ [b.toNat], [d.toNat], [], g.toNat, b == 63⟩
  | .atgCas _ g d a b =>
    ⟨prs a ++ [b.toNat, d.toNat], [d.toNat], [], g.toNat, b == 63⟩
  | .atg64Cas _ g d a b =>
    ⟨prs a ++ prs b ++ prs d, prs d, [], g.toNat, b == 63⟩
  | .atsCas _ g d a b =>
    ⟨[a.toNat, b.toNat, d.toNat], [d.toNat], [], g.toNat, b == 63⟩
  | .ldga _ g d a o z _ =>
    ⟨prs a, szs z d, [], g.toNat, o == 15⟩
  | .prefL1 _ g a o _ | .prefL2 _ g a o _ =>
    ⟨prs a, [], [], g.toNat, o == 15⟩
  | .cpyG2s _ g a _ | .cpyS2g _ g a _ | .cpyS2s _ g a _ | .cpyG2g _ g a _ | .cpyS2sm _ g a _ =>
    ⟨oct a, [], [], g.toNat, false⟩
  | .shopen _ g d a =>
    ⟨oct a, [d.toNat], [], g.toNat, false⟩
  | .shpub _ g a | .shabort _ g a | .spretire _ g a =>
    ⟨[a.toNat], [], [], g.toNat, false⟩
  | .raddF32 _ g a b | .raddBf16x2 _ g a b | .raddI32 _ g a b | .rmaxF32 _ g a b | .mst _ g a b =>
    ⟨prs a ++ [b.toNat], [], [], g.toNat, b == 63⟩
  | .mma _ _ a b _ _ | .mmat _ _ a b _ _ | .mmas _ _ a b _ _ =>
    ⟨[a.toNat, b.toNat], [], [], 7, false⟩
  | .mzero _ _ | .mchk _ _ =>
    ⟨[], [], [], 7, false⟩
  | .mload _ _ a =>
    ⟨[a.toNat], [], [], 7, false⟩
  | .mdrain _ _ a _ =>
    ⟨[a.toNat], [], [], 7, false⟩
  | .mts _ g a _ =>
    ⟨[a.toNat], [], [], g.toNat, false⟩
  | .spstat _ g d =>
    ⟨[], [d.toNat], [], g.toNat, false⟩
  | .activeSetEntry _ _ | .activeSetTimeout _ _ | .pathwaitTimeout _ _ _ | .joinTimeout _ _ _ | .sliceTimeout _ _
  | .waittDeadline _ _ | .loadReply _ _ _ | .atomicReply _ _ | .ldgaWrite _ _ _ | .storeAck _ _ | .rstAck _ _
  | .wcAgeExpiry _ _ | .wakePacket _ _ _ | .watchTimeout _ _ _ | .copyChunk _ _ | .copyRetire _ | .copyNack _ _ _
  | .copyViolation _ _ | .engineOpStart _ | .engineOpDone _ | .parityApply _ _ | .rebuildComplete _ _
  | .scrubPass _ _ _ | .spscrubComplete _ _ | .bindRecordWrite _ _ _ | .boltStart _ _ _ _ | .skeinEnd _
  | .haltComplete _ | .abandonTimeout _ | .contextSaveComplete _ | .imageSpillStart _ | .spillComplete _
  | .restoreComplete _ | .watchdog _ | .homeRequest _ | .faultRecordDelivery _ | .moveComplete _ _
  | .recodingComplete _ _ | .filterInvalidation _ _ _ | .filterAck _ _ _ | .shadowOpenRequest _ _ | .shadowWrite _
  | .shpubArrival _ | .publishPrepare _ _ _ | .publishCommit _ _ | .publishAbort _ _ | .replicaTimeout _ _
  | .poolExtentWithdrawal _ _ _ _ | .poolInflightTimeout _ | .backInvalidate _ _ | .readyToken _ _ _
  | .startToken _ _ | .doorbell _ _ | .qreset _ _ | .launchCmd _ | .evset _ | .evclear _ | .evread _ | .cancel _
  | .build _ | .contextBuilt _ | .destroy _ | .setkeys _ | .setroot _ | .ringset _ | .qopen _ | .qclose _
  | .replay _ _ | .tinval _ | .protect _ | .attest _ _ | .rspool _ | .carve _ _ | .uncarve _ _ | .partset _ _ _ _ _
  | .preempt _ _ _ | .restore _ _ | .migrate _ _ _ | .tiermove _ _ _ _ | .compress _ _ | .expand _ _
  | .extentGrant _ _ _ | .extentWithdraw _ | .genbump _ | .meterIntervalEnd _ | .tokenArrival _ _
  | .flitReceive _ _ _ _ | .flitReplayTimeout _ _ | .rotationStep _ _ | .retrainDone _ _ _ _
  | .shadowCalibrationDone _ _ | .loomLossOfLight _ _ | .portTraining _ _ _ | .portDown _ | .portUp _
  | .fabricResponseTimeout _ | .hostMmioViolation _ _ | .capcfgWrite _ _ _ | .registerWrite _ _ | .powerOverLimit _
  | .readring | .pwrcap _ _ | .reset _ | .setopkey _ _ | .resetRelease _ | .partitionReady _ | .shdReply _
  | .instructionFetchReply _ | .captureSample _ _ | .fabricLaneWeak _ _ | .fabricLaneLost _ _
  | .keyTableUpdateApplied _ _ | .walkComplete _ =>
    ⟨[], [], [], 7, false⟩

/-! ### The encoding traps of one word (R51 to R54, R62, R236) -/

/-- The encodings that Helek 3.1 adds (R53). -/
def Instr.newIn31 : Instr → Bool
  | .mma _ _ _ _ x y => x == 4 || y == 4
  | .mmat _ _ _ _ x y => x == 4 || y == 4
  | .mmas _ _ _ _ x y => x == 4 || y == 4
  | .mdrain _ _ _ f => f == 5
  | .pk4 .. => true
  | .xt4 .. => true
  | .wsync .. => true
  | .setw _ _ _ l => l == 1
  | .atgIncw .. => true
  | .rmaxF32 .. => true
  | _ => false

/-- The tile a word names. -/
def Instr.tile? : Instr → Option Nat
  | .mma _ t _ _ _ _ => some t.toNat
  | .mmat _ t _ _ _ _ => some t.toNat
  | .mmas _ t _ _ _ _ => some t.toNat
  | .mzero _ t => some t.toNat
  | .mload _ t _ => some t.toNat
  | .mdrain _ t _ _ => some t.toNat
  | .mchk _ t => some t.toNat
  | _ => none

/-- A register number that lies at or above .vregs (R62), a tile at or above .tiles (R236), or an encoding a 3.0 object
does not have (R53): ILLEGAL. -/
def illegalFor (kern : Kernel) (i : Instr) : Bool :=
  ((Instr.use i).src ++ (Instr.use i).dst).any (fun r => decide (r < 63 ∧ kern.vregs ≤ r)) ||
  (decide (kern.minor = 0) && Instr.newIn31 i) ||
  (match Instr.tile? i with
    | some t => decide (kern.tiles ≤ t)
    | none => false)

/-- The privileged encodings (R52). -/
def Instr.privileged : Instr → Bool
  | .spretire .. => true
  | .mfs _ _ _ n => decide (0x200 ≤ n.toNat ∧ n.toNat < 0x400)
  | .mts _ _ _ n => decide (0x200 ≤ n.toNat ∧ n.toNat < 0x400)
  | _ => false

/-- The assigned special registers (R76, R328). -/
def srAssigned (n : Nat) : Bool :=
  decide (n ≤ 0x020 ∨ (0x021 ≤ n ∧ n ≤ 0x026) ∨ n = 0x028 ∨ n = 0x029 ∨ n = 0x030 ∨ n = 0x040 ∨ n = 0x041 ∨
    (0x080 ≤ n ∧ n ≤ 0x089) ∨ (0x200 ≤ n ∧ n ≤ 0x203) ∨ (0x208 ≤ n ∧ n ≤ 0x20A) ∨ (0x210 ≤ n ∧ n ≤ 0x222))

/-- The special registers an MTS may write (R76, R328). -/
def srWritable (n : Nat) : Bool :=
  decide (n = 0x004 ∨ n = 0x010 ∨ n = 0x011 ∨ n = 0x012 ∨ (0x014 ≤ n ∧ n ≤ 0x017) ∨ n = 0x020 ∨
    (0x208 ≤ n ∧ n ≤ 0x20A) ∨ (0x210 ≤ n ∧ n ≤ 0x220))

/-- BAD_SR (R76, R81). -/
def Instr.badSr : Instr → Bool
  | .mfs _ _ _ n => !srAssigned n.toNat
  | .mts _ _ _ n => !srWritable n.toNat
  | _ => false

/-- The encoding trap of a single word, in R54's order: its cause. -/
def wordTrap (kern : Kernel) (priv : Bool) (i : Instr) : Option Nat :=
  if illegalFor kern i then some 0x01
  else if Instr.privileged i && !priv then some 0x03
  else if Instr.badSr i then some 0x0A
  else none

/-- The pipe of a major: 0 I, 1 F, 2 X, 3 M, 4 T (R47). -/
def pipeOf (major : Nat) : Nat :=
  if major ≤ 0x0C ∨ major = 0x0E ∨ major = 0x0F ∨ major = 0x16 ∨ major = 0x17 then 0
  else if major = 0x0D ∨ (0x10 ≤ major ∧ major ≤ 0x15) then 1
  else if 0x28 ≤ major ∧ major ≤ 0x35 then 3
  else if 0x38 ≤ major ∧ major ≤ 0x3B then 4
  else 2

/-- The major of a word. -/
def majorOf (w : Word) : Nat := fld w.toNat 30 25

/-- The instruction of a word whatever its C bit: a control transfer that chains is judged in the second loop of R54. -/
def decodeUnchained (w : Word) : Except Reject Instr :=
  match decodeWord w with
  | .error .chainedTransfer => decodeWord (w &&& 0x7FFFFFFF#32)
  | r => r

/-- The second loop of R54: the words with their slots, the majors that stand earlier, and the word before. -/
def chainLoop : List (Nat × Word) → List Nat → Option Word → Option Word
  | [], _, _ => none
  | (slot, w) :: t, seen, prev =>
    if w.getLsbD 31 ∧ (slot = 2 ∨ isTransferWord w.toNat) then some w
    else match prev with
      | none => chainLoop t [pipeOf (majorOf w)] (some w)
      | some p =>
        if w = 0 then some p
        else if seen.contains (pipeOf (majorOf w)) then some w
        else chainLoop t (pipeOf (majorOf w) :: seen) (some w)

/-- DecodeChain (R54) over the words of a chain with their slots: the cause and the word of TVAL. -/
def chainTrap (kern : Kernel) (priv : Bool) (ws : List (Nat × Word)) : Option (Nat × Word) :=
  match ws.find? (fun e => match decodeUnchained e.2 with
      | .ok i => illegalFor kern i
      | .error _ => true) with
  | some e => some (0x01, e.2)
  | none =>
    match chainLoop ws [] none with
    | some w => some (0x02, w)
    | none =>
      ws.findSome? (fun e => match decodeUnchained e.2 with
        | .ok i => (wordTrap kern priv i).map (fun c => (c, e.2))
        | .error _ => none)

/-! ### The issue set (R42, R130) -/

/-- The strands of the issue set with their records. -/
def State.issueSet (s : State) : List (Nat × Strand) :=
  s.cur.strands.filterMap (fun i => (s.strand? s.cur.skein i).map (fun t => (i, t)))

/-- The strands of the issue set whose guard is true. -/
def State.active (s : State) (g : Nat) : List Nat :=
  (s.issueSet.filter (fun e => e.2.rpr g)).map Prod.fst

/-- The guard as an instruction's field. -/
def State.acting (s : State) (g : BitVec 3) : List Nat := s.active g.toNat

/-! ### Waiting for requests (R183) -/

/-- What an instruction that needs some requests to have ended meets. -/
inductive Wait where
  | clear
  | stall
  /-- A held request: its fault record. -/
  | park (rec : Nat)
  /-- The first denied or discarded request of each strand that acts: its number, and the trap it makes. -/
  | deny (ts : List (Nat × TrapReq))
  deriving DecidableEq, Repr

/-- The first of some reports for each strand. -/
def firstReports : List Nat → List (Nat × TrapReq) → List (Nat × TrapReq)
  | _, [] => []
  | seen, e :: rest =>
    if seen.contains e.2.strand then firstReports seen rest else e :: firstReports (e.2.strand :: seen) rest

/-- R183's wait on the requests that `need` picks, for the strands `act` that are still in the issue set. -/
def State.waitOn (s : State) (act : List Nat) (need : Req → Bool) : Wait :=
  let rs := (Tab.list s.reqs).filter (fun e => need e.2)
  match rs.findSome? (fun e => match e.2.stage with
      | .held _ rec => some rec
      | _ => none) with
  | some rec => .park rec
  | none =>
    if rs.any (fun e => !e.2.refused) then .stall
    else match firstReports [] ((rs.filter (fun e => act.contains e.2.strand && s.cur.strands.contains e.2.strand)).map
        (fun e => (e.1, ({ strand := e.2.strand, cause := if e.2.stage = .denied then 0x24 else 0x38,
                           val := BitVec.ofNat 32 e.2.va } : TrapReq)))) with
      | [] => .clear
      | ts => .deny ts

/-- Park the strands of the issue set at this instruction on a NACK (R183). -/
def State.parkAll (s : State) (rec : Nat) : State :=
  (s.modStrands s.cur.skein s.cur.strands (fun _ t => { t with status := .parked (.nack rec s.clock) })).count s.cur.skein 5 1

/-- What a word's attempt gives: whether it issued, and the state. A word that waits at issue has not issued. -/
abbrev Attempt := Bool × State

/-- Strands of the issue set trap at the current word, together with those to which it has reported a denial (R148,
R176). -/
def State.trapHere (s : State) (ts : List TrapReq) : State :=
  let t : State := { s with cur := { s.cur with denied := [] } }
  t.takeTraps s.cur.skein s.cur.weft s.cur.pc (s.cur.denied ++ ts)

/-- Run `body` once the requests that `need` picks have ended (R183). Strands whose requests were denied leave the issue
set; a later denial of the same strand is reported when the word issues again. -/
def State.waiting (s : State) (act : List Nat) (need : Req → Bool) (body : State → Attempt) : Attempt :=
  match s.waitOn act need with
  | .clear => body s
  | .stall => (false, s)
  | .park rec => (true, s.parkAll rec)
  | .deny ts =>
    let hit := ts.map (fun e => e.2.strand)
    let s1 := { s with
      reqs := s.reqs.filter (fun e => !(ts.map Prod.fst).contains e.1)
      cur := { s.cur with
        strands := s.cur.strands.filter (fun i => !hit.contains i), denied := s.cur.denied ++ ts.map Prod.snd } }
    let r := if s1.cur.strands.isEmpty then (true, s1) else body s1
    if r.1 then r else (false, s)

/-- LDGA requests in flight to a register that the instruction names, of a strand that acts (R75, R183). -/
def ldgaOn (k : Nat) (act : List Nat) (regs : List Nat) (r : Req) : Bool :=
  r.kind == .ldga && r.skein == k && act.contains r.strand &&
    (List.range (szCount r.sz)).any (fun j => regs.contains (r.reg + j) && decide (r.reg + j < 63))

/-! ### A word's frame (R54, R75, R79, R369) -/

/-- Whether the skein runs at S privilege: its context does (R325), and no kernel submitted its launch (R319). -/
def State.privOf (s : State) (sk : Skein) : Bool :=
  (match s.ctx? sk.ctx with
    | some c => c.priv
    | none => false) &&
  (match (s.bolt? sk.bolt).bind (fun b => Tab.get s.launches b.launch) with
    | some l => !l.device
    | none => true)

/-- A word that waits has not issued: the age of its group, the chain it continues and the watchdog of its bolt are what
they were before the grouping stage picked it (R130, R268, R274, log 9). -/
def State.unissued (s : State) : State :=
  match s.cur.before, s.skein? s.cur.skein with
  | some b, some sk =>
    (s.modWeft s.cur.skein s.cur.weft (fun x => { x with
      entries := x.entries.map (fun e => if e.pc = s.cur.pc then { e with lastIssue := b.age } else e)
      chain := b.chain, issuedAt := b.issuedAt })).modBolt sk.bolt (fun x => { x with watchdog := b.watchdog })
  | _, _ => s

/-- The weft issues nothing but the word at this PC, until it issues (R219, R225, R249). -/
def State.alone (s : State) : State :=
  s.modWeft s.cur.skein s.cur.weft (fun w => { w with solo := some ((w.solo.filter (fun x => x.1 == s.cur.pc)).getD (s.cur.pc, s.nextId)) })
/-- The weft no longer waits alone. -/
def State.unalone (s : State) : State := s.modWeft s.cur.skein s.cur.weft (fun w => { w with solo := none })

/-- The register an index register and an offset reach (R64, R109): valid inside the window and below .vregs. -/
def indexReg (kern : Kernel) (t : Strand) (n : BitVec 2) (o : BitVec 6) : Int × Bool :=
  let x := (t.rn n.toNat).toNat
  let e := signed 8 (bits x 7 0) + o.toInt
  (e, decide ((bits x 13 8 : Int) ≤ e ∧ e ≤ (bits x 19 14 : Int) ∧ e < (kern.vregs : Int)))

/-- The registers that a word reads in a strand: those it names, and the one that RDX reaches (R64, R109). -/
def Instr.reads (sk : Skein) (t : Strand) (i : Instr) : List Nat :=
  (Instr.use i).src ++ (match i with
    | .rdx _ _ _ n o => let r := indexReg sk.kern t n o; if r.2 then [r.1.toNat] else []
    | _ => [])

/-- A strand that acts and reads a register word that can no longer be corrected (R367). -/
def State.readsBad (s : State) (sk : Skein) (act : List Nat) (i : Instr) : Option Nat :=
  act.find? (fun j => (s.strand? s.cur.skein j).elim false (fun t =>
    t.bad != [] && (Instr.reads sk t i).any (fun r => Cells.get false t.bad r)))

/-- An uncorrectable register word is read: MEM_POISON, fatal to the gang (R369). -/
def State.registerLost (s : State) (sk : Skein) (j : Nat) : State :=
  s.gangFault sk.bolt 0x42
    { src := coreId (sk.core.getD 0), strand := j, pc := s.cur.pc.toNat, skeinIx := sk.index, info := 0 }

/-- Whether a word makes memory accesses of its weft: the memory and tile pipes (R47), the return stack (R136), WATCH, and
the reads of a LAUNCH. -/
def Instr.accesses : Instr → Bool
  | .call _ _ | .callx _ _ | .ret _ | .watch _ _ _ _ _ _ | .launch _ _ _ _ | .launchb _ _ _ _ => true
  | i => match encodeNat i with
    | some w => decide (3 ≤ pipeOf (fld w 30 25))
    | none => false

/-- Whether the acquire of a scoped BAR of the current weft is still to complete: no later access of the weft issues before
(R161, R278). -/
def State.acquirePending (s : State) (sk : Skein) : Bool :=
  (sk.members s.cur.weft).any (fun i => (Tab.get sk.strands i).elim false (fun t => match t.status with
    | .rendezvous (.acquire _) => true
    | _ => false))

/-- The denials that no trap of the word has taken along (R183). -/
def State.reportDenied (s : State) : State := if s.cur.denied = [] then s else s.trapHere []

/-- A word acts in the current issue: its encoding trap, taken by the whole issue set; the wait for an asynchronous
write to a register it names; else `body`. PMC_ISSUE counts a word that issued. -/
def State.word (s : State) (i : Instr) (body : Skein → State → Attempt) : Out :=
  match s.skein? s.cur.skein with
  | none => .next s
  | some sk =>
    match wordTrap sk.kern (s.privOf sk) i with
    | some cause =>
      .next (s.takeTraps s.cur.skein s.cur.weft s.cur.pc
        (s.cur.strands.map (fun j => { strand := j, cause := cause, val := s.cur.word })))
    | none =>
      let act := s.active (Instr.use i).g
      let r := if Instr.accesses i && s.acquirePending sk then (false, s) else
        s.waiting act (ldgaOn s.cur.skein act ((Instr.use i).src ++ (Instr.use i).dst)) (fun t =>
          match t.readsBad sk act i with
          | some j => (true, t.registerLost sk j)
          | none => body sk t)
      .next (if r.1 then r.2.reportDenied.count s.cur.skein 0 1 else r.2.unissued)

/-! ### Lanes (R42, R82) -/

/-- What a word does in one strand: done, done with a flag raised (Q = 0), or a trap of the strand. -/
inductive LaneOut where
  | ok (t : Strand)
  | flagged (t : Strand)
  | trap (t : Strand) (cause : Nat) (val : Word)
  deriving DecidableEq, Repr

/-- The strand after the word: at the next PC, or, where it traps, at this one. -/
def LaneOut.strand : LaneOut → Strand
  | .ok t => t.advance
  | .flagged t => t.advance
  | .trap t _ _ => t

/-- The trap of a strand. -/
def LaneOut.trap? (i : Nat) : LaneOut → Option TrapReq
  | .trap _ c v => some { strand := i, cause := c, val := v }
  | _ => none

/-- Whether the strand neither trapped nor raised a flag (R71). -/
def LaneOut.quiet : LaneOut → Bool
  | .ok _ => true
  | _ => false

/-- A strand whose guard is false takes no part (R42). -/
def guarded (g : BitVec 3) (f : Strand → LaneOut) (t : Strand) : LaneOut :=
  if t.rpr g.toNat then f t else .ok t

/-- The outcomes of a word in the strands of the issue set. -/
def State.laneOuts (s : State) (f : Nat → Strand → LaneOut) : List (Nat × LaneOut) :=
  s.issueSet.map (fun e => (e.1, f e.1 e.2))

/-- Give strands their outcomes; those that trap enter together (R148, R176). -/
def State.putLanes (s : State) (outs : List (Nat × LaneOut)) : State :=
  let s1 := s.modSkein s.cur.skein (fun sk => { sk with
    strands := outs.foldl (fun t o => Tab.set t o.1 (some o.2.strand)) sk.strands })
  match outs.filterMap (fun o => o.2.trap? o.1) with
  | [] => s1
  | ts => s1.trapHere ts

/-! ### The uniform store and the reuse table (R66 to R73) -/

/-- The contents of a register over lanes 0 to G − 1 of a weft; a lane with no strand holds zero. -/
def Skein.laneVals (sk : Skein) (w : Nat) (r : Nat) : List Word :=
  match Tab.get sk.wefts w with
  | none => []
  | some wf => (List.range wf.g).map (fun j => match Tab.get sk.strands (w + j) with
    | some t => t.rv r
    | none => 0)

/-- Whether every value follows the one before by `d`. -/
def affineFrom (d : Word) : Word → List Word → Bool
  | _, [] => true
  | x, y :: t => y == x + d && affineFrom d y t

/-- All lanes equal, or base + lane × stride (R66). -/
def compactValue : List Word → Bool
  | [] => true
  | [_] => true
  | x :: y :: t => affineFrom (y - x) y t

/-- The words of the uniform store that a value takes: one for a uniform value, two for an affine one (R66). -/
def compactWords : List Word → Nat
  | [] => 0
  | x :: t => if t.all (· == x) then 1 else if compactValue (x :: t) then 2 else 0

/-- The contents that the holders of a core name: the mapped registers of its wefts, and the sources, old destinations and
results of its reuse entries (R66). -/
def State.heldContents (s : State) (c : Nat) : List (List Word) :=
  ((Tab.list s.skeins).filter (fun e => e.2.core == some c)).flatMap (fun e =>
    (Tab.list e.2.wefts).flatMap (fun w => (List.range e.2.kern.vregs).map (fun r => e.2.laneVals w.1 r))) ++
  (s.core c).reuse.flatMap (fun e => e.results ++ (e.key.drop 7).map (fun l => l.map (BitVec.ofNat 32)))

/-- Whether a core's uniform store of 4,096 words surely has room for any value (R66): equal contents share one name up to
4,095 references, the register caches hold at most 48 names, and a request or a word in flight at most 8. -/
def State.uniformFits (s : State) (c : Nat) : Bool :=
  let wefts := (((Tab.list s.skeins).filter (fun e => e.2.core == some c)).map (fun e => (Tab.list e.2.wefts).length)).sum
  let flying := 2 * (48 + 8 * (((Tab.list s.reqs).filter (fun e => e.2.core == c)).length + 1))
  decide (2 * (63 * wefts + 16 * (s.core c).reuse.length) + flying + 2 ≤ 4096) ||
  (let held := s.heldContents c
   decide ((held.dedup.map compactWords).sum + 2 * (held.length / 4095) + flying + 2 ≤ 4096))

/-- Write-back of registers: PMC_UNIF counts each value kept in the uniform store, where it has room; where its holders
could fill it, whether it has is free (R66, log 16). -/
def State.noteWrites (s : State) (k w : Nat) (regs : List Nat) : State :=
  regs.foldl (fun t r =>
    match t.skein? k with
    | none => t
    | some sk =>
      if r < 63 ∧ compactValue (sk.laneVals w r) then
        let t1 := { t with free := t.free + 1 }
        if t.uniformFits (sk.core.getD 0) || Config.uniformRoom t.free then t1.count k 9 1 else t1
      else t) s

/-- The operation of an instruction that the reuse table may hold, by its encoding: major, fn and every modifier; empty
for one that is not eligible (R68, R69). -/
def opKey (i : Instr) : List Nat :=
  match encodeNat i with
  | none => []
  | some w =>
    let m := fld w 30 25
    if m = 0x0C ∨ m = 0x0D then [m, fld w 3 0, fld w 18 16]
    else if m = 0x09 ∨ m = 0x0A then [m, fld w 15 0]
    else if (0x04 ≤ m ∧ m ≤ 0x08) ∨ m = 0x0B ∨ m = 0x15 then [m, fld w 9 0]
    else if m = 0x16 ∧ fld w 3 0 ≠ 0 then [m, fld w 3 0, fld w 9 4]
    else if m = 0x18 ∧ fld w 2 0 = 5 then [m, fld w 3 0, fld w 18 16]
    else if (1 ≤ m ∧ m ≤ 0x16) ∨ (0x18 ≤ m ∧ m ≤ 0x1A) then [m, fld w 3 0]
    else if (m = 0x28 ∨ m = 0x2A) ∧ fld w 2 2 = 0 then [m, fld w 9 0]
    else []

/-- Whether the key carries FPMODE and the level (R68). -/
def fpMajor (m : Nat) : Bool := decide (m = 0x0D ∨ (0x10 ≤ m ∧ m ≤ 0x15) ∨ m = 0x1A)

/-- The registers an RDX or WRX reaches in its issue set, each once. -/
def reachedRegs (sk : Skein) (set : List (Nat × Strand)) (g : BitVec 3) (n : BitVec 2) (o : BitVec 6) : List Nat :=
  ((set.filter (fun e => e.2.rpr g.toNat)).filterMap (fun e =>
    let r := indexReg sk.kern e.2 n o
    if r.2 then some r.1.toNat else none)).dedup

/-- Whether an instruction writes every lane 0 to G − 1 of a weft: its issue set has a strand in each, and no guard is false
(R66, R68). -/
def wholeWrite (sk : Skein) (w : Nat) (set : List (Nat × Strand)) (i : Instr) : Bool :=
  decide (set.length = (match Tab.get sk.wefts w with
    | some wf => wf.g
    | none => 0)) && set.all (fun e => e.2.rpr (Instr.use i).g)

/-- The key of an instruction for an issue set of a weft, by contents (R68). -/
def reuseKey (sk : Skein) (w : Nat) (set : List (Nat × Strand)) (k : Word) (i : Instr) : List (List Nat) :=
  let u := Instr.use i
  let op := opKey i
  let ix : List Nat := match i with
    | .rdx _ _ _ n _ => [n.toNat]
    | .wrx _ _ _ n _ => [n.toNat]
    | _ => []
  let old : List Nat := match i with
    | .icmp _ _ p c _ _ _ => if c = 1 ∨ c = 2 then [p.toNat] else []
    | .fcmp _ _ p c _ _ _ _ => if c = 1 ∨ c = 2 then [p.toNat] else []
    | _ => []
  let g := match Tab.get sk.wefts w with
    | some wf => wf.g
    | none => 0
  let whole := wholeWrite sk w set i
  [op, if u.k then [k.toNat] else [], [g, laneMask w (set.map Prod.fst), sk.ctx],
   set.flatMap (fun e => (u.g :: u.prd ++ old).map (fun p => if e.2.rpr p then 1 else 0)),
   set.flatMap (fun e => ix.map (fun n => (e.2.rn n).toNat)),
   if fpMajor (op.headD 0) then sk.kern.level :: set.map (fun e => e.2.fpmode.toNat) else [],
   if op.headD 0 = 0x2A then [sk.scrBase] else []] ++
  u.src.map (fun r => (sk.laneVals w r).map BitVec.toNat) ++
  (match i with
    | .rdx _ gd _ n o => (reachedRegs sk set gd n o).map (fun r => (sk.laneVals w r).map BitVec.toNat)
    | .wrx _ gd _ n o =>
      let rs := reachedRegs sk set gd n o
      if whole ∧ rs.length ≤ 1 then [] else rs.map (fun r => (sk.laneVals w r).map BitVec.toNat)
    | _ => []) ++
  (if whole then [] else u.dst.map (fun r => (sk.laneVals w r).map BitVec.toNat))

/-- The destinations in which an instruction makes a new value: a MOV that writes every lane takes its source's name, and
no data moves; v63 has no name to take (R66, R108). -/
def State.newNames (s : State) (sk : Skein) (i : Instr) (dst : List Nat) : List Nat :=
  match i with
  | .mov _ _ _ a => if a ≠ 63 ∧ wholeWrite sk s.cur.weft s.issueSet i then [] else dst
  | _ => dst

/-- The entry of a core's table with a key. -/
def State.reuseFind (s : State) (core : Nat) (key : List (List Nat)) : Option ReuseEntry :=
  (s.core core).reuse.find? (fun e => e.key == key && e.pending.isNone)

/-- Enter an instruction: an equal key is replaced. The table has 256 sets of four; which set a key falls into and which
entry of a full set goes are not specified (R13, R67, log 15). -/
def State.reuseEnter (s : State) (core : Nat) (e : ReuseEntry) : State :=
  let old := (s.core core).reuse.filter (fun x => x.key != e.key)
  let e' : ReuseEntry := { e with set := Config.freeNat s.free % 256 }
  let kept :=
    if old.length < 4 then old
    else
      let mates := old.filter (fun x => x.set == e'.set)
      if mates.length < 4 then old
      else match mates[Config.freeNat (s.free + 1) % 4]? with
        | some out => old.filter (fun x => x.key != out.key)
        | none => old
  ({ s with free := s.free + 2 }).modCore core (fun c => { c with reuse := kept ++ [e'] })

/-- An arithmetic, predicate or cross-lane instruction acts on an issue set whose outcomes are `outs`, writing the
registers `dst`: a reuse hit (R70) counts and writes what execution writes; otherwise the writes are named (R66) and a
quiet instruction enters the table (R71). `s` is the state it reads. -/
def State.retire (s : State) (sk : Skein) (i : Instr) (dst : List Nat) (outs : List (Nat × LaneOut)) : State :=
  let t := s.putLanes outs
  let k := s.cur.skein
  let key := reuseKey sk s.cur.weft s.issueSet s.cur.k i
  let core := sk.core.getD 0
  if s.cur.reuse ∧ opKey i ≠ [] ∧ (s.reuseFind core key).isSome then t.count k 1 1
  else
    let wrote := outs.any (fun o => (s.active (Instr.use i).g).contains o.1 && (o.2.trap? o.1).isNone)
    let t1 := if wrote then t.noteWrites k s.cur.weft (s.newNames sk i dst) else t
    if opKey i ≠ [] ∧ outs.all (fun o => o.2.quiet) then
      t1.reuseEnter core
        { ctx := sk.ctx, skein := k, weft := s.cur.weft, key := key, isLoad := false, scratch := false, region := 0,
          vals := [], results := (t1.skein? k).elim [] (fun x => dst.map (x.laneVals s.cur.weft)), set := 0,
          pending := none }
    else t1

/-- A per-lane instruction (R82). -/
def State.lanes (s : State) (i : Instr) (f : Skein → Nat → Strand → LaneOut) : Out :=
  s.word i (fun sk t => (true, t.retire sk i (Instr.use i).dst (t.laneOuts (f sk))))

/-! ### The shapes of per-lane instructions -/

/-- d := f(A). -/
def lane1 (g : BitVec 3) (d a : VReg) (f : Word → Word) : Skein → Nat → Strand → LaneOut :=
  fun _ _ => guarded g (fun t => .ok (t.wv d.toNat (f (t.rv a.toNat))))

/-- d := f(A, B); b = 63 reads K (R45). -/
def lane2 (k : Word) (g : BitVec 3) (d a b : VReg) (f : Word → Word → Word) : Skein → Nat → Strand → LaneOut :=
  fun _ _ => guarded g (fun t => .ok (t.wv d.toNat (f (t.rv a.toNat) (t.rb k b.toNat))))

/-- Pair d := f(PA, PB); the sources are read before either word is written (R89). -/
def lanePPP (k : Word) (g : BitVec 3) (d a b : VReg) (f : Dword → Dword → Dword) : Skein → Nat → Strand → LaneOut :=
  fun _ _ => guarded g (fun t => .ok (t.wp d.toNat (f (t.rp a.toNat) (t.rbp k b.toNat))))

/-- Pair d := f(PA, B). -/
def lanePPV (k : Word) (g : BitVec 3) (d a b : VReg) (f : Dword → Word → Dword) : Skein → Nat → Strand → LaneOut :=
  fun _ _ => guarded g (fun t => .ok (t.wp d.toNat (f (t.rp a.toNat) (t.rb k b.toNat))))

/-- Pair d := f(A, B). -/
def lanePVV (k : Word) (g : BitVec 3) (d a b : VReg) (f : Word → Word → Dword) : Skein → Nat → Strand → LaneOut :=
  fun _ _ => guarded g (fun t => .ok (t.wp d.toNat (f (t.rv a.toNat) (t.rb k b.toNat))))

/-- pd := f of the strand. -/
def laneQ (g : BitVec 3) (d : BitVec 3) (f : Strand → Bool) : Skein → Nat → Strand → LaneOut :=
  fun _ _ => guarded g (fun t => .ok (t.wpr d.toNat (f t)))

/-! ### Floating instructions (R33, R34, R98) -/

/-- The modes of a strand. -/
def fpCtx (kern : Kernel) (t : Strand) : FpCtx :=
  { rm := t.fpmode.toNat % 4, ftz := t.fpmode.getLsbD 2, lvl2 := decide (kern.level = 2) }

/-- Whether a floating trap would be taken (R34, R148): an enabled flag, a handler, and no handler active. -/
def Strand.fpTraps (t : Strand) (flags : FpFlags) : Bool :=
  (flags &&& t.fptrapen) != 0 && t.trapvec != 0xFFFFFFFF && !t.active

/-- R34's step in one strand: `w` is the strand with its destination written, `tval` the destination field. -/
def fpDone (q : Bool) (tval : Nat) (flags : FpFlags) (w t : Strand) : LaneOut :=
  if q ∨ flags = 0 then .ok w
  else if t.fpTraps flags then
    .trap { t with fpflags := t.fpflags ||| flags } (fpCause (flags &&& t.fptrapen)) (BitVec.ofNat 32 tval)
  else .flagged { w with fpflags := t.fpflags ||| flags }

/-- d := the 32 bits of f, a floating result. -/
def laneF (q : Bool) (g : BitVec 3) (d : VReg) (f : FpCtx → Strand → FpOut) : Skein → Nat → Strand → LaneOut :=
  fun sk _ => guarded g (fun t =>
    let o := f (fpCtx sk.kern t) t
    fpDone q d.toNat o.flags (t.wv d.toNat (BitVec.ofNat 32 o.bits)) t)

/-- An FP32 operand. -/
def fpv (x : Word) : FpVal := Fmt.fp32.decode x.toNat

/-- An FP32 result of A and B, with FTZ32 (R24). -/
def laneF2 (k : Word) (q : BitVec 1) (g : BitVec 3) (d a b : VReg) (f : FpCtx → FpVal → FpVal → FpOut) :
    Skein → Nat → Strand → LaneOut :=
  laneF (q == 1) g d (fun c t => ftz32 c (f c (fpv (t.rv a.toNat)) (fpv (t.rb k b.toNat))))

end Sys2Proof.Machine
end

