-- ==== Sys2Proof/Machine/Weft.lean ====
section
/-! DEFINITION. Machine/Weft.lean: the active set and the instruction buffer (R130, R131), and the width grant with
SETW, SLICE and WSYNC (R111 to R120). -/

namespace Sys2Proof.Machine

/-! ### Residence and readiness (R129, R130) -/

/-- The wefts resident on a core: skein, first strand, record. -/
def State.resident (s : State) (c : Nat) : List (Nat × Nat × Weft) :=
  (Tab.list s.skeins).flatMap (fun e =>
    if e.2.core = some c then (Tab.list e.2.wefts).map (fun w => (e.1, w.1, w.2)) else [])

/-- The READY strands of a weft: strand and pc. -/
def Skein.readyOf (sk : Skein) (w : Nat) : List (Nat × Word) :=
  (sk.members w).filterMap (fun i => match Tab.get sk.strands i with
    | some t => if t.status = .ready then some (i, t.pc) else none
    | none => none)
def Skein.hasReady (sk : Skein) (w : Nat) : Bool := !(sk.readyOf w).isEmpty
def State.hasReady (s : State) (k w : Nat) : Bool := match s.skein? k with
  | some sk => sk.hasReady w
  | none => false

/-- The strands of a weft that stand between two words of a chain and can issue the next one, with its PC (R48, R268). -/
def Skein.midChain (sk : Skein) (w : Nat) (wf : Weft) : List (Nat × Word) :=
  (sk.readyOf w).filter (fun e => wf.chain.contains e && (Tab.get sk.strands e.1).elim false (fun t => t.hold.isNone))

/-- The PATHWAIT groups of a weft: pc and since when. -/
def Skein.pathGroups (sk : Skein) (w : Nat) : List (Word × Nat) :=
  (sk.members w).filterMap (fun i => match Tab.get sk.strands i with
    | some t => match t.status with
      | .pathwait since => some (t.pc, since)
      | _ => none
    | none => none)

/-- Make the PATHWAIT strands of a weft at some pc READY. -/
def State.wakePath (s : State) (k w : Nat) (at? : Word → Bool) : State :=
  match s.skein? k with
  | none => s
  | some sk => s.modStrands k (sk.members w) (fun _ t => match t.status with
      | .pathwait _ => if at? t.pc then { t with status := .ready } else t
      | _ => t)

/-! ### Instruction-buffer entries (R131) -/

/-- Entries of a core's shared forty that are in use. -/
def State.sharedUsed (s : State) (c : Nat) : Nat :=
  ((s.resident c).map (fun e => (e.2.2.entries.filter (fun x => !x.reserved)).length)).sum

/-- The entries of groups that have left their PC go with a READY strand of theirs to its new PC, to the next one where one
went there; the entry of a group with no READY strand left is free (R131). The entries that have moved, and the PCs that
still hold none. A group that splits keeps its entry where it falls through. DESIGN CHOICE (log 17): the other new PCs are
taken in lane order. -/
def followEntries (ready : List (Nat × Word)) : List BufEntry → List Word → List BufEntry × List Word
  | [], ps => ([], ps)
  | e :: es, ps =>
    let went := (ready.filter (fun r => e.group.contains r.1 && ps.contains r.2)).map Prod.snd
    match if went.contains (nextPc e.pc) then some (nextPc e.pc) else went.head? with
    | some p =>
      let r := followEntries ready es (ps.erase p)
      ({ e with pc := p } :: r.1, r.2)
    | none => followEntries ready es ps

/-- Whether an entry is free for a group of a weft: the weft's reserved one, or a shared one. -/
def State.bufFree (s : State) (c : Nat) (wf : Weft) : Bool :=
  wf.entries.all (fun e => !e.reserved) || decide (s.sharedUsed c < 40)

/-- Give one entry to the group of a weft at a pc, where one is free: the weft's reserved one, else a shared one. DESIGN
CHOICE (log 17): the group's age starts here. -/
def State.giveEntry (s : State) (c k w : Nat) (p : Word) : Option State :=
  match s.weft? k w with
  | none => none
  | some wf =>
    let add (r : Bool) : State := (s.modWeft k w (fun x => { x with
      entries := x.entries ++ [{ pc := p, since := s.clock, lastIssue := s.clock, reserved := r }] })).wakePath k w (· == p)
    if wf.entries.all (fun e => !e.reserved) then some (add true)
    else if s.sharedUsed c < 40 then some (add false)
    else none

/-- The PATHWAIT group of the core's active wefts that has waited longest, of those that may take the entry that is free;
ties to the lowest PC. -/
def State.longestPath (s : State) (c : Nat) : Option (Nat × Nat × Word × Nat) :=
  let all : List (Nat × Nat × Word × Nat) :=
    ((s.resident c).filter (fun e => e.2.2.activeSince.isSome && s.bufFree c e.2.2)).flatMap (fun e =>
      match s.skein? e.1 with
      | some sk => (sk.pathGroups e.2.1).map (fun g => (e.1, e.2.1, g.1, g.2))
      | none => [])
  match all with
  | [] => none
  | x :: t => some (t.foldl (fun b g =>
      if g.2.2.2 < b.2.2.2 ∨ (g.2.2.2 = b.2.2.2 ∧ g.2.2.1.toNat < b.2.2.1.toNat) then g else b) x)

/-- A freed entry goes to the PATHWAIT group that has waited longest. -/
def State.handOut (s : State) (c : Nat) : Nat → State
  | 0 => s
  | n + 1 =>
    match s.longestPath c with
    | none => s
    | some g => match s.giveEntry c g.1 g.2.1 g.2.2.1 with
      | none => s
      | some t => State.handOut t c n

/-- The strands of a weft at a pc that hold no entry go to PATHWAIT. -/
def State.toPathwait (s : State) (k : Nat) (is : List Nat) : State :=
  s.modStrands k is (fun _ t => { t with status := .pathwait s.clock })

/-- Bring an active weft's entries up to date with its groups. -/
def State.regroupWeft (s : State) (c k w : Nat) : State :=
  match s.skein? k, s.weft? k w with
  | some sk, some wf =>
    let ready := sk.readyOf w
    let pcs := (ready.map Prod.snd).dedup
    let kept := wf.entries.filter (fun e => pcs.contains e.pc)
    let gone := wf.entries.filter (fun e => !pcs.contains e.pc)
    let new := pcs.filter (fun p => !kept.any (fun e => e.pc == p))
    let r := followEntries ready gone new
    let es := (kept ++ r.1).map (fun e => { e with group := (ready.filter (fun x => x.2 == e.pc)).map Prod.fst })
    let s1 := (s.modWeft k w (fun x => { x with entries := es })).wakePath k w (fun p => es.any (fun e => e.pc == p))
    let s2 := s1.handOut c 41
    r.2.foldl (fun t p => match t.giveEntry c k w p with
      | some u => u
      | none => t.toPathwait k ((ready.filter (fun e => e.2 == p)).map Prod.fst)) s2
  | _, _ => s

/-- A weft leaves the active set: its entries are freed (R130, R131). -/
def State.leaveActive (s : State) (k w : Nat) : State :=
  (s.modWeft k w (fun x => { x with activeSince := none, entries := [] })).wakePath k w (fun _ => true)

/-- The active wefts of a core with no READY strand leave. -/
def State.trimActive (s : State) (c : Nat) : State :=
  (s.resident c).foldl (fun t e =>
    if e.2.2.activeSince.isSome ∧ ¬ t.hasReady e.1 e.2.1 then t.leaveActive e.1 e.2.1 else t) s

/-- A core's entries follow the groups of its active wefts: the freed ones go on to those that wait, and a weft with no
READY strand leaves (R130, R131). -/
def State.refresh (s : State) (c : Nat) : State :=
  ((s.resident c).foldl (fun t e => if e.2.2.activeSince.isSome then t.regroupWeft c e.1 e.2.1 else t) s).trimActive c

/-- The entries of a core, and those of one of its wefts, brought up to date. -/
def State.regroup (s : State) (c k w : Nat) : State := (s.refresh c).regroupWeft c k w

/-- How many wefts of a core are active. -/
def State.activeCount (s : State) (c : Nat) : Nat :=
  ((s.resident c).filter (fun e => e.2.2.activeSince.isSome)).length

/-- Whether another resident weft of the core has a READY strand; `waiting`: and is not active. -/
def State.othersReady (s : State) (c k w : Nat) (waiting : Bool) : Bool :=
  (s.resident c).any (fun e => (e.1 != k || e.2.1 != w) && s.hasReady e.1 e.2.1 &&
    (!waiting || e.2.2.activeSince.isNone))

/-- ACTIVE_SET_ENTRY (R130). -/
def execActiveSetEntry (k w : Nat) (s : State) : Out :=
  match s.skein? k, s.weft? k w with
  | some sk, some wf =>
    match sk.core with
    | none => .next s
    | some c =>
      let t := s.refresh c
      if wf.activeSince.isNone ∧ sk.hasReady w ∧ s.mayIssue sk.ctx ∧ t.activeCount c < 8 then
        .next ((t.modWeft k w (fun x => { x with activeSince := some s.clock })).regroupWeft c k w)
      else .next t
  | _, _ => .next s

/-- ACTIVE_SET_TIMEOUT (R130). -/
def execActiveSetTimeout (k w : Nat) (s : State) : Out :=
  match s.skein? k, s.weft? k w with
  | some sk, some wf =>
    match sk.core, wf.activeSince with
    | some c, some since =>
      if since + 1024 ≤ s.clock ∧ s.mayIssue sk.ctx ∧ s.othersReady c k w true then .next (s.leaveActive k w) else .next s
    | _, _ => .next s
  | _, _ => .next s

/-- PATHWAIT_TIMEOUT (R131): the group takes the entry that a group of its weft has held longest. -/
def execPathwaitTimeout (k w : Nat) (pc : Word) (s : State) : Out :=
  match s.skein? k, s.weft? k w with
  | some sk, some wf =>
    if wf.activeSince.isSome ∧ s.mayIssue sk.ctx ∧ (sk.pathGroups w).any (fun g => g.1 == pc && decide (g.2 + 256 ≤ s.clock)) then
      match wf.entries.foldl (fun (m : Option BufEntry) e => match m with
          | none => some e
          | some b => if e.since < b.since ∨ (e.since = b.since ∧ e.pc.toNat < b.pc.toNat) then some e else some b) none with
      | none => .next s
      | some old =>
        let out := ((sk.readyOf w).filter (fun e => e.2 == old.pc)).map Prod.fst
        let s1 := s.modWeft k w (fun x => { x with
          entries := x.entries.map (fun e => if e == old then { e with pc := pc, since := s.clock, lastIssue := s.clock } else e) })
        .next ((s1.wakePath k w (· == pc)).toPathwait k out)
    else .next s
  | _, _ => .next s

/-! ### Grants (R112, R114, R116) -/

/-- The six widths. -/
def widths : List Nat := [8, 16, 32, 64, 128, 256]
/-- The width of a code (R115). -/
def widthOf (code : Nat) : Nat := 8 * 2 ^ code
/-- Working lanes of a core. -/
def CoreSt.lanes (c : CoreSt) : Nat := 16 * c.quads
/-- Cycles to the weft's issue: turns (R112). -/
def turnsOf (g : Nat) : Nat := (g + 63) / 64
/-- Weft slots reserved, V (R114). -/
def slotsFor (nstrand minCode : Nat) : Nat := min 32 ((nstrand + widthOf minCode - 1) / widthOf minCode)
/-- The eligible widths of a skein on a core with `lanes` working lanes under a cap (R114). -/
def eligible (lanes cap nstrand slots : Nat) : List Nat :=
  widths.filter (fun x => decide (x ≤ min (4 * lanes) (widthOf cap)) && decide ((nstrand + x - 1) / x ≤ slots))
def listMin : List Nat → Nat
  | [] => 0
  | x :: t => t.foldl min x
def listMax (l : List Nat) : Nat := l.foldl max 0
/-- SetGrant (R116). -/
def setGrant (e : List Nat) (minw maxw : Nat) (low : Bool) : Nat :=
  let inr := e.filter (fun x => decide (minw ≤ x ∧ x ≤ maxw))
  if inr ≠ [] then (if low then listMin inr else listMax inr)
  else if maxw < listMin e then listMin e
  else listMax e
/-- The eligible widths of a skein where it is. -/
def State.eligibleFor (s : State) (sk : Skein) : List Nat :=
  eligible (s.core (sk.core.getD 0)).lanes sk.cap sk.nstrand sk.wslots

/-- The first strands of the wefts that hold strands `lo` to `hi − 1` under a grant (R111). -/
def weftBases (g lo hi : Nat) : List Nat :=
  if g = 0 then [] else (List.range (hi - lo)).filterMap (fun j => if (lo + j) % g = 0 then some (lo + j) else none)

/-- Kill the load entries of a skein's wefts of some grants (R72, R158). -/
def State.killLoads (s : State) (k : Nat) (gs : List Nat) : State :=
  match s.skein? k with
  | none => s
  | some sk =>
    match sk.core with
    | none => s
    | some c => s.modCore c (fun x => { x with reuse := x.reuse.filter (fun e => !gs.any (fun g => e.loadOf k sk.ctx g)) })

/-! ### SETW (R115 to R117) -/

/-- The SETW each live strand of a skein waits at, with its pc; `none` while one does not wait at a SETW. -/
def Skein.setwWaits (sk : Skein) : Option (List (Word × Nat × Nat × Bool)) :=
  sk.live.mapM (fun i => (Tab.get sk.strands i).bind (fun t => match t.status with
    | .rendezvous (.setw a b l) => some (t.pc, a, b, l)
    | _ => none))

/-- The request of the lowest pc. -/
def lowestSetw : List (Word × Nat × Nat × Bool) → Option (Word × Nat × Nat × Bool)
  | [] => none
  | x :: t => some (t.foldl (fun m y => if y.1.toNat < m.1.toNat then y else m) x)

/-- Regroup a skein once every live strand waits at a SETW (R116, R117). -/
def State.settleSetw (s : State) (k : Nat) : State :=
  match s.skein? k with
  | none => s
  | some sk =>
    match sk.setwWaits.bind lowestSetw with
    | none => s
    | some q =>
      let g := setGrant (s.eligibleFor sk) (widthOf q.2.1) (widthOf q.2.2.1) q.2.2.2
      if g = 0 then s
      else
        let s1 := s.modSkein k (fun x => { x with
          wefts := (weftBases g 0 x.nstrand).foldl (fun t b => Tab.set t b (some (Weft.fresh g))) [] })
        (s1.modStrands k sk.live (fun _ t => { t.advance with status := .ready })).killLoads k
          ((Tab.list sk.wefts).map (fun e => e.2.g))

/-- SETW (R115, R116): the strands of the issue set wait; the last live strand of the skein completes it. -/
def execSetw (c : BitVec 1) (n x : BitVec 3) (l : BitVec 1) (s : State) : Out :=
  s.word (.setw c n x l) (fun _ t =>
    (true, (t.modStrands t.cur.skein t.cur.strands (fun _ u =>
      { u with status := .rendezvous (.setw n.toNat x.toNat (l == 1)) })).settleSetw t.cur.skein))

/-! ### SLICE (R119) -/

/-- The strands of a weft that wait at the SLICE at a pc. -/
def Skein.sliceAt (sk : Skein) (w : Nat) (pc : Word) : List Nat :=
  (sk.liveOf w).filter (fun i => match Tab.get sk.strands i with
    | some t => t.status == .rendezvous .slice && t.pc == pc
    | none => false)

/-- Cut a weft to the largest eligible width (R119). -/
def State.reslice (s : State) (k w : Nat) : State :=
  match s.skein? k, s.weft? k w with
  | some sk, some wf =>
    let g2 := listMax (s.eligibleFor sk)
    if 4 * (s.core (sk.core.getD 0)).lanes < wf.g ∧ g2 ≠ 0 then
      let s1 := s.modSkein k (fun x => { x with
        wefts := (weftBases g2 w (min (w + wf.g) x.nstrand)).foldl
          (fun t b => Tab.set t b (some { Weft.fresh g2 with resliced := true })) (Tab.set x.wefts w none) })
      s1.killLoads k [wf.g]
    else s
  | _, _ => s

/-- A SLICE wait ends: with every live strand there it re-slices where one is due; the waiting strands continue. -/
def State.endSlice (s : State) (k w : Nat) (pc : Word) (all : Bool) : State :=
  match s.skein? k with
  | none => s
  | some sk =>
    let is := sk.sliceAt w pc
    let s1 := (s.modStrands k is (fun _ t => { t.advance with status := .ready })).modWeft k w (fun x =>
      { x with sliceSince := x.sliceSince.filter (fun e => e.1 != pc) })
    if all then s1.reslice k w else s1

/-- The SLICE that every live strand of a weft waits at. -/
def Skein.sliceReady (sk : Skein) (w : Nat) : Option Word :=
  match sk.liveOf w with
  | [] => none
  | i :: rest => match Tab.get sk.strands i with
    | some t => if (sk.sliceAt w t.pc).length = rest.length + 1 then some t.pc else none
    | none => none

/-- JTIMEOUT cc after the first strand arrived at a SLICE, its wait is over: the strands there continue, not re-sliced. DESIGN
CHOICE (log 72): the skein's JTIMEOUT now, where an MTS has changed it since. -/
def State.expireSlices (s : State) (k w : Nat) : State :=
  match s.skein? k, s.weft? k w with
  | some sk, some wf => wf.sliceSince.foldl (fun t e => if e.2 + sk.jtimeout ≤ s.clock then t.endSlice k w e.1 false else t) s
  | _, _ => s

/-- A SLICE wait ends where its time is over, or where every live strand of the weft is there. -/
def State.settleSlice (s : State) (k w : Nat) : State :=
  let t := s.expireSlices k w
  match (t.skein? k).bind (fun sk => sk.sliceReady w) with
  | some pc => t.endSlice k w pc true
  | none => t

/-- SLICE (R119). -/
def execSlice (c : BitVec 1) (s : State) : Out :=
  s.word (.slice c) (fun _ t =>
    let k := t.cur.skein
    let w := t.cur.weft
    let t1 := (t.expireSlices k w).modStrands k t.cur.strands (fun _ u => { u with status := .rendezvous .slice })
    let t2 := t1.modWeft k w (fun x =>
      if x.sliceSince.any (fun e => e.1 == t.cur.pc) then x
      else { x with sliceSince := x.sliceSince ++ [(t.cur.pc, t.clock)] })
    (true, t2.settleSlice k w))

/-- SLICE_TIMEOUT (R119): JTIMEOUT cc after the first strand arrived the waiting strands continue, not re-sliced. -/
def execSliceTimeout (k w : Nat) (s : State) : Out :=
  match s.skein? k with
  | some sk => .next (if s.mayIssue sk.ctx then s.expireSlices k w else s)
  | none => .next s

/-! ### WSYNC (R120) -/

/-- Every live strand of the weft waits at one WSYNC: all continue. -/
def State.settleWsync (s : State) (k w : Nat) : State :=
  match s.skein? k with
  | none => s
  | some sk =>
    let here := (sk.liveOf w).map (fun i => (Tab.get sk.strands i).bind (fun t =>
      if t.status = .rendezvous .wsync then some t.pc else none))
    match here with
    | some p :: rest =>
      if rest.all (· == some p) then
        s.modStrands k (sk.liveOf w) (fun _ t => { t.advance with status := .ready })
      else s
    | _ => s

/-- WSYNC (R120): a guard-false strand counts as arrived. -/
def execWsync (c : BitVec 1) (g : BitVec 3) (s : State) : Out :=
  s.word (.wsync c g) (fun _ t =>
    (true, (t.modStrands t.cur.skein t.cur.strands (fun _ u =>
      { u with status := .rendezvous .wsync })).settleWsync t.cur.skein t.cur.weft))

end Sys2Proof.Machine
end

