-- ==== Sys2Proof/Machine/Faults.lean ====
section
/-! DEFINITION. Machine/Faults.lean: fault records and their delivery, what a negative reply does to the strand that
drew it, and frozen masters (R183, R184, R296, R297, R346, R371). -/

namespace Sys2Proof.Machine

/-! ### Fault records (R296, R297) -/

/-- A fault record's 64 bytes (R297). A context of another module is named by its own number. -/
def faultBytes (id : Nat) (r : FaultRec) : List Byte :=
  bytesOf 2 r.code ++ bytesOf 1 0 ++ bytesOf 1 r.flags ++ bytesOf 4 id ++ bytesOf 8 r.clock ++ bytesOf 2 r.partition ++
    bytesOf 2 (r.ctx % 64) ++ bytesOf 8 r.va ++ bytesOf 2 r.core ++ bytesOf 2 r.joined ++ bytesOf 4 r.domain ++
    bytesOf 8 r.dfn ++ bytesOf 1 r.tag ++ bytesOf 1 r.skein ++ List.replicate 18 0

/-- The COREID that a fault record names: 0xFFFF for a requester of another module (R297). -/
def namedCore (core : Nat) : Nat := if core < 768 then coreId core else 0xFFFF

/-- The fault queue of a domain. -/
def State.faultQueueOf (s : State) (domain : Nat) : Option Nat :=
  ((Tab.list s.queues).find? (fun e => e.2.kind == 2 && e.2.domain == domain)).map Prod.fst

/-- Write a record into its fault queue where there is room (R346); one for the secure manager is with it at once. -/
def State.deliverFault (s : State) (id : Nat) : State :=
  match Tab.get s.homes.faultRecs id with
  | none => s
  | some r =>
    let mark (t : State) : State := t.modHomes (fun h => { h with
      faultRecs := Tab.upd h.faultRecs id (fun x => { x with delivered := true }) })
    if r.delivered then s
    else if r.toSm then mark s
    else match s.faultQueueOf r.domain with
      | none => s
      | some qn =>
        match Tab.get s.queues qn with
        | none => s
        | some q =>
          if (q.state = .qopen ∨ q.state = .active) ∧ q.failed = none ∧ q.hasRoom then
            match s.ringWrite qn (faultBytes id r) with
            | some t => mark t
            | none => s
          else s

/-- FAULT_RECORD_DELIVERY (R346). -/
def execFaultRecordDelivery (id : Nat) (s : State) : Out := .next (s.deliverFault id)

/-- Open or join a fault record at the VA's home, and deliver it where its queue has room: its ID; `none` while the home has
64 open records (R296). -/
def State.openFault (s : State) (a : FaultAsk) : Option (Nat × State) :=
  (s.openRecord a).map (fun r => (r.1, r.2.deliverFault r.1))

/-! ### Fatal replies and frozen masters (R184, R271, R371) -/

/-- MASTER_FROZEN (R371): kind 1 weft, 2 copy queue, 3 host-core context; cause 1 DOMAIN, 2 key denial, 3 MMIO. -/
def State.raiseFrozen (s : State) (kind cause ctx va id weft : Nat) : State :=
  let part := match s.ctx? ctx with
    | some c => c.partition
    | none => 0
  s.raise true 0x0400 3 id (some part) (some ctx) [part]
    (bytesOf 1 kind ++ bytesOf 1 cause ++ bytesOf 2 ctx ++ bytesOf 8 va ++ bytesOf 4 id ++ bytesOf 2 weft)

/-- A fatal reply to a strand's access or a copy's (a copy's record names the copy queue and no weft, 0xFFFF: DESIGN CHOICE,
log 57): DOMAIN freezes the weft, STALE_GEN and POISON kill the gang (R184). -/
def State.fatalNack (s : State) (k : Nat) (strand : Option Nat) (pc : Word) (code va : Nat) : State :=
  match s.skein? k with
  | none => s
  | some sk =>
    let core := coreId (sk.core.getD 0)
    let weft := match strand.bind sk.weftOf with
      | some wf => if wf.2.g = 0 then 0xFFFF else wf.1 / wf.2.g
      | none => 0xFFFF
    let s1 := if code = 5 then s.raiseFrozen (if strand.isSome then 1 else 2) 1 sk.ctx va core weft else s
    s1.gangFault sk.bolt (if code = 5 then 0x44 else if code = 6 then 0x43 else 0x42)
      { src := core, strand := strand.getD 0xFFFF, pc := if strand.isSome then pc.toNat else 0, skeinIx := sk.index,
        info := va }

/-- A strand parks at its instruction on a record (R183). -/
def State.parkStrand (s : State) (k i rec : Nat) : State :=
  s.modStrand k i (fun t => { t with status := .parked (.nack rec s.clock), hold := none })

/-- Whether a fault record of this module has been closed. -/
def State.recClosed (s : State) (rec : Nat) : Bool := decide (rec < 2 ^ 32) && (Tab.get s.homes.faultRecs rec).isNone

/-- A negative reply to an access a strand waits for (R183, R184): it parks, or its gang ends. DESIGN CHOICE (log 56): where
a REPLAY closed the record while the NACK was on its way, the strand issues the instruction again at once. -/
def State.nackStrand (s : State) (k i : Nat) (pc : Word) (code rec va : Nat) : State :=
  if fatalCode code then s.fatalNack k (some i) pc code va
  else if s.recClosed rec then s.modStrand k i (fun t => { t with status := .ready, hold := none })
  else s.parkStrand k i rec

/-- The record a strand is parked on. -/
def Strand.parkedOn (t : Strand) : Option Nat := match t.status with
  | .parked (.nack r _) => some r
  | .parked (.fetch r _) => some r
  | _ => none

/-- Since when it is. -/
def Strand.parkedSince (t : Strand) : Nat := match t.status with
  | .parked (.nack _ n) => n
  | .parked (.fetch _ n) => n
  | _ => 0

/-- The strands parked on a record issue again (R298). -/
def State.releaseParked (s : State) (rec : Nat) : State :=
  { s with skeins := s.skeins.map (fun (e : Nat × Option Skein) => (e.1, e.2.map (fun (sk : Skein) =>
      { sk with strands := sk.strands.map (fun (x : Nat × Option Strand) => (x.1, x.2.map (fun (t : Strand) =>
          if t.parkedOn = some rec then { t with status := .ready } else t))) }))) }

end Sys2Proof.Machine
end

