-- ==== Sys2Proof/Machine/Traffic.lean ====
section
/-! DEFINITION. Machine/Traffic.lean: a core's requests and the paths they take, the write-combining buffer, and what a
release and an acquire wait for (R154, R155, R160, R161, R167, R168, R175, R362, R364). -/

namespace Sys2Proof.Machine

/-! ### New requests (R175, R329) -/

/-- A plain request of a strand: the fields that each kind sets are at their defaults. -/
def State.mkReq (s : State) (kind : ReqKind) (sk : Skein) (i va size : Nat) (pc : Word) : Req :=
  let c := sk.core.getD 0
  { kind := kind, core := c, skein := s.cur.skein, weft := s.cur.weft, strand := i, ctx := sk.ctx,
    domain := s.domainOf sk.ctx, gen := s.genOf sk.ctx, rdRights := s.rightsVec c sk.ctx 0,
    wrRights := s.rightsVec c sk.ctx 1, va := va, size := size, data := [], reg := 63, sz := 4, fn := 0, opnd := 0,
    expect := 0, lvl2 := decide (sk.kern.level = 2), vol := false, pol := 0, seq := (s.core c).issueSeq,
    counted := false, issued := s.clock, pc := pc, stage := .outbound, result := 0, key := 0, noFill := false,
    nackAt := 0, group := s.l1Key s.cur.skein, reached := none, unreached := 0, stamp := 0, entry := none }

/-- The next instruction of a core that makes accesses (R154); the numbers rise over the whole module. -/
def State.nextSeq (s : State) (c : Nat) : State := s.fresh.modCore c (fun x => { x with issueSeq := s.nextId })

/-! ### Paths (R154, R348, R362, R364) -/

/-- A request, and the stores sent in one write-combining entry with it, reach a stage (R167). -/
def State.stageAll (s : State) (id : Nat) (st : ReqStage) : State :=
  { s with reqs := s.reqs.map (fun (e : Nat × Option Req) => (e.1, e.2.map (fun (x : Req) =>
      if e.1 = id ∨ x.entry = some id then { x with stage := st } else x))) }

/-- The payload that a request carries, and that its reply brings. -/
def Req.sentBytes (r : Req) : Nat := match r.kind with
  | .store => if r.payload = 0 then r.size else r.payload
  | .spill => r.size
  | .atomic => r.size
  | .rst => r.size
  | _ => 0
def Req.replyPayload (r : Req) : Nat := match r.kind with
  | .load => r.size
  | .ldga => r.size
  | .fill => r.size
  | .atomic => if r.reg = 63 then 0 else r.size
  | .pref => 256
  | _ => 0

/-- Send a request on its line's path: to its home, or through a fabric port, where a held entry keeps it. -/
def State.send (s : State) (id : Nat) : State :=
  match s.req? id with
  | none => s
  | some r =>
    if s.isLocal r.va then
      (s.modReq id (fun x => { x with stage := .outbound })).sendToHome r.core (s.homeFor r.domain r.va) r.va 1 (.request id)
    else if s.entryHeld r.va then s.stageAll id .outbound
    else
      let p := s.portOf r.va
      ((s.stageAll id (.remote p)).fabricBytes r.ctx r.sentBytes).enqueue (449 + p) (clusterOf r.core) 1 (.request id)

/-- Whether what has left through a port is in flight: its answer has not come. DESIGN CHOICE (log 79): a WATCH is in flight until
its wake packet comes. -/
def State.farOut (s : State) (e : FarItem) : Bool := match e.payload with
  | .watch c w => (Tab.get (s.core c).watches w).isSome
  | .fetch id => (Tab.get s.fetches id).isSome
  | .copy id _ _ _ => (Tab.get s.copies id).elim false (fun x => x.phase == 1 || x.phase == 2)
  | .shd id => (Tab.get s.shdops id).elim false (fun o => o.stage == 0 && (o.kind != 0 ||
      ((s.ctx? o.ctx).bind (fun c => Tab.get c.shadows o.slot)).elim false (fun x => x.openWait.contains 128)))
  | _ => false

/-- Whether a request through a port, or of an entry, is in flight (R364). -/
def State.onPort (s : State) (p : Nat) : Bool :=
  (Tab.list s.reqs).any (fun r => r.2.stage == .remote p) || s.net.through.any (fun e => e.port == p && s.farOut e)
def State.entryBusy (s : State) (e : Nat) : Bool :=
  (Tab.list s.reqs).any (fun r => (match r.2.stage with
    | .remote _ => true
    | _ => false) && hash6 r.2.va == e) || s.net.through.any (fun x => hash6 x.va == e && s.farOut x)

/-- Once nothing is left on the old port of a held entry, what is kept for it leaves, oldest first (R364). -/
def State.releasePorts (s : State) : State :=
  let free := s.net.portHold.filter (fun e => !s.onPort (e / 64))
  if free.isEmpty then s
  else
    let s1 := { s with net := { s.net with portHold := s.net.portHold.filter (fun e => !free.contains e), kept := [] } }
    let s2 := (Tab.list s1.reqs).foldl (fun t r =>
      if r.2.stage = .outbound ∧ ¬ t.isLocal r.2.va ∧ free.any (fun e => e % 64 == hash6 r.2.va) ∧
         r.2.entry.all (· == r.1) then t.send r.1 else t) s1
    s.net.kept.foldl (fun t e => t.sendFar e.station e.va e.payload) s2

/-- Another module's answer to a request crosses the Loom from the fabric ingress to the cluster (R347, R348; log 78). -/
def State.farReply (s : State) (r : Req) : State := match r.stage with
  | .remote _ => s.enqueue (replyChan (clusterOf r.core) r.va) 225 2 (.passed ((s.ctx? r.ctx).map Context.partition) false)
  | _ => s

/-- A request has ended. -/
def State.endReq (s : State) (id : Nat) : State :=
  match s.req? id with
  | some r => (match r.stage with
    | .remote _ => ((s.farReply r).fabricBytes r.ctx r.replyPayload).dropReq id
    | _ => s.dropReq id).releasePorts
  | none => s.releasePorts

/-! ### Copies in an L1 group (R156, R163, R167, R182) -/

/-- The fills of a line that an L1 group waits for are not installed. -/
def State.noFillLine (s : State) (g domain va : Nat) : State :=
  { s with reqs := s.reqs.map (fun (e : Nat × Option Req) => (e.1, e.2.map (fun (x : Req) =>
      if x.group = g ∧ x.domain = domain ∧ x.va / 256 = va / 256 then { x with noFill := true } else x))) }

/-- An L1 group's copy of a line dies, and fills of it that are on their way are not installed: they would be older. -/
def State.dropL1 (s : State) (g domain va : Nat) : State :=
  { s.noFillLine g domain va with
    l1 := Cells.set [] s.l1 g ((Cells.get [] s.l1 g).filter (fun l => !(l.domain == domain && l.line == va / 256))) }

/-- Bytes that an L1 group's copy of another module's line holds from now on. -/
def State.l1Write (s : State) (g domain va : Nat) (data : List Byte) : State :=
  { s with l1 := Cells.set [] s.l1 g ((Cells.get [] s.l1 g).map (fun l =>
      if l.domain = domain ∧ l.line = va / 256 then
        { l with data := data.zipIdx.foldl (fun m e => Tab.set m (va % 256 + e.2) (some e.1)) l.data }
      else l)) }

/-- A store of another module's bytes updates the copy that an L1 group holds. A fill asked for before would be older: it is
not installed. -/
def State.l1Store (s : State) (g domain va : Nat) (data : List Byte) : State := (s.noFillLine g domain va).l1Write g domain va data

/-- A store reaches the slice of its fused L1, before the request number `t`: later stores of its core to the line follow
(R156). -/
def State.setReached (s : State) (id t : Nat) : State :=
  match s.req? id with
  | none => s
  | some r =>
    let s1 := { s with reqs := s.reqs.map (fun (e : Nat × Option Req) => (e.1, e.2.map (fun (x : Req) =>
        if e.1 = id then { x with reached := some t }
        else if id < e.1 ∧ x.core = r.core ∧ x.domain = r.domain ∧ x.va / 256 = r.va / 256 ∧ x.reached = none then
          { x with unreached := max x.unreached (t - 1) }
        else x))) }
    if s.isLocal r.va then s1 else s1.l1Store r.group r.domain r.va r.data

/-- Whether a request is a store whose way to a fused L1 counts (R155, R156). -/
def Req.isStore (r : Req) : Bool := r.kind == .store || r.kind == .spill

/-- The stores of some strands of a skein have reached their fused L1 (R155). -/
def State.reachAll (s : State) (k : Nat) (ms : List Nat) : State :=
  (Tab.list s.reqs).foldl (fun t e =>
    if e.2.isStore ∧ e.2.skein = k ∧ ms.contains e.2.strand ∧ 1024 ≤ e.2.group ∧ e.2.reached = none then
      t.setReached e.1 t.nextId
    else t) s

/-- A store takes effect: it has reached its fused L1 by now, at a moment the spec leaves open (R156; log 26). -/
def State.reachNow (s : State) (id : Nat) : State :=
  match s.req? id with
  | none => s
  | some r =>
    if ¬ r.isStore ∨ r.group < 1024 ∨ r.reached.isSome then s
    else
      let lo := max (r.unreached + 1) (id + 1)
      ({ s with free := s.free + 1 } : State).setReached id (lo + Config.freeNat s.free % (s.nextId + 1 - lo))

/-! ### The write-combining buffer (R167) -/

/-- Send an entry as one write: its first store carries the others, and their bytes. -/
def State.sendEntry (s : State) (e : WcEntry) : State :=
  match e.reqs with
  | [] => s
  | id :: _ =>
    ({ s with reqs := s.reqs.map (fun (x : Nat × Option Req) => (x.1, x.2.map (fun (r : Req) =>
        if e.reqs.contains x.1 then { r with entry := some id, payload := if x.1 = id then e.bytes.length else 0 } else r))) } : State).send
      id

/-- Send the entries of a core's buffer that `p` picks, oldest first. -/
def State.sendWc (s : State) (c : Nat) (p : WcEntry → Bool) : State :=
  let out := (s.core c).wc.filter p
  let s1 := s.modCore c (fun x => { x with wc := x.wc.filter (fun e => !p e) })
  out.foldl State.sendEntry s1

/-- Send the entry of a line. -/
def State.sendWcLine (s : State) (c domain va : Nat) : State :=
  s.sendWc c (fun e => e.domain == domain && e.line == va / 256)

/-- Whether the stores of an entry cover all 256 bytes of its line. -/
def WcEntry.full (e : WcEntry) : Bool := decide (e.bytes.length = 256)

/-- An entry with one store more: its bytes overwrite those of earlier ones. -/
def WcEntry.add (e : WcEntry) (id : Nat) (r : Req) : WcEntry :=
  { e with
    reqs := e.reqs ++ [id]
    bytes := r.data.zipIdx.foldl (fun m x => Tab.set m (r.va % 256 + x.2) (some x.1)) e.bytes }

/-- Put a remote store into the buffer; a full line is sent, and the oldest entry when all 32 are in use. -/
def State.intoWc (s : State) (id : Nat) : State :=
  match s.req? id with
  | none => s
  | some r =>
    let c := r.core
    let here (e : WcEntry) : Bool := e.domain == r.domain && e.line == r.va / 256
    let s0 := s.modReq id (fun x => { x with stage := .buffered })
    let s1 :=
      if (s0.core c).wc.any here then
        s0.modCore c (fun x => { x with wc := x.wc.map (fun e => if here e then e.add id r else e) })
      else
        let s2 := if 32 ≤ (s0.core c).wc.length then
            (match (s0.core c).wc with
              | o :: _ => s0.sendWc c (fun e => e == o)
              | [] => s0)
          else s0
        s2.modCore c (fun x => { x with
          wc := x.wc ++ [WcEntry.add { domain := r.domain, line := r.va / 256, since := s.clock, bytes := [], reqs := [] } id r] })
    s1.sendWc c (fun e => here e && e.full)

/-- The ageing time of the buffer in cc: the partition's setting in quarter microseconds (R322). -/
def State.wcAge (s : State) (ctx : Nat) : Nat :=
  match (s.ctx? ctx).bind (fun c => s.part? c.partition) with
  | some p => p.settings.wcTimer * 425 / 2
  | none => 1700

/-- WC_AGE_EXPIRY (R167): the entry of a line whose timer has run out is sent. -/
def execWcAgeExpiry (core line : Nat) (s : State) : Out :=
  .next (s.sendWc core (fun e => e.line == line &&
    decide (e.since + s.wcAge (match e.reqs with
      | id :: _ => (match s.req? id with
        | some r => r.ctx
        | none => 0)
      | [] => 0) ≤ s.clock)))

/-! ### What a release and an acquire wait for (R155, R160, R161, R183) -/

/-- A held request, or one whose refusal is still to be reported. -/
def Req.stopped (r : Req) : Bool := r.refused || (match r.stage with
  | .held .. => true
  | _ => false)

/-- Whether a bolt fuses its L1. -/
def State.fused (s : State) (k : Nat) : Bool := match (s.skein? k).bind (fun sk => s.bolt? sk.bolt) with
  | some b => b.fused
  | none => false

/-- A release of a scope by strands `ms` waits for this request; scope 4 stands for FENCE.drain. An atomic counts as a store
until its reply arrives; a store of a bolt that fuses its L1 is acknowledged at bolt scope once it is there. A release does
not wait for shadow writes (R160); FENCE.drain waits for those to other modules (R168, R232; log 53). -/
def State.relNeed (s : State) (k : Nat) (ms : List Nat) (scope : Nat) (r : Req) : Bool :=
  r.skein == k && ms.contains r.strand && decide (scope ≠ 0) &&
    (if r.stopped then
      decide (r.kind = .store ∨ r.kind = .atomic ∨ r.kind = .rst) && (decide (scope ≠ 4) || !s.isLocal r.va)
    else
      match scope with
      | 1 => r.kind == .atomic || (r.isStore && !s.fused k)
      | 2 => (r.kind == .atomic || r.isStore) && s.isLocal r.va
      | 3 => r.kind == .atomic || r.isStore
      | _ => (r.kind == .atomic || r.isStore || r.kind == .rst) && !s.isLocal r.va)

/-- An MDRAIN of a weft, or of any weft of the skein, that has not written its bytes (R155). -/
def State.drainsOf (s : State) (k : Nat) (weft : Option Nat) : Bool :=
  match (s.skein? k).bind Skein.core with
  | none => false
  | some c => (s.core c).engine.any (fun o => o.skein == k && o.kind == 5 && (match weft with
      | some w => o.weft == w
      | none => true))

/-- The release of a scope for strands `ms`, then `body` (R160). -/
def State.releasing (s : State) (act ms : List Nat) (weft : Option Nat) (scope : Nat) (body : State → Attempt) : Attempt :=
  let k := s.cur.skein
  let s1 := if scope = 3 ∨ scope = 4 then (match (s.skein? k).bind Skein.core with
      | some c => s.sendWc c (fun _ => true)
      | none => s) else s
  s1.waiting act (s1.relNeed k ms scope) (fun t =>
    if (scope = 1 ∨ scope = 2 ∨ scope = 3) ∧ t.drainsOf k weft then (false, t)
    else body (if scope = 1 then t.reachAll k ms else t))

/-- The acquire of the current weft, then `body` (R161). -/
def State.acquiring (s : State) (act ms : List Nat) (body : State → Attempt) : Attempt :=
  s.waiting act (acqNeed s.cur.skein ms) (fun t => body (t.acquire s.cur.skein s.cur.weft))

/-! ### The addresses of a global access (R172, R173) -/

/-- CheckGlobal without its key check: the cause and EA modulo 2^32, or the VA. -/
def checkGlobal (base : Dword) (ea : Int) (n : Nat) : Except (Nat × Word) Nat :=
  let v := BitVec.ofInt 32 ea
  if base.toNat / 2 ^ 57 ≠ 0 then .error (0x20, v)
  else if ea < 0 ∨ 2 ^ 57 - 1 < ea + n - 1 then .error (0x21, v)
  else if moduleOf ea.toNat ≠ moduleOf (ea.toNat + n - 1) then .error (0x23, v)
  else if ea.toNat % n ≠ 0 then .error (0x22, v)
  else .ok ea.toNat

/-- The load entries of a core that a write overlaps die (R72): a global write of a domain, or one to the core's
physical scratchpad. -/
def State.killGlobal (s : State) (c domain va n : Nat) : State :=
  s.modCore c (fun x => { x with reuse := x.reuse.filter (fun e =>
    !(e.isLoad && !e.scratch && decide (va < e.region + 256 ∧ e.region < va + n) &&
      transDomain s.homes (s.domainOf e.ctx) va == transDomain s.homes domain va)) })
def State.killScratch (s : State) (c p n : Nat) : State :=
  s.modCore c (fun x => { x with reuse := x.reuse.filter (fun e =>
    !(e.isLoad && e.scratch && decide (p < e.region + 256 ∧ e.region < p + n))) })
/-- Every load entry of a context on a core dies (R72). -/
def State.killContext (s : State) (c ctx : Nat) : State :=
  s.modCore c (fun x => { x with reuse := x.reuse.filter (fun e => !(e.isLoad && e.ctx == ctx)) })

/-- Every strand of the issue set goes to the next PC. -/
def State.passBy (s : State) : State := s.modStrands s.cur.skein s.cur.strands (fun _ t => t.advance)

/-- Act in each guard-true strand of the issue set, in ascending lane order; `f` leaves each where it goes. Those that
trap enter together; the guard-false strands go on (R42, R148, R176). -/
def State.eachStrand (s : State) (act : List Nat) (f : State → Nat → Strand → State × Option TrapReq) : State :=
  let s0 := s.modStrands s.cur.skein (s.cur.strands.filter (fun j => !act.contains j)) (fun _ x => x.advance)
  let r := (s.cur.strands.filter (fun j => act.contains j)).foldl (fun (p : State × List TrapReq) i =>
    match p.1.strand? s.cur.skein i with
    | none => p
    | some t =>
      let o := f p.1 i t
      (o.1, p.2 ++ o.2.toList)) (s0, [])
  if r.2 = [] then r.1 else r.1.trapHere r.2

/-- The L1 line that holds a VA for a skein's L1 group, of the generation that the skein's requests carry (R12), where the
turn lets it be held. -/
def State.l1Find (s : State) (k domain va : Nat) : Option L1Line :=
  if s.cur.l1 then (Cells.get [] s.l1 (s.l1Key k)).find? (fun l => l.domain == domain && l.line == va / 256 &&
    (s.skein? k).elim false (fun sk => l.gen == s.genOf sk.ctx)) else none

/-- The traps of an access of the strands that act: its check, and its key where the L1 group holds the line with it
(R173, R175). `right`: bit 0 R, bit 1 W. -/
def State.accessCheck (s : State) (sk : Skein) (base : Dword) (ea : Int) (n : Nat) (right : Nat → Bool) :
    Except (Nat × Word) Nat :=
  match checkGlobal base ea n with
  | .error e => .error e
  | .ok va =>
    match s.l1Find s.cur.skein (s.domainOf sk.ctx) va with
    | some l => if right (s.keyRights (sk.core.getD 0) sk.ctx l.key) then .ok va else .error (0x24, BitVec.ofInt 32 ea)
    | none => .ok va

/-! ### Rate limiters (R304, R305) -/

/-- The tokens of a request: its payload in bytes, or 64 without one. -/
def Req.tokens (r : Req) : Nat := if r.sentBytes = 0 then 64 else r.sentBytes

/-- The setting of a partition's limiter at a point: clusters 0 to 95, the fabric egress 96, the CXL port 97. -/
def limitOf (p : PartSettings) (point : Nat) : Word :=
  if point = 97 then p.limPool else if point = 96 then p.limFabric else p.limLoom

/-- Take a new request's tokens at a point: `none` while the bucket has too few. Tokens are in seventeenths of a byte,
of which RATE GB/s refills 20 × RATE in one cc. What asks for more than the bucket holds, a copy's whole chunk, empties it. -/
def State.takeTokens (s : State) (part point : Nat) (bytes : Nat) : Option State :=
  match s.part? part with
  | none => some s
  | some p =>
    let w := (limitOf p.settings point).toNat
    let rate := bits w 31 16
    if rate = 0 then some s
    else
      let full := Nat.max 1 (bits w 7 0) * 4096 * 17
      let have' := match Tab.get p.limiters point with
        | some b => Nat.min full (b.tokens + (s.clock - b.last) * rate * 20)
        | none => full
      if have' < Nat.min (bytes * 17) full then none
      else some (s.modPart part (fun x => { x with
        limiters := Tab.set x.limiters point (some { tokens := have' - bytes * 17, last := s.clock }) }))

/-- The tokens of a home's request to the pool, where the page is a pool frame and the home's L2 does not hold what is asked
for: at the CXL port (R304). -/
def State.poolTokens (s : State) (ctx domain va n bytes : Nat) (s2 : Stage2) : Option State :=
  let tdom := transDomain s.homes domain va
  let held : Bool := (l2Find s.homes tdom va).elim false (fun l => l.sectors &&& sectorsOf va n == sectorsOf va n)
  if s2.tier ≠ 1 ∨ held then some s
  else s.takeTokens (match s.ctx? ctx with
    | some c => c.partition
    | none => (((Tab.list s.parts).find? (fun p => p.2.domain == domain)).map Prod.fst).getD 64) 97 bytes

end Sys2Proof.Machine
end

