-- ==== Sys2Proof/Machine/Value.lean ====
section
/-! DEFINITION. Machine/Value.lean: the value that a load returns: the stores it must see, the moments it may read, the copies
that an L1 group holds and their replacement (R153, R156 to R159, R166, R167, R178, R182). -/

namespace Sys2Proof.Machine

/-! ### Stores that a load must see (R156) -/

/-- The cores of a skein's L1 group (R156). -/
def State.l1Cores (s : State) (k c : Nat) : List Nat :=
  if s.fused k then
    match (s.skein? k).bind (fun sk => s.bolt? sk.bolt) with
    | some b => b.skeins.filterMap (fun j => (s.skein? j).bind Skein.core)
    | none => [c]
  else [c]

/-- Whether a request has been performed, or will never be (R154, R175). -/
def Req.done (r : Req) : Bool := match r.stage with
  | .replied code _ => code == 0 || code == 0x100
  | .returned code _ => code == 0 || code == 0x100
  | .denied => true
  | .shadowBad => true
  | _ => false

/-- Whether a request is one of a core to a line of a domain (R154). -/
def Req.onLine (r : Req) (c domain va : Nat) : Bool := r.core == c && r.domain == domain && r.va / 256 == va / 256

/-- What the spec leaves open of another core's store of a fused L1 group, settled for a load that is performed before the
request number `p`: whether it has reached the slice by then, in issue order for each line, and, of one on its way to
another module, whether it has taken effect there (R156; log 26). -/
def State.settleStore (s : State) (id p : Nat) : State :=
  match s.req? id with
  | none => s
  | some r =>
    let s1 :=
      if r.reached.isSome ∨ p ≤ r.unreached ∨ p ≤ id then s
      else
        let before := (Tab.list s.reqs).any (fun e => decide (e.1 < id) && e.2.isStore && !e.2.done &&
          e.2.onLine r.core r.domain r.va && (match e.2.reached with
            | some t => decide (p < t)
            | none => true))
        let b := s.freeBool
        if b.1 ∧ ¬ before then b.2.setReached id p else b.2.modReq id (fun x => { x with unreached := max x.unreached p })
    match r.stage with
    | .remote _ =>
      if r.stamp ≠ 0 then s1
      else
        let b := s1.freeBool
        if b.1 then b.2.modReq id (fun x => { x with stamp := p }) else b.2
    | _ => s1

/-- The same for every store of the other cores of a fused L1 group to a line. -/
def State.settleStores (s : State) (k c domain va p : Nat) : State :=
  let g := s.l1Key k
  if g < 1024 then s
  else (Tab.list s.reqs).foldl (fun t e =>
    if e.2.isStore ∧ ¬ e.2.done ∧ e.2.group = g ∧ e.2.core ≠ c ∧ e.2.domain = domain ∧ e.2.va / 256 = va / 256 then
      t.settleStore e.1 p
    else t) s

/-- Pending among the requests (R156), for a load of a byte that is performed before the request number `p`: issue number and
data of its core's earlier stores not yet in effect (`heldOnly`: those held on a NACK), and of the stores of other cores that
had reached the fused L1. -/
def State.pendingReqs (s : State) (k c seq dom p va : Nat) (heldOnly : Bool) : List (Nat × Byte) :=
  let g := s.l1Key k
  let tdom := transDomain s.homes dom va
  (Tab.list s.reqs).filterMap (fun e =>
    let r := e.2
    if r.isStore && decide (r.va ≤ va ∧ va < r.va + r.size) && !r.done && transDomain s.homes r.domain va == tdom &&
        (if r.core = c then decide (r.seq < seq) && (!heldOnly || r.stopped)
          else decide (1024 ≤ g) && r.group == g && (match r.reached with
            | some t => decide (t ≤ p)
            | none => false) && (match r.stage with
            | .remote _ => r.stamp == 0 || decide (p < r.stamp)
            | _ => true)) then
      some (r.seq, nth 0 r.data (va - r.va)) else none)

/-- Pending among the writes that took effect after a moment. -/
def State.pendingHist (s : State) (k c seq p m : Nat) (h : List HistEntry) : List (Nat × Byte) :=
  let cores := s.l1Cores k c
  h.reverse.filterMap (fun e =>
    if m < e.moment ∧ ((e.core = c ∧ e.seq < seq) ∨
        (e.core ≠ c ∧ cores.contains e.core ∧ e.reached ≠ 0 ∧ e.reached ≤ p)) then some (e.seq, e.new) else none)

/-- Overlay pending stores in issue order. -/
def overlayPending (ps : List (Nat × Byte)) (v : Byte) : Byte :=
  (sortBy (fun (a b : Nat × Byte) => decide (a.1 ≤ b.1)) ps).foldl (fun _ e => e.2) v

/-! ### Moments (R157) -/

/-- A byte as it stands at its point of visibility, where it is mapped; else what was last written to it. -/
def State.currentByte (s : State) (tdom va : Nat) (h : List HistEntry) : Byte :=
  let gone : Byte := match h with
    | e :: _ => e.new
    | [] => 0
  match homeAttr s.homes tdom va with
  | .error _ => gone
  | .ok a => match Tab.get s.homes.stage2 (s2Key tdom a.dfn) with
    | some s2 => Cells.get 0 s.homes.mem (physAddr s2.frame va)
    | none => gone

/-- ValueOf for one byte of a load of a skein's strand at a moment, performed before the request number `p` (R157). -/
def State.loadByte (s : State) (k c seq dom p m va : Nat) : Byte :=
  let tdom := transDomain s.homes dom va
  let h := Cells.get [] s.homes.hist (locKey tdom va)
  overlayPending (s.pendingHist k c seq p m h ++ s.pendingReqs k c seq dom p va false)
    (valueAt (s.currentByte tdom va h) m h)

/-- Whether some bytes lie in the rows of a range. -/
def Rows.meets (r : Rows) (va n : Nat) : Bool :=
  if r.stride ≤ r.rowb then decide (va < r.lo + (r.rows - 1) * r.stride + r.rowb ∧ r.lo < va + n)
  else (List.range r.rows).any (fun k => decide (va < r.lo + k * r.stride + r.rowb ∧ r.lo + k * r.stride < va + n))

/-- The earliest moment that a load of some bytes may read (R157). -/
def State.loadLow (s : State) (k c i dom va n : Nat) : Nat :=
  match s.skein? k with
  | none => 0
  | some sk =>
    let cw := (sk.cwaits.filter (fun w => decide (w.weft ≤ i ∧ i < w.weft + w.g) && w.dest.meets va n)).map
      CopyWait.moment
    let ll := (List.range n).map (fun j => Cells.get 0 (s.core c).lastLoad (locKey dom (va + j)))
    listMax (Cells.get 0 sk.acqs i :: (cw ++ ll))

/-- The latest publish of some bytes up to a moment: a load that reaches a home after it returns its value or a later one
(R166). -/
def State.publishLow (s : State) (dom va n hi : Nat) : Nat :=
  listMax ((List.range n).flatMap (fun j =>
    ((Cells.get [] s.homes.hist (locKey (transDomain s.homes dom va) (va + j))).filter (fun e =>
      e.core == 769 && decide (e.moment ≤ hi))).map HistEntry.moment))

/-- The moment a load reads: any between its bounds; the last one where none is chosen, or at the point of visibility. -/
def pickMoment (lo hi : Nat) (vol : Bool) (want : Option Nat) : Nat :=
  match want with
  | none => hi
  | some m => if vol then hi else Nat.min hi (Nat.max lo m)

/-- Note the moment of a performed load (R157). -/
def State.noteLoad (s : State) (c dom va n m : Nat) : State :=
  s.modCore c (fun x => { x with
    lastLoad := (List.range n).foldl (fun l j => Cells.set 0 l (locKey dom (va + j)) m) x.lastLoad })

/-- The bytes of a load of this module performed between two moments and before the request number `p`, and the state that
remembers it. DESIGN CHOICE (log 54): all bytes of an access are read at one moment, where R159 lets the two halves of a
16-byte access come from different ones. -/
def State.loadValue (s : State) (k c i seq dom va n lo hi p : Nat) (vol : Bool) (want : Option Nat) : List Byte × State :=
  let t := s.settleStores k c dom va p
  let m := pickMoment (max lo (t.loadLow k c i dom va n)) hi vol want
  ((List.range n).map (fun j => t.loadByte k c seq dom p m (va + j)), t.noteLoad c dom va n m)

/-- What a WATCH delivers of the word that its home read at a moment, before the request number `p`: the stores pending then
stay overlaid (R156, R157, R183). -/
def State.watchValue (s : State) (k c seq dom p va m : Nat) (val : Word) : Word :=
  BitVec.ofNat 32 (ofBytes ((bytesOf 4 val.toNat).zipIdx.map (fun e =>
    let h := Cells.get [] s.homes.hist (locKey (transDomain s.homes dom va) (va + e.2))
    overlayPending (s.pendingHist k c seq p m h ++ s.pendingReqs k c seq dom p (va + e.2) false) e.1)))

/-! ### The copies in an L1 group (R13, R167, R178, R182) -/

/-- How many lines an L1 group holds: 128 KiB of each core, at most 1 MiB fused (R13). -/
def State.l1Lines (s : State) (g : Nat) : Nat :=
  if g < 1024 then 512 else min 4096 (512 * (s.bolt? (g - 1024)).elim 1 (fun b => b.skeins.length))

/-- Put a line into an L1 group. A full group gives up a line of the lowest retention it holds; which, the spec leaves open
(R178; log 26). -/
def State.putL1 (s : State) (g : Nat) (l : L1Line) : State :=
  let put (t : State) : State := { t with
    l1 := Cells.set [] t.l1 g ((Cells.get [] t.l1 g).filter (fun x => !(x.domain == l.domain && x.line == l.line)) ++ [l]) }
  let ls := (Cells.get [] s.l1 g).filter (fun x => !(x.domain == l.domain && x.line == l.line))
  if ls.length < s.l1Lines g then put s
  else
    let low := ls.filter (fun x => x.ret == ls.foldl (fun m y => min m y.ret) 2)
    let s1 : State := { s with free := s.free + 1 }
    match low[Config.freeNat s.free % low.length]? with
    | some o => put (s1.dropL1 g o.domain (o.line * 256))
    | none => put s1

/-- The copy that an L1 group holds of a line of a domain. -/
def State.l1Copy (s : State) (g domain va : Nat) : Option L1Line :=
  (Cells.get [] s.l1 g).find? (fun l => l.domain == domain && l.line == va / 256)

/-- A core has read bytes of another module's line: no core of its L1 group reads them older in a copy afterwards (R157). The
copy learns them, or dies where it knows them otherwise; fills that are on their way, which may be older, are not installed. -/
def State.farSeen (s : State) (g domain va : Nat) (bytes : List Byte) : State :=
  match s.l1Copy g domain va with
  | none => s.noFillLine g domain va
  | some l =>
    if bytes.zipIdx.all (fun e => (Tab.get l.data (va % 256 + e.2)).all (· == e.1)) then s.l1Write g domain va bytes
    else s.dropL1 g domain va

/-- A reply brings a line (R178, R182): it is put into the L1 group, unless the request does not fill it or another reply has
shown the line newer. `bytes` are what it brings of another module's line. -/
def State.fillL1 (s : State) (r : Req) (key : Nat) (bytes : List Byte) : State :=
  let far : Bool := !s.isLocal r.va
  let old := s.l1Copy r.group r.domain r.va
  let s1 := if far ∧ bytes ≠ [] then s.farSeen r.group r.domain r.va bytes else s
  let now := s1.l1Copy r.group r.domain r.va
  if r.vol ∨ r.noFill ∨ r.pol = 1 ∨ (r.kind = .pref ∧ r.fn = 0) ∨
      (1024 ≤ r.group ∧ (s.bolt? (r.group - 1024)).isNone) ∨ (old.isSome ∧ now.isNone) then s1
  else
    let known : Tab Byte := match now with
      | some l => l.data
      | none => if far then bytes.zipIdx.foldl (fun m e => Tab.set m (r.va % 256 + e.2) (some e.1)) [] else []
    s1.putL1 r.group
      { domain := r.domain, gen := r.gen, line := r.va / 256, key := key, ret := retOf r.pol, data := known }

/-- Whether a load of the core to the line is still on its way: a later one follows it on its path (R154, R157). -/
def State.loadFlying (s : State) (c dom va : Nat) : Bool :=
  (Tab.list s.reqs).any (fun e => e.2.onLine c dom va && !e.2.stopped &&
    decide (e.2.kind = .load ∨ e.2.kind = .ldga ∨ e.2.kind = .fill ∨ (e.2.kind = .atomic ∧ e.2.reg ≠ 63)))

/-- Whether the home of a line of this module holds it poisoned (R369). -/
def State.linePoison (s : State) (dom va : Nat) : Bool :=
  let tdom := transDomain s.homes dom va
  s.isLocal va && (match homeAttr s.homes tdom va with
    | .ok a => (Tab.get s.homes.stage2 (s2Key tdom a.dfn)).elim false (fun e => linePoisoned s.homes e va)
    | .error _ => false)

/-- The line of the L1 group that answers a load of the core at once: never one that is poisoned at its home (R369). -/
def State.l1Hit (s : State) (k c dom va : Nat) : Option L1Line :=
  if s.loadFlying c dom va ∨ s.linePoison dom va then none else s.l1Find k dom va

/-- The bytes of another module's line that an L1 group holds: those it knows; what else the line brought is free, once
(log 25). -/
def State.l1Bytes (s : State) (g dom va n : Nat) (l : L1Line) : List Byte × State :=
  let d := (List.range n).foldl (fun (p : Tab Byte × Nat) j =>
    match Tab.get p.1 (va % 256 + j) with
    | some _ => p
    | none => (Tab.set p.1 (va % 256 + j) (some (Config.freeByte p.2)), p.2 + 1)) (l.data, s.free)
  ((List.range n).map (fun j => (Tab.get d.1 (va % 256 + j)).getD 0),
   { s with
     free := d.2
     l1 := Cells.set [] s.l1 g ((Cells.get [] s.l1 g).map (fun x =>
       if x.domain = dom ∧ x.line = va / 256 then { x with data := d.1 } else x)) })

/-- The bytes that a hit in the L1 group gives a load (R157, R167). -/
def State.hitValue (s : State) (k c i seq dom va n : Nat) (l : L1Line) (want : Option Nat) : List Byte × State :=
  if s.isLocal va then s.loadValue k c i seq dom va n 0 s.seq s.nextId false want
  else
    let t := s.settleStores k c dom va s.nextId
    let b := t.l1Bytes (t.l1Key k) dom va n l
    (b.1.zipIdx.map (fun e => overlayPending (t.pendingReqs k c seq dom s.nextId (va + e.2) false) e.1), b.2)

end Sys2Proof.Machine
end

