-- ==== Sys2Proof/Machine/Launch.lean ====
section
/-! DEFINITION. Machine/Launch.lean: code-object headers and launch records, the pending-launch store and the overflow
ring, the event vector's test, triggers, spanned launches, and the EVT instructions (R135, R266, R306 to R320). -/

namespace Sys2Proof.Machine

/-- `n` bytes at an offset, as a number. -/
def fieldAt (b : List Byte) (off n : Nat) : Nat := ofBytes ((b.drop off).take n)
def zeroAt (b : List Byte) (off n : Nat) : Bool := ((b.drop off).take n).all (· == 0)

/-! ### Headers and records (R306, R307, R310, R314) -/

/-- A header of 64 bytes: the kernel, or the refusal reason 1 or 2 of R319. -/
def parseHeader (va : Nat) (b : List Byte) : Except Nat Kernel :=
  let minor := fieldAt b 4 1
  let level := fieldAt b 6 1
  let entry := fieldAt b 8 4
  let code := fieldAt b 12 4
  let strands := fieldAt b 16 2
  let vregs := fieldAt b 18 1
  let tiles := fieldAt b 19 1
  let scratch := fieldAt b 20 4
  let width := fieldAt b 24 1
  let rstack := fieldAt b 26 2
  let flags := fieldAt b 28 1
  let relaunch := fieldAt b 29 1
  let args := fieldAt b 30 2
  let dataOff := fieldAt b 32 4
  if fieldAt b 0 4 ≠ 0x4B4C4548 ∨ fieldAt b 5 1 ≠ 3 ∨ 1 < minor ∨ (level ≠ 2 ∧ level ≠ 3) then .error 1
  else if zeroAt b 7 1 ∧ entry % 4 ≠ 3 ∧ entry * 4 < code ∧ code % 16 = 0 ∧ 1 ≤ strands ∧ strands ≤ 1024 ∧
      1 ≤ vregs ∧ vregs ≤ 63 ∧ tiles ≤ 16 ∧ scratch ≤ 393216 ∧ scratch % 256 = 0 ∧ width < 64 ∧ width % 8 ≤ 5 ∧
      width / 8 ≤ 5 ∧ width % 8 ≤ width / 8 ∧ zeroAt b 25 1 ∧ rstack % 2 = 0 ∧ 4 ≤ rstack ∧ rstack ≤ 1024 ∧ flags < 4 ∧
      relaunch ≤ 2 ∧ args ≤ 4096 ∧ args % 8 = 0 ∧ dataOff % 16 = 0 ∧ 64 + code ≤ dataOff ∧ zeroAt b 40 24 then
    .ok { minor := minor, level := level, vregs := vregs, tiles := tiles, rstack := rstack, scratch := scratch,
          strands := strands, minCode := width % 8, maxCode := width / 8, rigid := bit flags 0, cosched := bit flags 1,
          relaunch := relaunch, entry := BitVec.ofNat 32 entry, base := va, codeSize := code, dataOff := dataOff,
          argSize := args }
  else .error 2

/-- The fields of a launch record (R310). -/
structure LaunchRec where
  kernVa : Nat
  args : Nat
  nbolt : Nat
  nskein : Nat
  prio : Nat
  fuse : Bool
  span : Bool
  spanList : List Nat
  sgen : Nat
  wait : Nat
  set : Nat
  clear : Nat
  deriving DecidableEq, Repr

/-- A record of 256 bytes, where every field is within its limits. -/
def parseRecord (b : List Byte) : Option LaunchRec :=
  let kernel := fieldAt b 0 8
  let args := fieldAt b 8 8
  let nbolt := fieldAt b 16 2
  let nskein := fieldAt b 20 1
  let prio := fieldAt b 21 1
  let flags := fieldAt b 22 2
  let spann := fieldAt b 24 2
  let sgen := fieldAt b 26 2
  let span := bit flags 1
  let entries := (List.range 64).map (fun j => fieldAt b (128 + 2 * j) 2)
  if kernel % 16 = 0 ∧ kernel < 2 ^ 57 ∧ args % 8 = 0 ∧ 1 ≤ nbolt ∧ zeroAt b 18 2 ∧ 1 ≤ nskein ∧ nskein ≤ 8 ∧ prio < 8 ∧
      flags < 4 ∧ (if span then 2 ≤ spann ∧ spann ≤ 64 else spann = 1 ∧ sgen = 0) ∧ zeroAt b 28 4 ∧
      (if span then (entries.take spann).all (fun x => decide (x < 1024)) ∧ (entries.drop spann).all (· == 0)
        else entries.all (· == 0)) then
    some { kernVa := kernel, args := args, nbolt := nbolt, nskein := nskein, prio := prio, fuse := bit flags 0,
           span := span, spanList := if span then entries.take spann else [], sgen := sgen, wait := fieldAt b 32 32,
           set := fieldAt b 64 32, clear := fieldAt b 96 32 }
  else none

/-! ### Capacity and the return-stack pool (R65, R135, R261, R266) -/

/-- Bytes of a strand's return-stack area (R135). -/
def rsArea (rstack : Nat) : Nat := alignUp ((rstack - 4) * 4) 16

/-- A pad's retired data banks. -/
def Scratch.retiredBanks (sc : Scratch) : Nat :=
  (sc.groups.filter (fun e => decide (1 ≤ e.2.retired ∧ e.2.retired ≤ 4))).length

/-- How many skeins of a kernel a core could hold with nothing else on it (R13, R261, R266). The 12,288 bytes of each retired data
bank do not count; the spec names no event that retires a tile. -/
def coreRoom (c : CoreSt) (cap : Nat) (kern : Kernel) (fuse : Bool) : Nat :=
  let v := slotsFor kern.strands kern.minCode
  if c.offline ∨ eligible c.lanes cap kern.strands v = [] then 0
  else
    let n := min (min (if kern.scratch = 0 then 32 else (393216 - 12288 * c.scratch.retiredBanks) / alignUp kern.scratch 512)
        (if kern.tiles = 0 then 32 else 16 / kern.tiles))
      (min (min (32 / v) (1024 / kern.strands)) (65536 / (kern.strands * kern.vregs)))
    if fuse then min 1 n else n

/-- How many bolts of `n` skeins fit cores of these capacities, the skeins of a bolt on distinct cores. -/
def boltRoom (n : Nat) (caps : List Nat) : Nat :=
  listMax ((List.range 257).filter (fun b => decide (b * n ≤ (caps.map (fun c => min c b)).sum)))

/-- The cores of a partition, by cluster. -/
def Partition.clusters (p : Partition) : List Nat :=
  p.quads.flatMap (fun q => (List.range 6).map (fun j => q * 6 + j))
def clusterCores (cl : Nat) : List Nat := (List.range 8).map (fun j => cl * 8 + j)

/-- The cosched check of R266. -/
def State.coschedFits (s : State) (part : Nat) (kern : Kernel) (nbolt nskein : Nat) (fuse : Bool) : Bool :=
  match s.part? part with
  | none => false
  | some p => decide (nbolt ≤ (p.clusters.map (fun cl =>
      boltRoom nskein ((clusterCores cl).map (fun c => coreRoom (s.core c) p.settings.cap kern fuse)))).sum)

/-! ### The store, the ring and the test (R311 to R313, R317) -/

def Launch.inStore (l : Launch) : Bool := l.state != .ring

/-- Records of a context in the store; in its ring. -/
def State.stored (s : State) (ctx : Nat) : Nat :=
  ((Tab.list s.launches).filter (fun e => e.2.inStore && e.2.ctx == ctx)).length
def State.ringed (s : State) (ctx : Nat) : List (Nat × Launch) :=
  (Tab.list s.launches).filter (fun e => !e.2.inStore && e.2.ctx == ctx)
/-- Whether a record finds both the context's entries and the store's not all in use. -/
def State.entryFree (s : State) (ctx : Nat) : Bool :=
  decide (s.stored ctx < 256) && decide (((Tab.list s.launches).filter (fun e => e.2.inStore)).length < 4096)
/-- The lowest LSLOT not in use. -/
def State.freeSlot (s : State) : Nat :=
  ((List.range 4096).find? (fun n => (Tab.list s.launches).all (fun e => !e.2.inStore || e.2.lslot != n))).getD 0

def State.modLaunch (s : State) (l : Nat) (f : Launch → Launch) : State := { s with launches := Tab.upd s.launches l f }

/-- Whether a context's state lets a record be admitted (R313, R326, R327). -/
def CtxState.admits : CtxState → Bool
  | .free => false
  | .faulted => false
  | .draining => false
  | .dead => false
  | _ => true

/-- Order of the test: PRIO descending, then submission. -/
def testBefore (a b : Nat × Launch) : Bool :=
  decide (b.2.prio < a.2.prio) || (a.2.prio == b.2.prio && decide (a.2.order ≤ b.2.order))

/-- Admit(r) where it is eligible: EV loses its clear mask, and it is handed to the scheduler, or held for START with
its READY token (R313, R317). -/
def State.admitRecord (s : State) (l : Nat) : State :=
  match Tab.get s.launches l with
  | none => s
  | some r =>
    match s.ctx? r.ctx with
    | none => s
    | some c =>
      if r.state = .stored ∧ c.state.admits ∧ c.ev &&& r.wait = r.wait then
        let s1 := ((s.modCtx r.ctx (fun x => { x with ev := x.ev - (x.ev &&& r.clear) })).modLaunch l (fun x =>
          { x with eligible := s.nextId })).fresh
        if r.span then
          let t := s1.modLaunch l (fun x => { x with
            state := .heldSpan, ready := if r.spanList.head? = some s.modNo then x.ready ++ [s.modNo] else x.ready })
          match r.spanList.head? with
          | some m => if m = s.modNo then t else t.tellFor ((s.ctx? r.ctx).map Context.partition) (.ready m r.ctx r.sgen)
          | none => t
        else s1.modLaunch l (fun x => { x with state := .admitted })
      else s

/-- Test a context's stored records in order (R313). -/
def State.testStored (s : State) (ctx : Nat) : State :=
  (sortBy testBefore ((Tab.list s.launches).filter (fun e => e.2.ctx == ctx && e.2.state == .stored))).foldl
    (fun t e => t.admitRecord e.1) s

/-- Strands parked in LAUNCHB of a context issue again (R320). -/
def State.wakeLaunchb (s : State) (ctx : Nat) : State :=
  { s with skeins := s.skeins.map (fun (e : Nat × Option Skein) => (e.1, e.2.map (fun (sk : Skein) =>
      if sk.ctx = ctx then { sk with strands := sk.strands.map (fun (x : Nat × Option Strand) => (x.1, x.2.map (fun (t : Strand) =>
          if t.status = .parked .launchb then { t with status := .ready } else t))) } else sk))) }

/-- An entry of the store has freed (R312): the oldest ring record moves in, the freeing context's first. The strands that
wait in LAUNCHB of the context that freed it, and of the one whose ring slot has freed, issue again (R320). -/
def State.fillEntry (s : State) (ctx : Nat) : State :=
  let pick := match s.ringed ctx with
    | e :: _ => some e
    | [] => ((Tab.list s.launches).find? (fun e => !e.2.inStore && decide (s.stored e.2.ctx < 256)))
  let s1 := match pick with
    | none => s
    | some e =>
      if s.entryFree e.2.ctx then
        ((s.modLaunch e.1 (fun x => { x with state := .stored, lslot := s.freeSlot })).testStored e.2.ctx).wakeLaunchb e.2.ctx
      else s
  s1.wakeLaunchb ctx

/-- A launch is over: its entry frees. -/
def State.freeLaunch (s : State) (l : Nat) : State :=
  match Tab.get s.launches l with
  | none => s
  | some r => State.fillEntry { s with launches := Tab.set s.launches l none } r.ctx

/-- Submit a record whose tests passed: 0 stored with its LSLOT, 1 in the ring, 2 FULL (R312, R319). -/
def State.submit (s : State) (ctx : Nat) (device : Bool) (r : LaunchRec) (kern : Kernel) (bytes : List Byte) : Nat × Nat × State :=
  match s.ctx? ctx with
  | none => (2, 0, s)
  | some c =>
    let toStore := s.entryFree ctx && (s.ringed ctx).isEmpty
    let slot := s.freeSlot
    let l : Launch := {
      ctx := ctx, state := if toStore then .stored else .ring, lslot := slot, order := s.nextId, eligible := 0, kernVa := r.kernVa,
      kern := kern, args := r.args, nbolt := r.nbolt, nskein := r.nskein, prio := r.prio, fuse := r.fuse,
      span := r.span, spanList := r.spanList, sgen := r.sgen, wait := r.wait, set := r.set, clear := r.clear,
      ready := [], triggered := [], setDone := false, device := device, retired := [] }
    let put (t : State) : State := ({ t with launches := Tab.set t.launches t.nextId (some l) }).fresh
    if toStore then (0, slot, (put s).testStored ctx)
    else if (s.ringed ctx).length < c.ringSize then
      let s1 := (put s).modCtx ctx (fun x => { x with ringTail := x.ringTail + 1 })
      let va := c.ringVa + c.ringTail % c.ringSize * 256
      (1, 0, if s1.isLocal va then s1.owe ctx va (linePieces va bytes) else s1.spent va 0)
    else (2, 0, s)

/-- The tests of R319 after the record and header are read: a refusal reason, or the kernel. -/
def State.refuse (s : State) (ctx : Nat) (r : LaunchRec) (hdr : List Byte) : Except Nat Kernel :=
  match parseHeader r.kernVa hdr with
  | .error c => .error c
  | .ok kern =>
    match s.ctx? ctx with
    | none => .error 5
    | some c =>
      if kern.cosched ∧ ¬ s.coschedFits c.partition kern r.nbolt r.nskein r.fuse then .error 5
      else if 4 < kern.rstack ∧ c.poolSize < kern.strands * rsArea kern.rstack then .error 6
      else .ok kern

/-- A spanned record must list its own module, and no other held one of the context may have its SGEN (R317). -/
def State.spanOk (s : State) (ctx : Nat) (r : LaunchRec) : Bool :=
  !r.span || (r.spanList.contains s.modNo &&
    !(Tab.list s.launches).any (fun e => e.2.ctx == ctx && e.2.span && e.2.sgen == r.sgen && e.2.state != .admitted))

/-! ### Triggers (R315) -/

/-- A skein triggers: once for its launch; with the last one EV gains the set mask and the records are tested. -/
def State.trigger (s : State) (k : Nat) : State :=
  match s.skein? k with
  | none => s
  | some sk =>
    match (s.bolt? sk.bolt) with
    | none => s
    | some b =>
      match Tab.get s.launches b.launch with
      | none => s
      | some l =>
        let me := b.index * 8 + sk.index
        if l.triggered.contains me then s
        else
          let s1 := s.modLaunch b.launch (fun x => { x with triggered := x.triggered ++ [me] })
          if l.triggered.length + 1 = l.nbolt * l.nskein ∧ ¬ l.setDone then
            match s.ctx? l.ctx with
            | none => s1
            | some c =>
              if c.state.admits then
                ((s1.modLaunch b.launch (fun x => { x with setDone := true })).modCtx l.ctx (fun x =>
                  { x with ev := x.ev ||| l.set })).testStored l.ctx
              else s1
          else s1

/-- The bolt's DIRTY bit is set (R270). -/
def State.setDirty (s : State) (k : Nat) : State :=
  match s.skein? k with
  | none => s
  | some sk => s.modBolt sk.bolt (fun b => { b with dirty := true })

/-- A word that issues sets its bolt's DIRTY bit, whatever becomes of it (R270). -/
def issuedDirty (k : Nat) (r : Attempt) : Attempt := if r.1 then (true, r.2.setDirty k) else r

/-! ### EVT (R318 to R320) -/

/-- TRIGGER (R318): it waits for the writes of every weft of the skein. -/
def execTrigger (c : BitVec 1) (g : BitVec 3) (s : State) : Out :=
  s.word (.trigger c g) (fun sk t =>
    let act := t.acting g
    if act = [] then (true, t.passBy)
    else issuedDirty t.cur.skein (t.releasing act ((Tab.list sk.strands).map Prod.fst) none 2 (fun u =>
      (true, (if u.cur.strands.any (fun i => act.contains i) then u.trigger u.cur.skein else u).passBy))))

/-- What LAUNCH meets when it reads bytes: a NACK of a VA, with the record that another module gives it where it is that
module's; or a key denial of a VA. -/
inductive Fetched where
  | ok (b : List Byte) (s : State)
  | nack (code va : Nat) (away : Option Nat) (s : State)
  | deny (va : Nat) (s : State)
  | hold
  deriving DecidableEq, Repr

/-- The state after the reads. -/
def Fetched.state (d : State) : Fetched → State
  | .ok _ s => s
  | .nack _ _ _ s => s
  | .deny _ s => s
  | .hold => d

/-- `n` pieces of 16 bytes, as an instruction reads them at their homes. -/
def State.strandRead (s : State) (sk : Skein) : Nat → Nat → Fetched
  | _, 0 => .ok [] s
  | va, n + 1 =>
    let dom := s.domainOf sk.ctx
    let after : State := s.fetched (clusterOf (sk.core.getD 0)) dom va 16
    match s.unitRead dom (s.genOf sk.ctx) 0 (s.rightsVec (sk.core.getD 0) sk.ctx 0) va 16 with
    | .error e =>
      if e.1 = 0x100 then .deny e.2 after
      else if e.1 = 0x101 then .hold
      else .nack e.1 e.2 (if s.isLocal va then none else some (2 ^ 32 + Config.freeNat (s.free + 2) % 2 ^ 32)) after
    | .ok b => match State.strandRead after sk (va + 16) n with
      | .ok rest u => .ok (b ++ rest) u
      | other => other

/-- A strand's LAUNCH ends in a status. -/
def State.launchDone (s : State) (i : Nat) (d : VReg) (status : Word) : State :=
  s.modStrand s.cur.skein i (fun t => (t.wv d.toNat status).advance)

/-- The read of a LAUNCH failed: it parks, traps or stays (R319). -/
def State.launchStop (s : State) (sk : Skein) (i : Nat) (f : Fetched) : State × Option TrapReq :=
  match f with
  | .nack code at' away _ =>
    if fatalCode code then (s.fatalNack s.cur.skein (some i) s.cur.pc code at', none)
    else match away with
      | some rec => (s.parkStrand s.cur.skein i rec, none)
      | none =>
        match s.openFault { ctx := sk.ctx, domain := s.domainOf sk.ctx, va := at', code := code, flags := 0,
                            core := coreId (sk.core.getD 0), tag := 0, skein := 0 } with
        | some r => (r.2.parkStrand s.cur.skein i r.1, none)
        | none => (s, none)
  | .deny va _ => (s, some { strand := i, cause := 0x24, val := BitVec.ofNat 32 va })
  | _ => (s, none)

/-- LAUNCH and LAUNCHB in one strand (R319, R320). -/
def State.launchLane (d a : VReg) (block : Bool) (s : State) (i : Nat) (t : Strand) : State × Option TrapReq :=
  match s.skein? s.cur.skein with
  | none => (s, none)
  | some sk =>
    let base := t.rp a.toNat
    match s.accessCheck sk base base.toNat 256 (fun r => bit r 0) with
    | .error e => (s, some { strand := i, cause := e.1, val := e.2 })
    | .ok va =>
      match s.strandRead sk va 16 with
      | .ok bytes s1 =>
        let refuse (u : State) (reason : Nat) : State × Option TrapReq :=
          (u.launchDone i d (BitVec.ofNat 32 (0x80000000 + reason)), none)
        match parseRecord bytes with
        | none => refuse s1 3
        | some r =>
          if r.span then refuse s1 4
          else
            match s1.strandRead sk r.kernVa 4 with
            | .ok hdr s2 =>
              match s2.refuse sk.ctx r hdr with
              | .error reason => refuse s2 reason
              | .ok kern =>
                let o := s2.submit sk.ctx true r kern bytes
                if o.1 = 2 ∧ block then
                  (s2.modStrand s.cur.skein i (fun x => { x with status := .parked .launchb }), none)
                else (o.2.2.launchDone i d (BitVec.ofNat 32 o.1), none)
            | f => (f.state s1).launchStop sk i f
      | f => (f.state s).launchStop sk i f

/-- Whether one of some strands is parked on a NACK. -/
def State.anyNacked (s : State) (k : Nat) (is : List Nat) : Bool :=
  is.any (fun j => match s.strand? k j with
    | some x => (match x.status with
      | .parked (.nack _ _) => true
      | _ => false)
    | none => false)

/-- LAUNCH and LAUNCHB: the weft's release, then its guard-true strands in ascending lane order. -/
def State.launchWord (s : State) (i : Instr) (g : BitVec 3) (d a : VReg) (block : Bool) : Out :=
  s.word i (fun sk t =>
    let act := t.acting g
    if act = [] then (true, t.passBy)
    else issuedDirty t.cur.skein (t.releasing act (sk.members t.cur.weft) (some t.cur.weft) 2 (fun u =>
      let acts := u.cur.strands.filter (fun j => act.contains j)
      let v0 := (u.setDirty u.cur.skein).eachStrand acts (State.launchLane d a block)
      let trapping (j : Nat) : Bool := (v0.strand? u.cur.skein j).map Strand.active != (u.strand? u.cur.skein j).map Strand.active
      let wrote := acts.any (fun j => !trapping j && (v0.strand? u.cur.skein j).elim false (fun x => x.status == .ready && x.pc != u.cur.pc))
      let v := if wrote ∧ d ≠ 63 then v0.noteWrites u.cur.skein u.cur.weft [d.toNat] else v0
      (true, if v.anyNacked u.cur.skein acts then v.count u.cur.skein 5 1 else v))))

/-- LAUNCH (R319). -/
def execLaunch (c : BitVec 1) (g : BitVec 3) (d a : VReg) (s : State) : Out :=
  s.launchWord (.launch c g d a) g d a false
/-- LAUNCHB (R320). -/
def execLaunchb (c : BitVec 1) (g : BitVec 3) (d a : VReg) (s : State) : Out :=
  s.launchWord (.launchb c g d a) g d a true

/-! ### Tokens of spanned launches (R317) -/

/-- The held spanned record of a context with an SGEN. -/
def State.heldSpanOf (s : State) (ctx sgen : Nat) : Option (Nat × Launch) :=
  (Tab.list s.launches).find? (fun e => e.2.ctx == ctx && e.2.span && e.2.sgen == sgen && e.2.state == .heldSpan)

/-- READY_TOKEN (R317): the coordinator keeps a listed module's first READY; others are discarded. -/
def execReadyToken (ctx sgen module : Nat) (s : State) : Out :=
  .next (match (Tab.list s.launches).find? (fun e => e.2.ctx == ctx && e.2.span && e.2.sgen == sgen && e.2.state != .admitted) with
    | some l =>
      if l.2.spanList.head? = some s.modNo ∧ l.2.spanList.contains module ∧ ¬ l.2.ready.contains module ∧
          (module ≠ s.modNo ∨ l.2.state = .heldSpan) then
        s.modLaunch l.1 (fun x => { x with ready := x.ready ++ [module] })
      else s
    | none => s)

/-- START_TOKEN (R317): the held record goes to the scheduler. At the coordinator it is the step in which START leaves for every
other listed module, which takes every READY. -/
def execStartToken (ctx sgen : Nat) (s : State) : Out :=
  .next (match s.heldSpanOf ctx sgen with
    | some l =>
      let go := s.modLaunch l.1 (fun x => { x with state := .admitted })
      if l.2.spanList.head? ≠ some s.modNo then go
      else if ¬ l.2.spanList.all (fun m => l.2.ready.contains m) then s
      else (l.2.spanList.filter (· != s.modNo)).foldl (fun t m => t.tellFor ((s.ctx? ctx).map Context.partition) (.start m ctx sgen)) go
    | none => s)

end Sys2Proof.Machine
end

