-- ==== Sys2Proof/Machine/Barrier.lean ====
section
/-! DEFINITION. Machine/Barrier.lean: BAR and WATCH at the core (R275 to R284). -/

namespace Sys2Proof.Machine

/-! ### BAR (R277, R278) -/

/-- Whether a strand's arrival at a barrier is pending. -/
def State.barPending (s : State) (k i : Nat) (bolt : Bool) (num : Nat) : Bool :=
  (s.barrier k bolt num).pend.contains (strandKey k i)

/-- One strand at a BAR: op 0 SYNC, 1 ARRIVE, 2 WAIT. A second arrival waits for the next generation. -/
def State.barStrand (s : State) (k : Nat) (op : Nat) (bolt : Bool) (num : Nat) (acq : Bool) (i : Nat) : State :=
  let b := s.barrier k bolt num
  let wait (t : State) (stage : Nat) : State :=
    t.modStrand k i (fun x => { x with status := .rendezvous (.barrier bolt num b.gen acq stage) })
  let arrive (t : State) : State := t.setBarrier k bolt num { b with pend := b.pend ++ [strandKey k i] }
  if s.barPending k i bolt num then
    (if op = 0 then wait s 2 else if op = 1 then wait s 1 else wait s 0)
  else if op = 0 then wait (arrive s) 0
  else if op = 1 then (arrive s).modStrand k i (fun x => x.advance)
  else if acq then s.acquireThen k i
  else s.modStrand k i (fun x => x.advance)

/-- BAR for the issue set, and what it completes; a WAIT that finds nothing pending acquires at once. -/
def State.barEffect (s : State) (op : Nat) (bolt : Bool) (num : Nat) (acq : Bool) : State :=
  let k := s.cur.skein
  State.settleBarrier 1025 (s.cur.strands.foldl (fun t i => t.barStrand k op bolt num acq i) s) k bolt num

/-- BAR: the release of its scope, and the rendezvous, which the acquire follows (R162). Where an LDGA of the weft, or at bolt
scope or wider another posted request of it, is held or denied, a scoped BAR reports it before it arrives: a WAIT too, which
releases nothing (R183, R278). -/
def State.barWord (s : State) (i : Instr) (op : Nat) (l : BitVec 1) (sc : BitVec 2) (e : BitVec 1) (n : BitVec 4) : Out :=
  s.word i (fun sk t =>
    let ms := sk.members t.cur.weft
    let act := t.cur.strands
    let run : State → Attempt := fun u => (true, u.barEffect op (l == 1) n.toNat (e == 1 && op != 1))
    if e = 1 then
      let before : State → Attempt := fun u => u.waiting act (fun r =>
        r.stopped && ((r.kind == .ldga && r.skein == u.cur.skein && ms.contains r.strand) ||
          u.relNeed u.cur.skein ms sc.toNat r)) run
      if op = 2 then before t else t.releasing act ms (some t.cur.weft) sc.toNat before
    else run t)

/-- BAR.sync (R278). -/
def execBarSync (c : BitVec 1) (l : BitVec 1) (sc : BitVec 2) (e : BitVec 1) (n : BitVec 4) (s : State) : Out :=
  s.barWord (.barSync c l sc e n) 0 l sc e n
/-- BAR.arrive (R278). -/
def execBarArrive (c : BitVec 1) (l : BitVec 1) (sc : BitVec 2) (e : BitVec 1) (n : BitVec 4) (s : State) : Out :=
  s.barWord (.barArrive c l sc e n) 1 l sc e n
/-- BAR.wait (R278). -/
def execBarWait (c : BitVec 1) (l : BitVec 1) (sc : BitVec 2) (e : BitVec 1) (n : BitVec 4) (s : State) : Out :=
  s.barWord (.barWait c l sc e n) 2 l sc e n

/-! ### WATCH (R280 to R284) -/

/-- Start a watch of a strand: it shares the entry of its issue set for the same word and comparand, or makes one, on its way
to the word's home (R280). -/
def State.startWatch (s : State) (sk : Skein) (i va : Nat) (d : VReg) (f : Nat) (cmp : Word) (timeout : Nat) : State :=
  let c := sk.core.getD 0
  let seq := (s.core c).issueSeq
  let dom := s.domainOf sk.ctx
  let due := if timeout = 0 then none else some (s.clock + timeout)
  let park (t : State) (id : Nat) : State := t.modStrand s.cur.skein i (fun x =>
    { x with status := .parked (.watch id), watchLeft := none })
  match (Tab.list (s.core c).watches).find? (fun e => e.2.seq == seq && e.2.va == va && e.2.cond == f && e.2.cmp == cmp) with
  | some e => park (s.modWatch c e.1 (fun w => { w with strands := w.strands ++ [(i, due)] })) e.1
  | none =>
    let id := s.nextId
    let s0 := s.sendWcLine c dom va
    let w : Watch := {
      skein := s.cur.skein, weft := s.cur.weft, strands := [(i, due)], ctx := sk.ctx, domain := dom, gen := s.genOf sk.ctx,
      rights := s.rightsVec c sk.ctx 0, va := va, cond := f, cmp := cmp, reg := d.toNat, pc := s.cur.pc,
      stage := if s.isLocal va then 0 else 2, code := 0, record := 0, val := 0, moment := s.seq, seq := seq }
    let s1 := park (s0.fresh.modCore c (fun x => { x with watches := Tab.set x.watches id (some w) })) id
    if s.isLocal va then s1.sendToHome c (s.homeFor dom va) va 1 (.watch c id)
    else (s1.fabricBytes sk.ctx 64).sendFar (clusterOf c) va (.watch c id)

/-- WATCH (R282, R283); after a save it issues with the timeout that was left (R284). -/
def execWatch (c : BitVec 1) (g : BitVec 3) (d : BitVec 6) (a : BitVec 6) (b : BitVec 6) (f : BitVec 4) (s : State) : Out :=
  s.word (.watch c g d a b f) (fun sk t =>
    (true, (t.nextSeq (sk.core.getD 0)).eachStrand (t.acting g) (fun u i x =>
      match t.accessCheck sk (x.rp a.toNat) ((x.rp a.toNat).toNat : Int) 4 (fun v => bit v 0) with
      | .error e => (u, some { strand := i, cause := e.1, val := e.2 })
      | .ok va => (u.startWatch sk i va d f.toNat (x.rv d.toNat) (x.watchLeft.getD (x.rb t.cur.k b.toNat).toNat), none))))

/-- A watch ends for some of its strands: each receives the word that was read at a moment, before the request number `p`, or
parks, traps or ends its gang as a load's reply does, which PMC_PARKS does not count (R283). Code 0x100 stands for a key denial.
The entry goes with its last strand. -/
def State.endWatch (s : State) (c e : Nat) (which : Nat × Option Nat → Bool) (code rec : Nat) (val : Word)
    (moment p : Nat) : State :=
  match Tab.get (s.core c).watches e with
  | none => s
  | some w =>
    let rest := w.strands.filter (fun x => !which x)
    let here := (w.strands.filter (fun x => which x && (match s.strand? w.skein x.1 with
      | some t => t.status == .parked (.watch e)
      | none => false))).map Prod.fst
    let s1 := s.modCore c (fun x => { x with
      watches := Tab.set x.watches e (if rest.isEmpty then none else some { w with strands := rest }) })
    if here.isEmpty then s1
    else if code = 0x100 then
      s1.takeTraps w.skein w.weft w.pc (here.map (fun i => { strand := i, cause := 0x24, val := BitVec.ofNat 32 w.va }))
    else if code ≠ 0 then
      here.foldl (fun t i => t.nackStrand w.skein i w.pc code rec w.va) s1
    else
      let s2 := s1.modCore c (fun x => { x with lastLoad := (List.range 4).foldl (fun m j =>
        Cells.set 0 m (locKey w.domain (w.va + j)) (max moment (Cells.get 0 m (locKey w.domain (w.va + j))))) x.lastLoad })
      let s3 := s2.settleStores w.skein c w.domain w.va p
      let v := s3.watchValue w.skein c w.seq w.domain p w.va moment val
      let s4 := if s.isLocal w.va then s3 else s3.farSeen (s3.l1Key w.skein) w.domain w.va (bytesOf 4 v.toNat)
      (s4.modStrands w.skein here (fun _ x => { (x.wv w.reg v).advance with status := .ready })).noteWrites w.skein w.weft
        (if w.reg = 63 then [] else [w.reg])

/-- What another module's answer says at the core, whose key check may deny it: 0x100. -/
def Watch.remoteCode (w : Watch) (ans : RemoteAns) : Nat :=
  if ans.code ≠ 0 then ans.code else if bit w.rights (ans.key % 16) then 0 else 0x100

/-- The record of another module's NACK: it is kept there, under its own number (R296). -/
def remoteRecord (ans : RemoteAns) : Nat := 2 ^ 32 + ans.flags

/-- Another module's answer to a WATCH crosses the Loom from the fabric ingress (R347, R348; log 78). -/
def State.farWake (s : State) (core : Nat) (w : Watch) : State :=
  (s.fabricBytes w.ctx 64).enqueue (replyChan (clusterOf core) w.va) 225 2 (.passed ((s.ctx? w.ctx).map Context.partition) false)

/-- WAKE_PACKET (R281, R283): the home's answer or wake has reached the core. -/
def execWakePacket (core entry : Nat) (ans : RemoteAns) (s : State) : Out :=
  match Tab.get (s.core core).watches entry with
  | none => .next s
  | some w =>
    if s.isLocal w.va then
      (if w.stage = 4 then .next (s.endWatch core entry (fun _ => true) w.code w.record w.val w.moment w.stamp) else .next s)
    else .next ((s.farWake core w).endWatch core entry (fun _ => true) (w.remoteCode ans) (remoteRecord ans)
      (BitVec.ofNat 32 (ofBytes (ans.data.take 4))) s.seq s.nextId)

/-- Whether a strand's timeout has run out. -/
def watchDue (clock : Nat) (x : Nat × Option Nat) : Bool := match x.2 with
  | some dl => decide (dl ≤ clock)
  | none => false

/-- What the home of a cancelled watch gives: a code, its fault record, the word; `none` while the word is held, or while there is
no room for the record (R283). -/
def State.cancelWatch (s : State) (core : Nat) (w : Watch) : Option ((Nat × Nat × Word) × State) :=
  match judge s.homes w.domain w.gen w.va .read 0 true with
  | .page a s2 => some (if bit w.rights a.key then (0, 0, pageWord s.homes s2 w.va) else (0x100, 0, 0), s)
  | .nack code =>
    if fatalCode code then some ((code, 0, 0), s)
    else (s.openFault { ctx := w.ctx, domain := w.domain, va := w.va, code := code, flags := if core < 768 then 0 else 16,
                        core := namedCore core, tag := 0,
                        skein := 0 }).map (fun r => ((code, r.1, 0), r.2))
  | .deny => some ((0x100, 0, 0), s)
  | _ => none

/-- WATCH_TIMEOUT (R283): the core cancels an installed entry for the strands whose timeouts have run out; the word at that
moment is delivered. DESIGN CHOICE (log 19): a word that can no longer be read then is judged as a load of it is: its strands park,
trap or end their gang, and wait while the word is held. -/
def execWatchTimeout (core entry : Nat) (ans : RemoteAns) (s : State) : Out :=
  match Tab.get (s.core core).watches entry with
  | none => .next s
  | some w =>
    let due := watchDue s.clock
    if w.stage ≠ 2 ∨ ¬ w.strands.any due then .next s
    else if s.isLocal w.va then
      (match s.cancelWatch core w with
      | some r => .next (r.2.endWatch core entry due r.1.1 r.1.2.1 r.1.2.2 r.2.seq r.2.nextId)
      | none => .next s)
    else .next (((s.fabricBytes w.ctx 64).farWake core w).endWatch core entry due (w.remoteCode ans) (remoteRecord ans)
      (BitVec.ofNat 32 (ofBytes (ans.data.take 4))) s.seq s.nextId)

end Sys2Proof.Machine
end

