-- ==== Sys2Proof/Machine/XLane.lean ====
section
/-! DEFINITION. Machine/XLane.lean: the cross-lane instructions XLANE, REDI and REDF (R121 to R128). -/

namespace Sys2Proof.Machine

/-! ### Sources and participants (R121, R122) -/

/-- What a cross-lane instruction computes in each participant: from the skein, the weft, the participants in ascending
lane order, and K. -/
abbrev Cross := Skein → Nat → List Nat → Word → Nat → Strand → LaneOut

/-- Register `r` of logical lane `j`: the lane's own strand's, zero where no strand is, the reader's own outside the
weft (R122). -/
def laneReg (sk : Skein) (w : Nat) (r : Nat) (j : Int) (own : Word) : Word :=
  match Tab.get sk.wefts w with
  | none => own
  | some wf =>
    if 0 ≤ j ∧ j < (wf.g : Int) then
      match Tab.get sk.strands (w + j.toNat) with
      | some t => t.rv r
      | none => 0
    else own

/-- The values of register `r` over strands. -/
def partVals (sk : Skein) (r : Nat) (parts : List Nat) : List Word :=
  parts.map (fun i => match Tab.get sk.strands i with
    | some t => t.rv r
    | none => 0)

/-- How many strands have predicate `p` true. -/
def partCount (sk : Skein) (p : Nat) (parts : List Nat) : Nat :=
  (parts.filter (fun i => match Tab.get sk.strands i with
    | some t => t.rpr p
    | none => false)).length

/-! ### XLANE (R125) -/

/-- A shuffle whose source lane is `f i B`. -/
def xShuffle (d a b : VReg) (f : Nat → Nat → Int) : Cross := fun sk w _ k i t =>
  .ok (t.wv d.toNat (laneReg sk w a.toNat (f (i - w) (t.rb k b.toNat).toNat) (t.rv a.toNat)))

/-- BCAST: the source lane is B of the lowest participant. -/
def xBcast (d a b : VReg) : Cross := fun sk w parts k _ t =>
  let j : Nat := match parts with
    | [] => 0
    | q :: _ => match Tab.get sk.strands q with
      | some u => (u.rb k b.toNat).toNat
      | none => 0
  .ok (t.wv d.toNat (laneReg sk w a.toNat (j : Int) (t.rv a.toNat)))

/-- VOTE: 0 ALL, 1 ANY, 2 ONE. -/
def xVote (p m : BitVec 3) (a : BitVec 3) : Cross := fun sk _ parts _ _ t =>
  let n := partCount sk a.toNat parts
  .ok (t.wpr p.toNat (if m = 0 then n == parts.length else if m = 1 then decide (0 < n) else n == 1))

def xCount (d : VReg) (a : BitVec 3) : Cross := fun sk _ parts _ _ t =>
  .ok (t.wv d.toNat (BitVec.ofNat 32 (partCount sk a.toNat parts)))

def xRank (d : VReg) (a : BitVec 3) : Cross := fun sk _ parts _ i t =>
  .ok (t.wv d.toNat (BitVec.ofNat 32 (partCount sk a.toNat (parts.filter (fun j => decide (j < i))))))

/-! ### REDI (R126) -/

/-- Every participant receives the combination of register a over the participants. -/
def xRedi (d a : VReg) (f : Word → Word → Word) : Cross := fun sk _ parts _ _ t =>
  match partVals sk a.toNat parts with
  | [] => .ok t
  | x :: xs => .ok (t.wv d.toNat (xs.foldl f x))

/-! ### REDF (R127, R128) -/

/-- One correctly rounded RNE addition of FP32 values (R127). -/
def addRne (lvl2 : Bool) (x y : Word) : Word × FpFlags :=
  let o := Fmt.fp32.add { rm := 0, ftz := false, lvl2 := lvl2 } (fpv x) (fpv y)
  (BitVec.ofNat 32 o.bits, o.flags)

/-- One level of the pairwise tree: the sums of neighbours, and the flags. -/
def treeLevel (lvl2 : Bool) : List Word → List Word × FpFlags
  | x :: y :: t =>
    let r := addRne lvl2 x y
    let u := treeLevel lvl2 t
    (r.1 :: u.1, r.2 ||| u.2)
  | l => (l, 0)

/-- FADDT over the G lanes, in at most `n` levels. -/
def treeSum (lvl2 : Bool) : Nat → List Word → FpFlags → Word × FpFlags
  | _, [], f => (0, f)
  | _, [x], f => (x, f)
  | 0, x :: _, f => (x, f)
  | n + 1, l, f =>
    let r := treeLevel lvl2 l
    treeSum lvl2 n r.1 (f ||| r.2)

/-- FADDS: sequential, in lane order, from −0. -/
def seqSum (lvl2 : Bool) : List Word → Word → FpFlags → Word × FpFlags
  | [], s, f => (s, f)
  | x :: t, s, f =>
    let r := addRne lvl2 s x
    seqSum lvl2 t r.1 (f ||| r.2)

/-- FMIN and FMAX over the participants (R28). -/
def seqMinMax (lvl2 isMax : Bool) : List Word → Word → FpFlags → Word × FpFlags
  | [], s, f => (s, f)
  | x :: t, s, f =>
    let o := Fmt.fp32.minMax { rm := 0, ftz := false, lvl2 := lvl2 } isMax s.toNat x.toNat
    seqMinMax lvl2 isMax t (BitVec.ofNat 32 o.bits) (f ||| o.flags)

def negZero : Word := 0x80000000

/-- A participant's part of REDF: its value, flushed as its FPMODE says where `flush`, and its flags (R24, R123). -/
def redfDone (sk : Skein) (flush : Bool) (d : VReg) (r : Word × FpFlags) (t : Strand) : LaneOut :=
  let o : FpOut := ⟨r.1.toNat, r.2⟩
  let u := if flush then ftz32 (fpCtx sk.kern t) o else o
  fpDone false d.toNat u.flags (t.wv d.toNat (BitVec.ofNat 32 u.bits)) t

def lvl2Of (sk : Skein) : Bool := decide (sk.kern.level = 2)

/-- FADDT: the tree over lanes 0 to G − 1, −0 where no participant is. -/
def xFaddt (d a : VReg) : Cross := fun sk w parts _ _ t =>
  let g := match Tab.get sk.wefts w with
    | some wf => wf.g
    | none => 0
  let xs := (List.range g).map (fun j =>
    if parts.contains (w + j) then laneReg sk w a.toNat (j : Int) 0 else negZero)
  redfDone sk true d (treeSum (lvl2Of sk) 8 xs 0) t

def xFadds (d a : VReg) : Cross := fun sk _ parts _ _ t =>
  redfDone sk true d (seqSum (lvl2Of sk) (partVals sk a.toNat parts) negZero 0) t

/-- FMIN and FMAX. The value of a single participant is its own minimum: it is returned as it is, a NaN too, and raises
nothing (DESIGN CHOICE, log 51). -/
def xFminmax (isMax : Bool) (d a : VReg) : Cross := fun sk _ parts _ _ t =>
  match partVals sk a.toNat parts with
  | [] => .ok t
  | x :: xs => redfDone sk false d (seqMinMax (lvl2Of sk) isMax xs x 0) t

/-- SCANF: inclusive, sequential. -/
def xScanf (d a : VReg) : Cross := fun sk _ parts _ i t =>
  redfDone sk true d
    (seqSum (lvl2Of sk) (partVals sk a.toNat (parts.filter (fun j => decide (j ≤ i)))) negZero 0) t

/-- SCANI and SCANX: integer sums over the participants at or below, or below, the lane. -/
def xScani (below : Bool) (d a : VReg) : Cross := fun sk _ parts _ i t =>
  let xs := partVals sk a.toNat (parts.filter (fun j => if below then decide (j < i) else decide (j ≤ i)))
  .ok (t.wv d.toNat (xs.foldl (· + ·) 0))

/-! ### The operation of an instruction, and the .all wait (R121) -/

/-- The cross-lane operation of an instruction. -/
def crossOf : Instr → Option Cross
  | .shfl _ _ d a b _ => some (xShuffle d a b (fun _ v => (v : Int)))
  | .shflx _ _ d a b _ => some (xShuffle d a b (fun i v => ((i ^^^ v : Nat) : Int)))
  | .shflu _ _ d a b _ => some (xShuffle d a b (fun i v => (i : Int) - v))
  | .shfld _ _ d a b _ => some (xShuffle d a b (fun i v => (i : Int) + v))
  | .bcast _ _ d a b _ => some (xBcast d a b)
  | .vote _ _ p m a _ => some (xVote p m a)
  | .count _ _ d a _ => some (xCount d a)
  | .rank _ _ d a _ => some (xRank d a)
  | .rediIadd _ _ d a _ => some (xRedi d a (· + ·))
  | .rediImin _ _ d a _ => some (xRedi d a intMin)
  | .rediImax _ _ d a _ => some (xRedi d a intMax)
  | .rediUmin _ _ d a _ => some (xRedi d a intMinu)
  | .rediUmax _ _ d a _ => some (xRedi d a intMaxu)
  | .rediAnd _ _ d a _ => some (xRedi d a (· &&& ·))
  | .rediOr _ _ d a _ => some (xRedi d a (· ||| ·))
  | .rediXor _ _ d a _ => some (xRedi d a (· ^^^ ·))
  | .redfFaddt _ _ d a _ => some (xFaddt d a)
  | .redfFadds _ _ d a _ => some (xFadds d a)
  | .redfFmin _ _ d a _ => some (xFminmax false d a)
  | .redfFmax _ _ d a _ => some (xFminmax true d a)
  | .redfScani _ _ d a _ => some (xScani false d a)
  | .redfScanf _ _ d a _ => some (xScanf d a)
  | .redfScanx _ _ d a _ => some (xScani true d a)
  | _ => none

/-- Perform a cross-lane instruction on the current issue set. -/
def State.cross (s : State) (sk : Skein) (i : Instr) : State :=
  match crossOf i with
  | none => s
  | some f =>
    let g := (Instr.use i).g
    let parts := s.active g
    s.retire sk i (Instr.use i).dst (s.laneOuts (fun j t =>
      if t.rpr g then f sk s.cur.weft parts s.cur.k j t else .ok t))

/-- Whether the live strands of a weft all wait at one .all instruction: the instruction, its K and its PC. -/
def Skein.xlaneReady (sk : Skein) (w : Nat) : Option (Instr × Word × Word) :=
  match (sk.liveOf w).map (fun i => (Tab.get sk.strands i).bind (fun t => match t.status with
      | .rendezvous (.xlane j k) => some (j, k, t.pc)
      | _ => none)) with
  | some x :: rest => if rest.all (fun y => y.map (fun e => e.2.2) == some x.2.2) then some x else none
  | _ => none

/-- Complete an .all instruction whose last live strand has arrived, or whose last missing one has exited, once no write to
a source register of the weft's lanes is in flight (R121, R122). -/
def State.settleXlane (s : State) (k w : Nat) : State :=
  match (s.skein? k).bind (fun sk => (sk.xlaneReady w).map (fun x => (sk, x))) with
  | none => s
  | some (sk, i, kk, pc) =>
    if (Tab.list s.reqs).any (fun e => ldgaOn k (sk.members w) (Instr.use i).src e.2 && !e.2.refused) then s
    else
    let s1 := s.modStrands k (sk.liveOf w) (fun _ t => { t with status := .ready })
    match s1.skein? k with
    | none => s
    | some sk1 =>
      let s2 : State := { s1 with
        cur := { s1.cur with skein := k, weft := w, strands := sk.liveOf w, pc := pc, k := kk } }
      { s2.cross sk1 i with cur := s.cur }

/-- A cross-lane word: .any acts at once; .all waits in RENDEZVOUS, the guard-false strands with the others (R121). A
source lane's write in flight is waited for (R122), but by an .any without a participant. -/
def State.crossWord (s : State) (i : Instr) (any : Bool) : Out :=
  s.word i (fun sk t =>
    if any && (t.active (Instr.use i).g).isEmpty then (true, t.cross sk i) else
    t.waiting (t.active (Instr.use i).g)
      (ldgaOn t.cur.skein (sk.members t.cur.weft) (Instr.use i).src) (fun u =>
      if any then (true, u.cross sk i)
      else
        (true, (u.modStrands u.cur.skein u.cur.strands (fun _ x =>
          { x with status := .rendezvous (.xlane i u.cur.k) })).settleXlane u.cur.skein u.cur.weft)))

/-! ### The instructions -/

/-- SHFL (R125). -/
def execShfl (c : BitVec 1) (g : BitVec 3) (d : BitVec 6) (a : BitVec 6) (b : BitVec 6) (y : BitVec 1) (s : State) : Out :=
  s.crossWord (.shfl c g d a b y) (y == 1)

/-- SHFLX (R125). -/
def execShflx (c : BitVec 1) (g : BitVec 3) (d : BitVec 6) (a : BitVec 6) (b : BitVec 6) (y : BitVec 1) (s : State) : Out :=
  s.crossWord (.shflx c g d a b y) (y == 1)

/-- SHFLU (R125). -/
def execShflu (c : BitVec 1) (g : BitVec 3) (d : BitVec 6) (a : BitVec 6) (b : BitVec 6) (y : BitVec 1) (s : State) : Out :=
  s.crossWord (.shflu c g d a b y) (y == 1)

/-- SHFLD (R125). -/
def execShfld (c : BitVec 1) (g : BitVec 3) (d : BitVec 6) (a : BitVec 6) (b : BitVec 6) (y : BitVec 1) (s : State) : Out :=
  s.crossWord (.shfld c g d a b y) (y == 1)

/-- BCAST (R125). -/
def execBcast (c : BitVec 1) (g : BitVec 3) (d : BitVec 6) (a : BitVec 6) (b : BitVec 6) (y : BitVec 1) (s : State) : Out :=
  s.crossWord (.bcast c g d a b y) (y == 1)

/-- VOTE (R125). -/
def execVote (c : BitVec 1) (g : BitVec 3) (p : BitVec 3) (m : BitVec 3) (a : BitVec 3) (y : BitVec 1) (s : State) : Out :=
  s.crossWord (.vote c g p m a y) (y == 1)

/-- COUNT (R125). -/
def execCount (c : BitVec 1) (g : BitVec 3) (d : BitVec 6) (a : BitVec 3) (y : BitVec 1) (s : State) : Out :=
  s.crossWord (.count c g d a y) (y == 1)

/-- RANK (R125). -/
def execRank (c : BitVec 1) (g : BitVec 3) (d : BitVec 6) (a : BitVec 3) (y : BitVec 1) (s : State) : Out :=
  s.crossWord (.rank c g d a y) (y == 1)

/-- REDI_IADD (R126). -/
def execRediIadd (c : BitVec 1) (g : BitVec 3) (d : BitVec 6) (a : BitVec 6) (y : BitVec 1) (s : State) : Out :=
  s.crossWord (.rediIadd c g d a y) (y == 1)

/-- REDI_IMIN (R126). -/
def execRediImin (c : BitVec 1) (g : BitVec 3) (d : BitVec 6) (a : BitVec 6) (y : BitVec 1) (s : State) : Out :=
  s.crossWord (.rediImin c g d a y) (y == 1)

/-- REDI_IMAX (R126). -/
def execRediImax (c : BitVec 1) (g : BitVec 3) (d : BitVec 6) (a : BitVec 6) (y : BitVec 1) (s : State) : Out :=
  s.crossWord (.rediImax c g d a y) (y == 1)

/-- REDI_UMIN (R126). -/
def execRediUmin (c : BitVec 1) (g : BitVec 3) (d : BitVec 6) (a : BitVec 6) (y : BitVec 1) (s : State) : Out :=
  s.crossWord (.rediUmin c g d a y) (y == 1)

/-- REDI_UMAX (R126). -/
def execRediUmax (c : BitVec 1) (g : BitVec 3) (d : BitVec 6) (a : BitVec 6) (y : BitVec 1) (s : State) : Out :=
  s.crossWord (.rediUmax c g d a y) (y == 1)

/-- REDI_AND (R126). -/
def execRediAnd (c : BitVec 1) (g : BitVec 3) (d : BitVec 6) (a : BitVec 6) (y : BitVec 1) (s : State) : Out :=
  s.crossWord (.rediAnd c g d a y) (y == 1)

/-- REDI_OR (R126). -/
def execRediOr (c : BitVec 1) (g : BitVec 3) (d : BitVec 6) (a : BitVec 6) (y : BitVec 1) (s : State) : Out :=
  s.crossWord (.rediOr c g d a y) (y == 1)

/-- REDI_XOR (R126). -/
def execRediXor (c : BitVec 1) (g : BitVec 3) (d : BitVec 6) (a : BitVec 6) (y : BitVec 1) (s : State) : Out :=
  s.crossWord (.rediXor c g d a y) (y == 1)

/-- REDF_FADDT (R127). -/
def execRedfFaddt (c : BitVec 1) (g : BitVec 3) (d : BitVec 6) (a : BitVec 6) (y : BitVec 1) (s : State) : Out :=
  s.crossWord (.redfFaddt c g d a y) (y == 1)

/-- REDF_FADDS (R127). -/
def execRedfFadds (c : BitVec 1) (g : BitVec 3) (d : BitVec 6) (a : BitVec 6) (y : BitVec 1) (s : State) : Out :=
  s.crossWord (.redfFadds c g d a y) (y == 1)

/-- REDF_FMIN (R127). -/
def execRedfFmin (c : BitVec 1) (g : BitVec 3) (d : BitVec 6) (a : BitVec 6) (y : BitVec 1) (s : State) : Out :=
  s.crossWord (.redfFmin c g d a y) (y == 1)

/-- REDF_FMAX (R127). -/
def execRedfFmax (c : BitVec 1) (g : BitVec 3) (d : BitVec 6) (a : BitVec 6) (y : BitVec 1) (s : State) : Out :=
  s.crossWord (.redfFmax c g d a y) (y == 1)

/-- REDF_SCANI (R127). -/
def execRedfScani (c : BitVec 1) (g : BitVec 3) (d : BitVec 6) (a : BitVec 6) (y : BitVec 1) (s : State) : Out :=
  s.crossWord (.redfScani c g d a y) (y == 1)

/-- REDF_SCANF (R127). -/
def execRedfScanf (c : BitVec 1) (g : BitVec 3) (d : BitVec 6) (a : BitVec 6) (y : BitVec 1) (s : State) : Out :=
  s.crossWord (.redfScanf c g d a y) (y == 1)

/-- REDF_SCANX (R127). -/
def execRedfScanx (c : BitVec 1) (g : BitVec 3) (d : BitVec 6) (a : BitVec 6) (y : BitVec 1) (s : State) : Out :=
  s.crossWord (.redfScanx c g d a y) (y == 1)

end Sys2Proof.Machine
end

