-- ==== Sys2Proof/Machine/Control.lean ====
section
/-! DEFINITION. Machine/Control.lean: transfers of control, the return stack, SPLIT and JOIN, EXIT, WAITT and YIELD, the
software traps and the returns from a handler (R132 to R150). -/

namespace Sys2Proof.Machine

/-! ### Transfers (R39, R40, R133) -/

/-- A strand goes to a PC that R40 accepts, or traps BAD_TARGET. -/
def State.goTo (s : State) (sk : Skein) (i : Nat) (target : Int) (f : Strand → Strand) : State × Option TrapReq :=
  if targetOk sk.kern target then
    (s.modStrand s.cur.skein i (fun t => { f t with pc := BitVec.ofInt 32 target }), none)
  else (s, some { strand := i, cause := 0x09, val := BitVec.ofInt 32 target })

/-- BR (R133). -/
def execBr (g : BitVec 3) (d : BitVec 22) (s : State) : Out :=
  s.word (.br g d) (fun sk t =>
    (true, t.eachStrand (t.acting g) (fun u i x => u.goTo sk i (branchTarget x.pc d) id)))

/-- BRX (R133). -/
def execBrx (g : BitVec 3) (a : VReg) (s : State) : Out :=
  s.word (.brx g a) (fun sk t =>
    (true, t.eachStrand (t.acting g) (fun u i x => u.goTo sk i ((x.rv a.toNat).toNat : Int) id)))

/-! ### The return stack (R134 to R137) -/

/-- A strand's return-stack area (R135). -/
def Skein.rsBase (sk : Skein) (i : Nat) : Nat := match sk.rsBlock with
  | some b => b + i * rsArea sk.kern.rstack
  | none => 0

/-- RSDEPTH.DEPTH (R134). -/
def Strand.depth (t : Strand) : Nat := t.onChip.length + t.spilled

/-- Send a strand's own 8-byte spill or fill; the strand waits for its reply (R136). -/
def State.stackAccess (s : State) (sk : Skein) (i va : Nat) (kind : ReqKind) (data : List Byte) (target : Word) :
    State × Option TrapReq :=
  match s.accessCheck sk (BitVec.ofNat 64 va) (va : Int) 8 (fun v => bit v (if kind = .spill then 1 else 0)) with
  | .error e => (s, some { strand := i, cause := e.1, val := e.2 })
  | .ok va =>
    let s0 := s.nextSeq (sk.core.getD 0)
    let r : Req := { s0.mkReq kind sk i va 8 s.cur.pc with data := data, opnd := target.setWidth 64 }
    let id := s0.nextId
    let s1 := (({ s0 with reqs := Tab.set s0.reqs id (some r) }).fresh).modStrand s.cur.skein i
      (fun t => { t with hold := some id })
    let s2 :=
      if kind = .spill then
        (if s.isLocal va ∨ 1024 ≤ r.group then s1 else s1.l1Store r.group r.domain va data).killGlobal r.core r.domain va 8
      else s1.sendWcLine r.core r.domain va
    (s2.send id, none)

/-- Push(x) and go to the target (R136): a full chip spills its two oldest entries first. -/
def State.callTo (s : State) (sk : Skein) (i : Nat) (t : Strand) (target : Int) : State × Option TrapReq :=
  if ¬ targetOk sk.kern target then (s, some { strand := i, cause := 0x09, val := BitVec.ofInt 32 target })
  else if sk.kern.rstack ≤ t.depth then (s, some { strand := i, cause := 0x06, val := BitVec.ofNat 32 sk.kern.rstack })
  else if t.onChip.length = 4 then
    s.stackAccess sk i (sk.rsBase i + 4 * t.spilled) .spill
      (bytesOf 4 (nth 0 t.onChip 3).toNat ++ bytesOf 4 (nth 0 t.onChip 2).toNat) (BitVec.ofInt 32 target)
  else
    (s.modStrand s.cur.skein i (fun x =>
      { x with onChip := nextPc x.pc :: x.onChip, pc := BitVec.ofInt 32 target }), none)

/-- The spill of a CALL has taken effect: the CALL takes place (R136). -/
def Strand.spillDone (t : Strand) (target : Word) : Strand :=
  { t with onChip := nextPc t.pc :: t.onChip.take 2, spilled := t.spilled + 2, pc := target, hold := none }

/-- CALL (R133). -/
def execCall (g : BitVec 3) (d : BitVec 22) (s : State) : Out :=
  s.word (.call g d) (fun sk t =>
    (true, t.eachStrand (t.acting g) (fun u i x => u.callTo sk i x (branchTarget x.pc d))))

/-- CALLX (R133). -/
def execCallx (g : BitVec 3) (a : VReg) (s : State) : Out :=
  s.word (.callx g a) (fun sk t =>
    (true, t.eachStrand (t.acting g) (fun u i x => u.callTo sk i x ((x.rv a.toNat).toNat : Int))))

/-- Return to the newest entry on the chip; one that R40 rejects stays on the stack (R137). -/
def State.popTop (s : State) (sk : Skein) (i : Nat) (t : Strand) : State × Option TrapReq :=
  match t.onChip with
  | [] => (s, some { strand := i, cause := 0x05, val := 0 })
  | r :: rest => s.goTo sk i (r.toNat : Int) (fun x => { x with onChip := rest })

/-- RET (R136, R137). -/
def execRet (g : BitVec 3) (s : State) : Out :=
  s.word (.ret g) (fun sk t =>
    (true, t.eachStrand (t.acting g) (fun u i x =>
      if x.onChip = [] ∧ 0 < x.spilled then
        u.stackAccess sk i (sk.rsBase i + 4 * (x.spilled - 2)) .fill [] 0
      else u.popTop sk i x)))

/-- The fill of a RET has returned its two entries: they are on the chip, and the RET takes place. -/
def State.fillDone (s : State) (k i : Nat) (older newer : Word) : State :=
  match s.skein? k with
  | none => s
  | some sk =>
    let s1 := s.modStrand k i (fun t => { t with onChip := [newer, older], spilled := t.spilled - 2, hold := none })
    match s1.strand? k i, sk.weftOf i with
    | some t, some wf =>
      let s2 : State := { s1 with cur := { s1.cur with skein := k, weft := wf.1, strands := [i], pc := t.pc } }
      let r := s2.popTop sk i t
      let s3 := if r.2 = none then r.1 else r.1.takeTraps k wf.1 t.pc r.2.toList
      { s3 with cur := s.cur }
    | _, _ => s1

/-! ### SPLIT and JOIN (R138 to R142) -/

/-- Release a record: its waiting strands continue, and it is free (R140). -/
def State.releaseRecord (s : State) (k w : Nat) (target : Word) : State :=
  match s.skein? k with
  | none => s
  | some sk =>
    (s.modStrands k (sk.members w) (fun _ t =>
      if t.status = .joinwait target then { t.advance with status := .ready } else t)).modWeft k w (fun x =>
        { x with records := x.records.filter (fun r => r.target != target) })

/-- Free or release the records of a weft that expect nobody more. -/
def State.settleRecords (s : State) (k w : Nat) : State :=
  match s.weft? k w with
  | none => s
  | some wf => wf.records.foldl (fun t r =>
      if r.expected.all (fun i => r.arrived.contains i) then t.releaseRecord k w r.target else t) s

/-- SPLIT (R138). -/
def execSplit (g : BitVec 3) (d : BitVec 22) (s : State) : Out :=
  s.word (.split g d) (fun _ t =>
    let k := t.cur.skein
    let w := t.cur.weft
    let act := t.acting g
    let target := BitVec.ofInt 32 (branchTarget t.cur.pc d)
    let old := match t.skein? k with
      | some sk => Cells.get 0 sk.pmc 6
      | none => 0
    let recs := match t.weft? k w with
      | some wf => wf.records
      | none => []
    let hit := recs.any (fun r => r.target == target)
    let full := !hit && decide (8 ≤ recs.length)
    let grown (rs : List Rejoin) : List Rejoin :=
      if hit then rs.map (fun r => if r.target = target then { r with expected := (r.expected ++ act).dedup } else r)
      else if full ∨ act = [] then rs
      else rs ++ [{ target := target, expected := act, arrived := [], deadline := none }]
    let t1 := t.modWeft k w (fun x => { x with records := grown x.records })
    let missed := if full then min 255 (old / 2 ^ 24 + 1) else old / 2 ^ 24
    let t2 := t1.modSkein k (fun sk => { sk with pmc := Cells.set 0 sk.pmc 6 (missed * 2 ^ 24 + (old + 1) % 2 ^ 24) })
    (true, t2.passBy))

/-- JOIN (R139, R140). -/
def execJoin (g : BitVec 3) (s : State) : Out :=
  s.word (.join g) (fun sk t =>
    let k := t.cur.skein
    let w := t.cur.weft
    let act := t.acting g
    match (t.weft? k w).bind (fun wf => wf.records.find? (fun r => r.target == t.cur.pc)) with
    | none => (true, t.passBy)
    | some r =>
      let wait := act.filter (fun i => r.expected.contains i)
      let go := t.cur.strands.filter (fun i => !wait.contains i)
      let r' : Rejoin := { r with
        expected := r.expected.filter (fun i => !go.contains i)
        arrived := r.arrived ++ wait
        deadline := if r.arrived = [] ∧ wait ≠ [] then some (t.clock + sk.jtimeout) else r.deadline }
      let t1 := t.modWeft k w (fun x => { x with
        records := x.records.map (fun y => if y.target = r.target then r' else y) })
      let t2 := (t1.modStrands k go (fun _ x => x.advance)).modStrands k wait (fun _ x =>
        { x with status := .joinwait r.target })
      (true, t2.settleRecords k w))

/-- Whether a skein's strands may issue. -/
def State.issues (s : State) (k : Nat) : Bool := match s.skein? k with
  | some sk => sk.core.isSome && s.mayIssue sk.ctx
  | none => false

/-- JOIN_TIMEOUT (R140). -/
def execJoinTimeout (k w : Nat) (target : Word) (s : State) : Out :=
  .next (match (s.weft? k w).bind (fun wf => wf.records.find? (fun r => r.target == target)) with
    | some r => (match r.deadline with
      | some dl => if dl ≤ s.clock ∧ s.issues k then s.releaseRecord k w target else s
      | none => s)
    | none => s)

/-! ### EXIT (R143, R276, R315) -/

/-- Withdraw strands' pending arrivals from every barrier of their skein and bolt, and complete what that completes. -/
def State.leaveBarriers (s : State) (k : Nat) (is : List Nat) : State :=
  match s.skein? k with
  | none => s
  | some sk =>
    let names := is.map (strandKey k)
    let drop (b : Barrier) : Barrier := { b with pend := b.pend.filter (fun x => !names.contains x) }
    let dropAll (m : Cells Barrier) : Cells Barrier :=
      m.foldl (fun c e => Cells.set Barrier.start c e.1 (drop e.2)) []
    let s1 := (s.modSkein k (fun x => { x with bars := dropAll x.bars })).modBolt sk.bolt (fun b =>
      { b with bars := dropAll b.bars })
    let s2 := (List.range 16).foldl (fun t n => State.settleBarrier 1025 t k false n) s1
    (List.range 8).foldl (fun t n => State.settleBarrier 1025 t k true n) s2

/-- Strands of a weft end, in one step. -/
def State.exitStrands (s : State) (k w : Nat) (is : List Nat) : State :=
  let s1 := s.modStrands k is (fun _ t => { t with status := .exited, hold := none })
  let cut (r : Rejoin) : Rejoin := { r with
    expected := r.expected.filter (fun i => !is.contains i)
    arrived := r.arrived.filter (fun i => !is.contains i) }
  let s2 := (s1.modWeft k w (fun x => { x with records := x.records.map cut })).settleRecords k w
  let s3 := (s2.leaveBarriers k is).releaseHeld k w
  let s4 := ((s3.settleXlane k w).settleSlice k w).settleWsync k w
  let s5 := s4.settleSetw k
  match s5.skein? k with
  | some sk => if sk.live = [] then s5.trigger k else s5
  | none => s5

/-- EXIT (R143): it releases the strands' earlier writes at device scope first (R162, R183). -/
def execExit (g : BitVec 3) (s : State) : Out :=
  s.word (.exit g) (fun _ t =>
    let act := t.acting g
    if act = [] then (true, t.passBy)
    else t.releasing act act (some t.cur.weft) 2 (fun u =>
      u.waiting act (fun r => r.kind == .ldga && r.skein == u.cur.skein && act.contains r.strand && r.stopped) (fun v =>
        let go := v.cur.strands.filter (fun i => act.contains i)
        let v1 := v.modStrands v.cur.skein (v.cur.strands.filter (fun i => !act.contains i)) (fun _ x => x.advance)
        (true, if go = [] then v1 else v1.exitStrands v.cur.skein v.cur.weft go))))

/-! ### WAITT and YIELD (R144, R145) -/

/-- WAITT (R144). -/
def execWaitt (g : BitVec 3) (a : VReg) (s : State) : Out :=
  s.word (.waitt g a) (fun _ t =>
    (true, t.eachStrand (t.acting g) (fun u i x =>
      let n := (x.rv a.toNat).toNat
      (u.modStrand u.cur.skein i (fun y =>
        if n = 0 then y.advance else { y.advance with status := .sleeping (u.clock + n) }), none))))

/-- A strand whose deadline has passed no longer sleeps (R144). -/
def Strand.wake (t : Strand) (clock : Nat) : Strand :=
  match t.status with
  | .sleeping dl => if dl ≤ clock then { t with status := .ready } else t
  | _ => t

/-- WAITT_DEADLINE (R144): a strand's deadline passes, and with it every deadline of its weft that lies no later: the strands
that one WAITT put to sleep with one deadline are READY together. -/
def execWaittDeadline (k i : Nat) (s : State) : Out :=
  .next (match (s.skein? k).bind (fun sk => (Tab.get sk.strands i).bind (fun t => (sk.weftOf i).map (fun wf => (sk, t, wf)))) with
    | some (sk, t, wf) => (match t.status with
      | .sleeping dl =>
        if dl ≤ s.clock then s.modStrands k (sk.members wf.1) (fun _ x => x.wake s.clock) else s
      | _ => s)
    | none => s)

/-- YIELD (R145). -/
def execYield (g : BitVec 3) (s : State) : Out :=
  s.word (.yield g) (fun sk t =>
    let k := t.cur.skein
    let w := t.cur.weft
    let t1 := t.passBy
    if t.acting g = [] then (true, t1)
    else
      let t2 := t1.modWeft k w (fun x => { x with
        yielded := t.cur.strands.foldl (fun m i => Cells.set 0 m i (t.clock + 16)) x.yielded })
      (true, if t2.othersReady (sk.core.getD 0) k w false then t2.leaveActive k w else t2))

/-! ### Traps and returns (R147, R149) -/

/-- TRAP (R147). -/
def execTrap (g : BitVec 3) (x : BitVec 6) (s : State) : Out :=
  s.word (.trap g x) (fun _ t =>
    (true, t.eachStrand (t.acting g) (fun u i _ => (u, some { strand := i, cause := 0x30, val := x.setWidth 32 }))))

/-- BREAK (R147). -/
def execBreakp (g : BitVec 3) (s : State) : Out :=
  s.word (.breakp g) (fun _ t =>
    (true, t.eachStrand (t.acting g) (fun u i _ => (u, some { strand := i, cause := 0x31, val := 0 }))))

/-- The VA of a code slot (R38). -/
def Skein.codeVa (sk : Skein) (pc : Nat) : Nat := sk.kern.base + 64 + pc * 4

/-- A line of a core's L1 instruction cache, or of its cluster's (R308). -/
def lineAt (ls : List ILine) (domain gen va : Nat) : Option ILine :=
  ls.find? (fun l => l.domain == domain && l.gen == gen && l.line == va / 64)

/-- The word of a code slot, as the instruction caches hold it, else as it stands in memory. -/
def State.codeWord (s : State) (sk : Skein) (pc : Nat) : Word :=
  let va := sk.codeVa pc
  let c := sk.core.getD 0
  let dom := s.domainOf sk.ctx
  let gen := s.genOf sk.ctx
  let pick (l : ILine) : Word := BitVec.ofNat 32 (fieldAt l.data (va % 64) 4)
  match lineAt (s.core c).icache dom gen va with
  | some l => pick l
  | none =>
    match lineAt (Cells.get [] s.homes.icache (clusterOf c)) dom gen va with
    | some l => pick l
    | none =>
      let tdom := transDomain s.homes dom va
      match homeAttr s.homes tdom va with
      | .error _ => 0
      | .ok a => match Tab.get s.homes.stage2 (s2Key tdom a.dfn) with
        | some s2 => pageWord s.homes s2 va
        | none => 0

/-- The PC after the chain that begins at a PC: C bits are followed, and slot 2 ends a chain (R149). -/
def State.afterChain (s : State) (sk : Skein) (pc : Word) : Word :=
  if pc.toNat % 4 < 2 ∧ (s.codeWord sk pc.toNat).getLsbD 31 then
    if pc.toNat % 4 = 0 ∧ (s.codeWord sk (pc.toNat + 1)).getLsbD 31 then nextPc (pc + 2) else nextPc (pc + 1)
  else nextPc pc

/-- TRET (R149). -/
def execTret (g : BitVec 3) (s : State) : Out :=
  s.word (.tret g) (fun sk t =>
    let act := t.acting g
    let t1 := t.modStrands t.cur.skein (t.cur.strands.filter (fun j => !act.contains j)) (fun _ x => x.advance)
    (true, t1.trapReturn t.cur.skein t.cur.weft ((t.issueSet.filter (fun e => act.contains e.1)).map (fun e =>
      (e.1, (if e.2.tcause = 0x01 ∨ e.2.tcause = 0x02 ∨ e.2.tcause = 0x03 ∨ e.2.tcause = 0x0A then
        t.afterChain sk e.2.tpc else nextPc e.2.tpc).toNat)))))

/-- TRETR (R149). -/
def execTretr (g : BitVec 3) (s : State) : Out :=
  s.word (.tretr g) (fun _ t =>
    let act := t.acting g
    let t1 := t.modStrands t.cur.skein (t.cur.strands.filter (fun j => !act.contains j)) (fun _ x => x.advance)
    (true, t1.trapReturn t.cur.skein t.cur.weft ((t.issueSet.filter (fun e => act.contains e.1)).map (fun e =>
      (e.1, e.2.tpc.toNat)))))

end Sys2Proof.Machine
end

