-- ==== Sys2Proof/Machine/Health.lean ====
section
/-! DEFINITION. Machine/Health.lean: the status of Loom links, scratch and ports, capture units, and the health counts
with REPLACE_REQUEST and the health record (R208, R209, R355, R360, R373 to R377). -/

namespace Sys2Proof.Machine

/-! ### Loom links (R347, R354 to R360) -/

/-- Whether a station transmits on a channel (R347). -/
def linkExists (channel station : Nat) : Bool :=
  if channel < 256 then decide (station < 96 ∨ station = 224 ∨ station = 225)
  else if channel < 448 then decide ((96 ≤ station ∧ station < 224) ∨ station = 225)
  else if channel = 448 then decide (96 ≤ station ∧ station < 224)
  else decide (channel ≤ 512 ∧ station < 224)

/-- The die of a station: a cluster's, a home slice's, or die 0 (R347). -/
def dieOf (station : Nat) : Nat :=
  if station < 96 then station / 24 else if station < 224 then (station - 96) / 32 else 0

/-- The comb source of a wavelength of a station's links: λ4k to λ4k + 3, and the shadow λ16 (R355). -/
def sourceOf (station wave : Nat) : Nat := 5 * dieOf station + (if wave = 16 then 4 else wave / 4)

/-- The state of a data wavelength of a link, a dark source included. -/
def State.waveOf (s : State) (channel station wave : Nat) : WaveState :=
  if s.dev.darkSources.contains (sourceOf station wave) then .dark
  else Cells.get .carrying (s.link (linkNo channel station)).waves wave
/-- The state of a link's shadow. -/
def State.shadowOf (s : State) (channel station : Nat) : ShadowWave :=
  if s.dev.darkSources.contains (sourceOf station 16) then .dark else (s.link (linkNo channel station)).shadow

/-- The lane that a link's shadow carries. -/
def ShadowWave.lane? : ShadowWave → Option Nat
  | .lending l => some l
  | _ => none

/-- Whether a lane is in the link's map: its wavelength has light (R354, R357). -/
def State.laneLive (s : State) (channel station lane : Nat) : Bool := s.waveOf channel station lane != .dark
/-- Live data lanes of a link. -/
def State.liveLanes (s : State) (channel station : Nat) : Nat :=
  ((List.range 16).filter (s.laneLive channel station)).length

/-- The lane map of a station link (R350). -/
def State.mapOf (s : State) (channel station : Nat) : LaneMap :=
  { mask := (List.range 16).foldl (fun m k => if s.waveOf channel station k = .dark then m else m + 2 ^ k)
      (if s.shadowOf channel station = .dark then 0 else 2 ^ 16)
    onShadow := (s.shadowOf channel station).lane?.filter (s.laneLive channel station) }

/-- LSTAT of a station link (R360). -/
def State.lstat (s : State) (channel station : Nat) : Nat :=
  if ¬ linkExists channel station then 0
  else
    let live := s.liveLanes channel station
    let sh := s.shadowOf channel station
    let dark := (List.range 16).foldl (fun m k => if s.waveOf channel station k = .dark then m + 2 ^ k else m) 0
    let r : Nat × Nat × Nat := match sh with
      | .standby => (0, 0, 0)
      | .lending l => (1, l, if s.waveOf channel station l = .retired then 1 else 0)
      | .calibrating l _ => (1, l, 0)
      | .dark => (2, 0, 0)
    (if live = 0 then 2 ^ 31 else 0) + r.1 * 2 ^ 29 + live * 2 ^ 24 + r.2.1 * 2 ^ 20 + r.2.2 * 2 ^ 19 + dark

/-- LSTAT, LREPLAY and LSWAPS of the link that LSEL selects; zero where it names none (R360). -/
def State.lselRead (s : State) : Nat × Nat × Nat :=
  let ch := bits s.dev.lsel.toNat 25 16
  let st := s.dev.lsel.toNat % 256
  if linkExists ch st then (s.lstat ch st, (s.link (linkNo ch st)).replays, (s.link (linkNo ch st)).swaps) else (0, 0, 0)

/-- Whether a link is restriped or has a RETIRED wavelength (R375), or its shadow was dark at reset (R407). -/
def State.linkAffected (s : State) (channel station : Nat) : Bool :=
  linkExists channel station && ((List.range 16).any (fun k =>
    s.waveOf channel station k == .dark || s.waveOf channel station k == .retired) ||
      s.dev.darkAtReset.contains (sourceOf station 16))

/-- The channels that a station transmits on. -/
def channelsOf (station : Nat) : List Nat := (List.range 513).filter (fun ch => linkExists ch station)
/-- Every station link, as channel and station. -/
def allLinks : List (Nat × Nat) := (List.range 226).flatMap (fun st => (channelsOf st).map (fun ch => (ch, st)))
/-- The station links with a wavelength out of service: those of a dark source's die, and those listed. -/
def State.affectedLinks (s : State) : List (Nat × Nat) :=
  if s.dev.darkSources.any (fun n => n % 5 != 4) || s.dev.darkAtReset != [] then allLinks.filter (fun l => s.linkAffected l.1 l.2)
  else (s.net.links.map (fun l => (l.1 / 256, l.1 % 256))).filter (fun l => s.linkAffected l.1 l.2)

/-! ### Scratch status (R208, R209) -/

/-- A group's nibble (R208). -/
def BankGroup.nibble (g : BankGroup) : Nat := g.retired + (if g.rebuilding then 8 else 0)
/-- SPSTAT. -/
def Scratch.spstat (sc : Scratch) : Nat :=
  (List.range 8).foldl (fun m g => m + (Cells.get BankGroup.normal sc.groups g).nibble * 16 ^ g) 0
/-- SPCNT. -/
def Scratch.spcnt (sc : Scratch) : Nat := sc.corr * 2 ^ 20 + sc.rebuilt * 2 ^ 8 + sc.retired * 16 + sc.lost

/-! ### Capture units (R373, R374) -/

/-- The bin of a value. -/
def captureBin (v : Nat) : Nat := if v ≤ 1 then 0 else min 15 (Nat.log2 v)
/-- Record one value. -/
def Capture.record (c : Capture) (v : Nat) : Capture :=
  let b := captureBin v
  { c with min := Nat.min c.min v, max := Nat.max c.max v, bins := Cells.set 0 c.bins b (Nat.min 0xFFFFFFFF (Cells.get 0 c.bins b + 1)) }
/-- Record a value in every unit of a quadrant that measures a source at a target. -/
def State.capture (s : State) (quad source target v : Nat) : State :=
  (List.range 32).foldl (fun t u =>
    let c := Cells.get Capture.reset t.captures (quad * 32 + u)
    if c.cfg.getLsbD 31 ∧ bits c.cfg.toNat 27 24 = source ∧ (c.cfg.toNat % 256 = target ∨ c.cfg.toNat % 256 = 255) then
      { t with captures := Cells.set Capture.reset t.captures (quad * 32 + u) (c.record v) }
    else t) s

/-! ### Counts and replacement (R375 to R377) -/

/-- The five counts: offline cores, lane quads retired, groups DEGRADED, affected links, ports down. -/
def State.healthCounts (s : State) : List Nat :=
  [ (s.cores.filter (fun e => e.2.offline)).length, s.dev.lquadsRetired,
    (s.cores.map (fun e => (e.2.scratch.groups.filter (fun g => g.2.retired != 0 && !g.2.rebuilding && !g.2.offline)).length)).sum,
    s.affectedLinks.length, (s.net.ports.filter (fun p => p.2.downSince.isSome)).length ]

/-- HEALTHTH's five limits. -/
def healthLimits (h : Word) : List Nat :=
  [bits h.toNat 31 26, bits h.toNat 25 20, bits h.toNat 19 12, bits h.toNat 11 6, bits h.toNat 5 0]

/-- The passed mask: bits 0 to 4 for the counts over their limits. -/
def passedMask (counts limits : List Nat) : Nat :=
  ((counts.zip limits).zipIdx.foldl (fun m e => if e.1.2 < e.1.1 then m + 2 ^ e.2 else m) 0)

/-- The signature of a record with a usage key, 49,856 bytes (R336, R377). -/
def usageSignature (key : Nat) (body : List Byte) : List Byte := (List.range 49856).map (Config.usageSignByte key body)

/-- The health record and its signature (R377); the byte layout is the model's. -/
def State.healthRecord (s : State) (counts : List Nat) (passed : Nat) : List Byte :=
  let body := bytesOf 8 s.dev.recSeq ++ bytesOf 8 s.clock ++ bytesOf 2 s.modNo ++ counts.flatMap (bytesOf 4) ++
    bytesOf 4 s.dev.healthth.toNat ++ bytesOf 1 passed ++
    (s.cores.filter (fun e => e.2.scratch.retired != 0)).flatMap (fun e =>
      bytesOf 4 (coreId e.1) ++ bytesOf 4 e.2.scratch.spstat) ++
    s.affectedLinks.flatMap (fun l => bytesOf 4 (l.1 * 65536 + l.2) ++ bytesOf 4 (s.lstat l.1 l.2))
  body ++ usageSignature s.dev.usageKey body

/-- REPLACE_REQUEST when a further count passes its field, or whenever a channel fault occurs (R376). -/
def State.checkHealth (s : State) (channelFault : Bool) : State :=
  let counts := s.healthCounts
  let now := passedMask counts (healthLimits s.dev.healthth) + (if channelFault then 32 else 0)
  let passed := s.dev.passed ||| now
  if passed = s.dev.passed ∧ ¬ channelFault then s
  else
    let record := s.healthRecord counts passed
    let s1 := { s with dev := { s.dev with
      passed := passed, replace := true, recSeq := s.dev.recSeq + 1, ring := s.dev.ring ++ [(true, record)] } }
    s1.raise true 0x0F00 2 0 none none ((Tab.list s.parts).map Prod.fst)
      (bytesOf 1 passed ++ bytesOf 2 (nth 0 counts 0) ++ bytesOf 1 (nth 0 counts 1) ++ bytesOf 2 (nth 0 counts 2) ++
        bytesOf 2 (nth 0 counts 3) ++ bytesOf 1 (nth 0 counts 4) ++ List.replicate 3 0 ++ bytesOf 8 s.dev.recSeq)

/-! ### Meters (R335) -/

/-- The bytes that the homes have moved are counted for the partitions they served: HBM_BYTES and POOL_BYTES. -/
def State.settleMeters (s : State) : State :=
  s.homes.moved.foldl (fun t e => match ((Tab.list t.parts).find? (fun p => p.2.domain == e.1 / 2)).map Prod.fst with
    | some p => t.addMeter p (if e.1 % 2 = 1 then 10 else 7) e.2
    | none => t) (s.modHomes (fun h => { h with moved := [] }))

/-! ### Pre-emption requests (R268, R324) -/

/-- Ask for the pre-emption of some RUNNING contexts of a partition; its cores stop issuing. `after`: they are restored
once saved. -/
def State.askPreempt (s : State) (part : Nat) (ctxs : List Nat) (after : Bool) : State :=
  let run := ctxs.filter (fun c => match s.ctx? c with
    | some x => x.state == .running && x.partition == part
    | none => false)
  if run = [] ∨ (s.part? part).elim false (fun p => p.preempt.isSome) then s
  else
    let s1 := run.foldl (fun t c => (t.boltsOf c).foldl (fun u b =>
        u.modBolt b (fun x => if x.state = .running then { x with state := .halting } else x))
      (t.modCtx c (fun x => { x with state := .preempting }))) s
    s1.modPart part (fun p => { p with
      preempt := some s.clock, haltedAt := none, preempting := run, restoreAfter := after })

/-- The contexts with a skein on a core. -/
def State.ctxsOn (s : State) (c : Nat) : List Nat :=
  ((Tab.list s.skeins).filterMap (fun e => if e.2.core = some c then some e.2.ctx else none)).dedup
/-- The RUNNING contexts of a partition on cores that are offline. -/
def State.strandedOn (s : State) (part : Nat) : List Nat :=
  ((Tab.list s.skeins).filterMap (fun e =>
    if (s.ctx? e.2.ctx).elim false (fun x => x.partition == part && x.state == .running) ∧ e.2.core.elim false (fun c => (s.core c).offline)
      then some e.2.ctx else none)).dedup
/-- Contexts on a core that is offline are pre-empted, to be resumed elsewhere (R204), once a pre-emption of their partition
that is under way has ended (R324; log 71). -/
def State.settleOffline (s : State) : State :=
  (s.parts.map Prod.fst).foldl (fun t p => t.askPreempt p (t.strandedOn p) true) s
/-- The partitions with a context on a core. -/
def State.partsOn (s : State) (c : Nat) : List Nat :=
  ((s.ctxsOn c).filterMap (fun x => (s.ctx? x).map Context.partition)).dedup

end Sys2Proof.Machine
end

