-- ==== Sys2Proof/Machine/Bank.lean ====
section
/-! DEFINITION. Machine/Bank.lean: the scratchpad's banks, its parity queues and selvage, correction and loss, retirement
and rebuild, and the SPAD instructions (R192 to R214). -/

namespace Sys2Proof.Machine

/-! ### Layout (R192) -/

def bankOf (w : Nat) : Nat := w % 32
def rowOf (w : Nat) : Nat := w / 32
def groupOf (w : Nat) : Nat := w % 32 / 4
/-- Index of a group's selvage word at a row. -/
def selIx (g row : Nat) : Nat := g * 768 + row
/-- The data word of bank `m` of a group at a row. -/
def wordAt (g row m : Nat) : Nat := row * 32 + g * 4 + m

def Scratch.group (sc : Scratch) (g : Nat) : BankGroup := Cells.get BankGroup.normal sc.groups g
def Scratch.setGroup (sc : Scratch) (g : Nat) (b : BankGroup) : Scratch :=
  { sc with groups := Cells.set BankGroup.normal sc.groups g b }
/-- Whether a group has its parity: no bank retired, no rebuild. -/
def BankGroup.isNormal (b : BankGroup) : Bool := b.retired == 0 && !b.rebuilding && !b.offline
def Scratch.selWord (sc : Scratch) (g row : Nat) : BitVec 128 := Cells.get 0 sc.sel (selIx g row)
/-- The bytes of a data word as its own bank holds them. -/
def Scratch.bankWord (sc : Scratch) (w : Nat) : BitVec 128 := BitVec.ofNat 128 (ofBytes (readBytes sc.data (w * 16) 16))
/-- Whether the selvage bank stands in for a word's bank (R202). -/
def Scratch.standIn (sc : Scratch) (w : Nat) : Bool :=
  let b := sc.group (groupOf w)
  b.retired == w % 4 + 1 && !b.rebuilding
/-- A data word's value. -/
def Scratch.word (sc : Scratch) (w : Nat) : BitVec 128 :=
  if sc.standIn w then sc.selWord (groupOf w) (rowOf w) else sc.bankWord w
/-- Bytes from a physical address on. -/
def Scratch.bytesAt (sc : Scratch) (p n : Nat) : List Byte :=
  ((((List.range (n / 16 + 2)).flatMap (fun j => bytesOf 16 (sc.word (p / 16 + j)).toNat)).drop (p % 16)).take n)
/-- Put a data word where it lives. -/
def Scratch.putWord (sc : Scratch) (w : Nat) (x : BitVec 128) : Scratch :=
  if sc.standIn w then { sc with sel := Cells.set 0 sc.sel (selIx (groupOf w) (rowOf w)) x }
  else { sc with data := writeBytes sc.data (w * 16) (bytesOf 16 x.toNat) }
/-- The XOR of a group's data words at a row but for bank `m`. -/
def Scratch.others (sc : Scratch) (g row m : Nat) : BitVec 128 :=
  ((List.range 4).filter (fun j => j != m)).foldl (fun x j => x ^^^ sc.bankWord (wordAt g row j)) 0

/-! ### The parity queue (R196, R197) -/

/-- Apply an entry's delta to its selvage word. -/
def Scratch.applyDelta (sc : Scratch) (e : ParityEntry) : Scratch :=
  { sc with sel := Cells.set 0 sc.sel (selIx e.group e.row) (sc.selWord e.group e.row ^^^ e.delta) }
/-- Apply every entry that `p` picks. -/
def Scratch.applyAll (sc : Scratch) (p : ParityEntry → Bool) : Scratch :=
  { (sc.queue.filter p).foldl Scratch.applyDelta sc with queue := sc.queue.filter (fun e => !p e) }
/-- A group applies its oldest complete entry (R197). -/
def Scratch.applyOldest (sc : Scratch) (g : Nat) : Scratch :=
  match sc.queue.find? (fun e => e.group == g && e.complete) with
  | none => sc
  | some e => { sc.applyDelta e with queue := sc.queue.erase e }
/-- Whether a row is stale (R196). -/
def Scratch.stale (sc : Scratch) (g row : Nat) : Bool := sc.queue.any (fun e => e.group == g && e.row == row)
/-- Merge a write's delta into the queue; a full queue first applies its oldest entry. -/
def Scratch.addDelta (sc : Scratch) (g row : Nat) (d : BitVec 128) : Scratch :=
  if sc.stale g row then
    { sc with queue := sc.queue.map (fun e => if e.group = g ∧ e.row = row then { e with delta := e.delta ^^^ d } else e) }
  else
    let s1 := if 8 ≤ (sc.queue.filter (fun e => e.group == g)).length then sc.applyOldest g else sc
    { s1 with queue := s1.queue ++ [{ group := g, row := row, delta := d, complete := true }] }

def State.modScratch (s : State) (c : Nat) (f : Scratch → Scratch) : State :=
  s.modCore c (fun x => { x with scratch := f x.scratch })
def State.scratch (s : State) (c : Nat) : Scratch := (s.core c).scratch

/-- PARITY_APPLY (R197). -/
def execParityApply (core group : Nat) (s : State) : Out := .next (s.modScratch core (fun sc => sc.applyOldest group))

/-! ### Loss, retirement and the core taken offline (R199 to R206) -/

/-- SPAD_GROUP_DEGRADED (R206). -/
def State.raiseDegraded (s : State) (c g : Nat) (ctx : Option Nat) (off : Bool) : State :=
  let b := (s.scratch c).group g
  s.raise true 0x0211 (if off then 2 else 1) (coreId c) (ctx.bind (fun x => (s.ctx? x).map Context.partition)) ctx
    (s.partsOn c) (bytesOf 1 g ++ bytesOf 1 b.retired ++ bytesOf 2 (min 0xFFFF b.lost) ++ bytesOf 1 (if off then 1 else 0))

/-- The monitoring window of a core's partition (R201, R322). -/
def State.windowOf (s : State) (c : Nat) : Nat :=
  match (Tab.list s.parts).find? (fun p => p.2.quads.contains (quadOf c)) with
  | some p => p.2.settings.window
  | none => 850000000

/-- The uncorrectable events against a bank within the window: of the last four (R201, R206). -/
def State.recentEvents (s : State) (c bank : Nat) : Nat :=
  ((Cells.get [] (s.scratch c).events bank).filter (fun t => decide (s.clock ≤ t + s.windowOf c))).length

/-- SPAD_BANK_RETIRED (R206). -/
def State.raiseRetired (s : State) (c bank cause : Nat) (ctx : Option Nat) : State :=
  let g := if bank < 32 then bank / 4 else bank - 32
  s.raise true 0x0210 1 (coreId c) (ctx.bind (fun x => (s.ctx? x).map Context.partition)) ctx (s.partsOn c)
    (bytesOf 1 bank ++ bytesOf 1 cause ++ bytesOf 2 (s.recentEvents c bank) ++
      bytesOf 1 ((s.scratch c).group g).nibble)

/-- A word's gangs are killed (R199). -/
def State.killHolders (s : State) (c w : Nat) : State :=
  ((Tab.list s.skeins).filter (fun e => e.2.core == some c &&
    decide (e.2.scrBase ≤ w * 16 ∧ w * 16 < e.2.scrBase + e.2.kern.scratch))).foldl (fun t e => t.gangFault e.2.bolt 0x40
      { src := coreId c, strand := 0xFFFF, pc := 0, skeinIx := e.2.index, info := 0 }) s

/-- A word is lost (R199): poisoned, counted, its gangs killed. What its bank, and a selvage bank that stands in for it, report
of it is over. -/
def State.poisonWord (s : State) (c w : Nat) : State :=
  let g := groupOf w
  (s.modScratch c (fun sc =>
    let b := sc.group g
    { sc.setGroup g { b with lost := b.lost + 1, failed := b.failed || b.rebuilding } with
      poison := Cells.set false sc.poison w true
      eccData := Cells.set 0 sc.eccData w 0
      eccSel := if sc.standIn w then Cells.set 0 sc.eccSel (selIx g (rowOf w)) 0 else sc.eccSel
      lost := min 15 (sc.lost + 1) })).killHolders c w

/-- The damage that the ECC finds in a member of a group's row: data banks 0 to 3, and 4 for the selvage bank (R198). -/
def Scratch.damage (sc : Scratch) (g row j : Nat) : Nat :=
  if j = 4 then Cells.get 0 sc.eccSel (selIx g row) else Cells.get 0 sc.eccData (wordAt g row j)
def Scratch.setDamage (sc : Scratch) (g row j d : Nat) : Scratch :=
  if j = 4 then { sc with eccSel := Cells.set 0 sc.eccSel (selIx g row) d }
  else { sc with eccData := Cells.set 0 sc.eccData (wordAt g row j) d }
/-- The bank of a group's member. -/
def memberBank (g j : Nat) : Nat := if j = 4 then 32 + g else g * 4 + j
/-- Whether a member of a row is uncorrectable, and whether it cannot help to correct another: it is, or is lost (R199). -/
def Scratch.broken (sc : Scratch) (g row j : Nat) : Bool := decide (2 ≤ sc.damage g row j)
def Scratch.noHelp (sc : Scratch) (g row j : Nat) : Bool :=
  sc.broken g row j || (decide (j < 4) && Cells.get false sc.poison (wordAt g row j))

def Scratch.corrected (sc : Scratch) : Scratch := { sc with corr := min 4095 (sc.corr + 1) }
def Scratch.rebuiltOne (sc : Scratch) : Scratch := { sc with rebuilt := min 4095 (sc.rebuilt + 1) }
/-- The members of a row besides one. -/
def helpersOf (m : Nat) : List Nat := (List.range 5).filter (· != m)
/-- A single-bit error of a word that is read is corrected (R198). -/
def Scratch.fixBit (sc : Scratch) (g row j : Nat) : Scratch :=
  if sc.damage g row j = 1 then (sc.setDamage g row j 0).corrected else sc
/-- So are those of the words that a correction or a reconstruction of a member reads. -/
def Scratch.fixHelpers (sc : Scratch) (g row m : Nat) : Scratch := (helpersOf m).foldl (fun x j => x.fixBit g row j) sc

/-- One row of a rebuild: the retired bank's word, which is not read, goes to the selvage, or is lost; so is an uncorrectable
word that the rebuild meets (R198, R199). -/
def rebuildRow (g m : Nat) (a : Scratch × List Nat) (row : Nat) : Scratch × List Nat :=
  let sc := a.1.fixHelpers g row m
  let w := wordAt g row m
  if (helpersOf m).any (sc.noHelp g row) then
    let met := (helpersOf m).filter (fun j => decide (j < 4) && sc.broken g row j)
    (sc.setDamage g row 4 0,
     a.2 ++ (if Cells.get false sc.poison w then [] else [w]) ++ met.map (wordAt g row))
  else (({ sc with sel := Cells.set 0 sc.sel (selIx g row) (sc.selWord g row ^^^ sc.others g row m) } : Scratch).setDamage g row m 0, a.2)

/-- Wefts of a core that wait for a group's rebuild go on (R213). -/
def State.endRetireWait (s : State) (c g : Nat) : State :=
  (s.resident c).foldl (fun t e => if e.2.2.retireWait = some g then
    t.modWeft e.1 e.2.1 (fun x => { x with retireWait := none }) else t) s

/-- A group's rebuild ends (R202): every queue entry is applied, every row's word goes to the selvage or is lost, the retired
bank's words are in the selvage bank, and the two events are raised. -/
def State.endRebuild (s : State) (core group : Nat) : State :=
  let b := (s.scratch core).group group
  let m := b.retired - 1
  let r := (List.range 768).foldl (rebuildRow group m) ((s.scratch core).applyAll (fun e => e.group == group), [])
  let s1 := r.2.foldl (fun t w => t.poisonWord core w) (s.modScratch core (fun _ => r.1))
  let s2 := s1.modScratch core (fun sc => sc.setGroup group { sc.group group with rebuilding := false })
  let s3 := (s2.raiseRetired core (group * 4 + m) b.cause b.byCtx).raiseDegraded core group b.byCtx false
  (s3.endRetireWait core group).checkHealth false

/-- A second failure of a group takes the core offline (R204): the contexts on it are pre-empted, to resume elsewhere. A
rebuild under way ends first, so that their words can be saved. A group that is offline already has nothing left to lose. -/
def State.takeOffline (s : State) (c g : Nat) (ctx : Option Nat) : State :=
  if ((s.scratch c).group g).offline then s
  else
    let s0 := if ((s.scratch c).group g).rebuilding then s.endRebuild c g else s
    let s1 := (s0.modScratch c (fun sc => sc.setGroup g { sc.group g with offline := true })).modCore c (fun x =>
      { x with offline := true })
    let s2 := s1.raiseDegraded c g ctx true
    ((s2.partsOn c).foldl (fun t p => t.askPreempt p (t.ctxsOn c) true) s2).checkHealth false

/-- A word is lost: in a group without parity that is a second failure, at once or, while it is rebuilt, at the rebuild's end
(R204, R205). -/
def State.loseWord (s : State) (c w : Nat) (ctx : Option Nat) : State :=
  let s1 := s.poisonWord c w
  let b := (s1.scratch c).group (groupOf w)
  if b.retired ≠ 0 ∧ ¬ b.rebuilding then s1.takeOffline c (groupOf w) ctx else s1

/-- Retire a bank: 0 to 31 data, 32 + g selvage (R201 to R204). -/
def State.retireBank (s : State) (c bank cause : Nat) (ctx : Option Nat) : State :=
  let g := if bank < 32 then bank / 4 else bank - 32
  let b := (s.scratch c).group g
  if ¬ b.isNormal then s.takeOffline c g ctx
  else if bank < 32 then
    s.modScratch c (fun sc => { sc.setGroup g { b with rebuilding := true, retired := bank % 4 + 1, cause := cause, byCtx := ctx } with
      retired := sc.retired + 1 })
  else
    let s1 := s.modScratch c (fun sc => { sc.setGroup g { b with retired := 5, cause := cause, byCtx := ctx } with
      retired := sc.retired + 1, queue := sc.queue.filter (fun e => e.group != g) })
    ((s1.raiseRetired c bank cause ctx).raiseDegraded c g ctx false).checkHealth false

/-- An uncorrectable event against a bank, which counts toward its retirement (R198, R201). -/
def State.noteEvent (s : State) (c bank : Nat) : State :=
  s.modScratch c (fun sc => { sc with events := Cells.set [] sc.events bank ((s.clock :: Cells.get [] sc.events bank).take 4) })

/-- A bank is to be retired: its accesses already granted complete first (R202). -/
def State.dueRetire (s : State) (c bank cause : Nat) (ctx : Option Nat) : State :=
  s.modScratch c (fun sc => if sc.due.any (fun d => d.1 == bank) then sc else { sc with due := sc.due ++ [(bank, cause, ctx)] })

/-- The banks whose retirement is due are retired: the accesses of the step that met their last event are over (R202). -/
def State.settleBanks (s : State) : State :=
  (s.cores.filter (fun e => e.2.scratch.due != [])).foldl (fun t e =>
    e.2.scratch.due.foldl (fun u d => u.retireBank e.1 d.1 d.2.1 d.2.2) (t.modScratch e.1 (fun sc => { sc with due := [] }))) s

/-- An uncorrectable event against a bank: a word that is uncorrectable again after its write-back (`hard`), or the fourth
event within the window, retires it (R201). Where both hold, the cause is the hard failure (log 64). -/
def State.bankEvent (s : State) (c bank : Nat) (hard : Bool) (ctx : Option Nat) : State :=
  let s1 := s.noteEvent c bank
  if hard then s1.dueRetire c bank 2 ctx
  else if 4 ≤ s1.recentEvents c bank then s1.dueRetire c bank 1 ctx
  else s1

/-! ### Reads and writes of a word (R196, R198) -/

/-- A counter of the reading skein. -/
def State.countFor (s : State) (reader : Option Nat) (pmc : Nat) : State := match reader with
  | some k => s.count k pmc 1
  | none => s

/-- A data word of a NORMAL group is lost (R199): one event against its bank. -/
def State.loseMember (s : State) (c g row j : Nat) (ctx : Option Nat) : State :=
  (s.poisonWord c (wordAt g row j)).bankEvent c (memberBank g j) false ctx

/-- An uncorrectable selvage word of a NORMAL group is recomputed from the data words: the queue entries of its row are
discarded, and an uncorrectable data word that it meets is lost (R198, R199). -/
def State.fixSelvage (s : State) (c g row : Nat) (ctx : Option Nat) : State :=
  let hard := decide ((s.scratch c).damage g row 4 = 3)
  let s1 := s.modScratch c (fun sc => sc.fixHelpers g row 4)
  let s2 := ((helpersOf 4).filter ((s1.scratch c).broken g row)).foldl (fun t j => t.loseMember c g row j ctx) s1
  (s2.modScratch c (fun sc => (({ sc with
    queue := sc.queue.filter (fun e => !(e.group == g && e.row == row))
    sel := Cells.set 0 sc.sel (selIx g row) (sc.others g row 4) } : Scratch).setDamage g row 4 0).rebuiltOne)).bankEvent
      c (32 + g) hard ctx

/-- An uncorrectable data word of a NORMAL group is rebuilt from its row, once the row is fresh; it is lost, and what else is
uncorrectable there is handled, where a word of the row cannot help. The answer is whether it is rebuilt (R198, R199). -/
def State.fixData (s : State) (c g row m : Nat) (reader ctx : Option Nat) : State × Bool :=
  let hard := decide ((s.scratch c).damage g row m = 3)
  let s1 := if (s.scratch c).stale g row then
      (s.modScratch c (fun x => x.applyAll (fun e => e.group == g && e.row == row))).countFor reader 4 else s
  let s2 := s1.modScratch c (fun x => x.fixHelpers g row m)
  let sc := s2.scratch c
  if (helpersOf m).any (sc.noHelp g row) then
    let s3 := (m :: (helpersOf m).filter (fun j => decide (j < 4) && sc.broken g row j)).foldl (fun t j => t.loseMember c g row j ctx) s2
    (if sc.broken g row 4 then s3.fixSelvage c g row ctx else s3, false)
  else
    let s3 := (s2.modScratch c (fun x =>
      ((x.putWord (wordAt g row m) (x.others g row m ^^^ x.selWord g row)).setDamage g row m 0).rebuiltOne)).countFor reader 3
    (s3.bankEvent c (memberBank g m) hard ctx, true)

/-- A member of a NORMAL group's row is read from its own bank (R198). -/
def State.fixMember (s : State) (c g row j : Nat) (reader ctx : Option Nat) : State × Bool :=
  if ¬ (s.scratch c).broken g row j then (s.modScratch c (fun sc => sc.fixBit g row j), true)
  else if j = 4 then (s.fixSelvage c g row ctx, true)
  else s.fixData c g row j reader ctx

/-- A read of a word that stands in a group without parity, in its own bank or in the selvage bank that stands in for it. -/
def State.fixAlone (s : State) (c w : Nat) (ctx : Option Nat) : State × Bool :=
  let sc := s.scratch c
  let g := groupOf w
  let j := if sc.standIn w then 4 else w % 4
  if sc.broken g (rowOf w) j then ((s.noteEvent c (memberBank g j)).loseWord c w ctx, false)
  else (s.modScratch c (fun x => x.fixBit g (rowOf w) j), true)

/-- A read meets its word: what the ECC finds is corrected, rebuilt or lost; `false` where it is lost (R198, R199). A read that
may be served by a conflict reconstruction (`conf`) is served by it or not, as the arbitration decides, which is free: then its
own word is not read, and a helper that is uncorrectable is handled before the read goes to its own bank (R194, R199; log 26). -/
def State.scFix (s : State) (c w : Nat) (reader ctx : Option Nat) (conf : Bool) : State × Bool :=
  let sc := s.scratch c
  let g := groupOf w
  let row := rowOf w
  let m := w % 4
  if sc.eccData.isEmpty && sc.eccSel.isEmpty then (s, true)
  else if ¬ (sc.group g).isNormal then s.fixAlone c w ctx
  else if (List.range 5).all (fun j => sc.damage g row j == 0) then (s, true)
  else
    let b := if conf && !sc.stale g row then s.freeBool else (false, s)
    if ¬ b.1 then b.2.fixMember c g row m reader ctx
    else
      let t := b.2.modScratch c (fun x => x.fixHelpers g row m)
      if (helpersOf m).any ((t.scratch c).noHelp g row) then
        ((helpersOf m).foldl (fun u j => (u.fixMember c g row j none ctx).1) t).fixMember c g row m reader ctx
      else (t.countFor reader 3, true)

/-- The context of a reading skein. -/
def State.ctxOf (s : State) (reader : Option Nat) : Option Nat := reader.bind (fun k => (s.skein? k).map Skein.ctx)

/-- Read up to 16 bytes of one word; `none` where the word is lost. -/
def State.scRead (s : State) (c p n : Nat) (reader : Option Nat) (conf : Bool) : State × Option (List Byte) :=
  let w := p / 16
  let r := s.scFix c w reader (s.ctxOf reader) conf
  if r.2 ∧ ¬ Cells.get false (r.1.scratch c).poison w then
    (r.1, some (((bytesOf 16 ((r.1.scratch c).word w).toNat).drop (p % 16)).take n))
  else (r.1, none)

/-- Overlay bytes on a word from an offset. -/
def overlayWord (x : BitVec 128) (off : Nat) (bs : List Byte) : BitVec 128 :=
  let old := bytesOf 16 x.toNat
  BitVec.ofNat 128 (ofBytes (old.take off ++ bs ++ old.drop (off + bs.length)))

/-- Write up to 16 bytes of one word for a context: the old word is read and checked, and its delta goes to the parity queue
(R196). The bytes of a lost word that the write leaves are free (log 24). DESIGN CHOICE (log 76): a correction of the old word
counts in no skein's PMC_RECON or PMC_STALE, which count reads. -/
def State.scWrite (s : State) (c p : Nat) (bs : List Byte) (ctx : Option Nat) : State :=
  let w := p / 16
  let g := groupOf w
  let normal := ((s.scratch c).group g).isNormal
  let s1 := if normal ∨ bs.length < 16 then (s.scFix c w none ctx false).1 else s
  let lost := Cells.get false (s1.scratch c).poison w
  let s2 : State := if lost then { s1 with free := s1.free + 16 } else s1
  s2.modScratch c (fun sc =>
    let old := sc.word w
    let base := if lost then BitVec.ofNat 128 (ofBytes ((List.range 16).map (fun j => Config.freeByte (s1.free + j)))) else old
    let new := overlayWord base (p % 16) bs
    let sc1 : Scratch := { sc.putWord w new with
      eccData := Cells.set 0 sc.eccData w 0
      eccSel := if sc.standIn w then Cells.set 0 sc.eccSel (selIx g (rowOf w)) 0 else sc.eccSel
      poison := Cells.set false sc.poison w false }
    if normal then sc1.addDelta g (rowOf w) (old ^^^ new) else sc1)

/-- Read any run of bytes, word by word. -/
def State.scReadAll (s : State) (c : Nat) (reader : Option Nat) (conf : Bool) : Nat → Nat → Nat → State × Option (List Byte)
  | 0, _, _ => (s, some [])
  | fuel + 1, p, n =>
    if n = 0 then (s, some [])
    else
      let m := min n (16 - p % 16)
      let a := s.scRead c p m reader conf
      let r := State.scReadAll a.1 c reader conf fuel (p + m) (n - m)
      (r.1, match a.2, r.2 with
        | some x, some y => some (x ++ y)
        | _, _ => none)

/-- Write any run of bytes, word by word. -/
def State.scWriteAll (s : State) (c : Nat) (ctx : Option Nat) : Nat → Nat → List Byte → State
  | 0, _, _ => s
  | fuel + 1, p, bs =>
    if bs.isEmpty then s
    else
      let m := 16 - p % 16
      State.scWriteAll (s.scWrite c p (bs.take m) ctx) c ctx fuel (p + m) (bs.drop m)

/-- Whether a group of a core's scratchpad is being rebuilt. -/
def State.rebuildsOn (s : State) (c : Nat) : Bool := (s.scratch c).groups.any (fun g => g.2.rebuilding)

/-- Whether an access must wait: the group of its word is being rebuilt (R202). -/
def State.scHeld (s : State) (c p : Nat) : Bool := ((s.scratch c).group (groupOf (p / 16))).rebuilding

/-! ### The rebuild and the scrub (R202, R205, R207) -/

/-- REBUILD_COMPLETE (R202, R205): a failure met meanwhile is a second one. -/
def execRebuildComplete (core group : Nat) (s : State) : Out :=
  let b := (s.scratch core).group group
  if b.rebuilding ∧ 1 ≤ b.retired ∧ b.retired ≤ 4 then
    let s1 := s.endRebuild core group
    .next (if ((s1.scratch core).group group).failed then s1.takeOffline core group b.byCtx else s1)
  else .next s

/-- A scrub reads a member of a row (R207). -/
def State.scrubMember (s : State) (c g row j : Nat) : State :=
  let b := (s.scratch c).group g
  if b.isNormal then (s.fixMember c g row j none none).1
  else if j < 4 then (if b.retired = j + 1 then s else (s.fixAlone c (wordAt g row j) none).1)
  else if b.retired = 5 then s.modScratch c (fun sc => sc.setDamage g row 4 0)
  else (s.fixAlone c (wordAt g row (b.retired - 1)) none).1

/-- SCRUB_PASS (R207): the words found damaged, data words and selvage words, with 1 single-bit, 2 uncorrectable, 3
uncorrectable again after its write-back; each is handled as a read handles it. The pass waits for a group that is being
rebuilt (R202). -/
def execScrubPass (core : Nat) (found sel : List (Nat × Nat)) (s : State) : Out :=
  if s.rebuildsOn core then .next s
  else
    let mark (m : Cells Nat) (xs : List (Nat × Nat)) (bound : Nat) : Cells Nat :=
      xs.foldl (fun c e => if e.1 < bound ∧ e.2 ≤ 3 then Cells.set 0 c e.1 e.2 else c) m
    let s1 := s.modScratch core (fun sc => { sc with
      eccData := mark sc.eccData found 24576, eccSel := mark sc.eccSel sel 6144 })
    let s2 := (s1.scratch core).eccData.foldl (fun t e => t.scrubMember core (groupOf e.1) (rowOf e.1) (e.1 % 4)) s1
    .next ((s2.scratch core).eccSel.foldl (fun t e => t.scrubMember core (e.1 / 768) (e.1 % 768) 4) s2)

/-! ### The SPAD instructions (R211 to R213) -/

/-- SPSTAT (R211). -/
def execSpstat (c : BitVec 1) (g : BitVec 3) (d : BitVec 6) (s : State) : Out :=
  s.lanes (.spstat c g d) (fun sk _ => guarded g (fun t =>
    .ok (t.wv d.toNat (BitVec.ofNat 32 (s.scratch (sk.core.getD 0)).spstat))))

/-- SPSCRUB (R212): the weft waits for its pass; with no scratch it ends at once. -/
def execSpscrub (c : BitVec 1) (g : BitVec 3) (s : State) : Out :=
  s.word (.spscrub c g) (fun sk t =>
    let t1 := t.passBy
    (true, if t.acting g = [] ∨ sk.kern.scratch = 0 then t1
      else t1.modWeft t.cur.skein t.cur.weft (fun x => { x with scrubWait := true })))

/-- SPSCRUB_COMPLETE (R212); the pass waits for a group that is being rebuilt (R202). -/
def execSpscrubComplete (k w : Nat) (s : State) : Out :=
  match s.skein? k, s.weft? k w with
  | some sk, some wf =>
    match sk.core, wf.scrubWait with
    | some c, true =>
      let own (w : Nat) : Bool := decide (sk.scrBase ≤ w * 16 ∧ w * 16 < sk.scrBase + sk.kern.scratch)
      if (List.range 32).any (fun j => own (sk.scrBase / 16 + j) && s.scHeld c (sk.scrBase + 16 * j)) then .next s
      else
        let words := (s.scratch c).eccData.map Prod.fst ++ (s.scratch c).eccSel.flatMap (fun e =>
          ((List.range 4).map (wordAt (e.1 / 768) (e.1 % 768))).filter (s.scratch c).standIn)
        .next ((words.filter own).foldl (fun t w => (t.scFix c w (some k) (some sk.ctx) false).1)
          (s.modWeft k w (fun x => { x with scrubWait := false })))
    | _, _ => .next s
  | _, _ => .next s

/-- SPRETIRE (R213). -/
def execSpretire (c : BitVec 1) (g : BitVec 3) (a : BitVec 6) (s : State) : Out :=
  s.word (.spretire c g a) (fun sk t =>
    let t1 := t.passBy
    match t.acting g with
    | [] => (true, t1)
    | i :: _ =>
      let core := sk.core.getD 0
      let n := match t.strand? t.cur.skein i with
        | some x => (x.rv a.toNat).toNat
        | none => 40
      let grp := if n < 32 then n / 4 else n - 32
      let b := (t.scratch core).group grp
      let already := if n < 32 then b.retired == n % 4 + 1 else b.retired == 5
      if 40 ≤ n ∨ already then (true, t1)
      else
        let t2 := t1.retireBank core n 3 (some sk.ctx)
        (true, if ((t2.scratch core).group grp).rebuilding then
          t2.modWeft t.cur.skein t.cur.weft (fun x => { x with retireWait := some grp }) else t2))

end Sys2Proof.Machine
end

