-- ==== Sys2Proof/Machine/Range.lean ====
section
/-! DEFINITION. Machine/Range.lean: scratch addresses, the range scoreboard, and the reads and writes of a core's
scratchpad that instructions, copies and the engine make (R165, R174, R192, R200, R221, R250). -/

namespace Sys2Proof.Machine

/-- A run of bytes of one core's physical scratchpad. -/
structure Span where
  core : Nat
  lo : Nat
  len : Nat
  deriving DecidableEq, Repr

def Span.hits (a b : Span) : Bool := a.core == b.core && decide (a.lo < b.lo + b.len) && decide (b.lo < a.lo + a.len)

/-! ### Scratch addresses (R174) -/

/-- Peer number `peer` of a skein's bolt. -/
def State.peer? (s : State) (sk : Skein) (n : Nat) : Option Skein :=
  if n = sk.index then some sk
  else (s.bolt? sk.bolt).bind (fun b => (b.skeins[n]?).bind s.skein?)

/-- NSKEIN. -/
def State.nskein (s : State) (sk : Skein) : Nat := match s.bolt? sk.bolt with
  | some b => b.nskein
  | none => 1

/-- The peer and offset of a 32-bit scratch address. -/
def splitScratch (sk : Skein) (ea : Nat) : Nat × Nat :=
  if ea < 2 ^ 31 then (sk.index, ea) else (bits ea 30 28, bits ea 27 0)

/-- Where a 32-bit scratch address lies. DESIGN CHOICE (log 61): an address of a peer whose skein has ended reaches the
accessing skein's own scratchpad at that offset. -/
def State.scratchAt (s : State) (sk : Skein) (ea : Nat) : Nat × Nat :=
  let po := splitScratch sk ea
  match s.peer? sk po.1 with
  | some p => (p.core.getD 0, p.scrBase + po.2)
  | none => (sk.core.getD 0, sk.scrBase + po.2)

/-- CheckScratch (R174) for `n` bytes aligned to `al`: the trap, or the bytes. -/
def State.checkScratch (s : State) (sk : Skein) (ea : Int) (n al : Nat) : Except (Nat × Word) Span :=
  let v := BitVec.ofInt 32 ea
  if ea < 0 ∨ 0xFFFFFFFF < ea then .error (0x25, v)
  else
    let po := splitScratch sk ea.toNat
    if 2 ^ 31 ≤ ea ∧ s.nskein sk ≤ po.1 then .error (0x27, v)
    else if sk.kern.scratch < po.2 + n then .error (0x25, v)
    else if po.2 % al ≠ 0 then .error (0x26, v)
    else
      let at' := s.scratchAt sk ea.toNat
      .ok { core := at'.1, lo := at'.2, len := n }

/-! ### The range scoreboard (R221, R250) -/

/-- Bytes from the first to the last of a strided range. -/
def extent (rowb rows stride : Nat) : Nat := (rows - 1) * stride + rowb

/-- A scratch range of a copy; while its skein is saved it has none (R223). -/
def State.copySpan (s : State) (cp : Copy) (addr stride : Nat) : Option Span :=
  (s.skein? cp.skein).bind (fun sk => sk.core.map (fun _ =>
    let at' := s.scratchAt sk addr
    { core := at'.1, lo := at'.2, len := extent cp.rowb cp.rows stride }))

/-- The read range that a copy records. -/
def State.copyReads (s : State) (cp : Copy) : List Span :=
  if cp.kind = 1 ∨ cp.kind = 2 ∨ cp.kind = 4 then
    ((s.copySpan cp cp.src cp.sstr).toList).filter (fun x => x.core == cp.core) else []

/-- The write range that a copy records. -/
def State.copyWrites (s : State) (cp : Copy) : List Span :=
  if cp.kind = 0 ∨ cp.kind = 2 then ((s.copySpan cp cp.dst cp.dstr).toList).filter (fun x => x.core == cp.core)
  else if cp.kind == 4 && (match s.skein? cp.skein with
      | some sk => bit cp.mask sk.index
      | none => false) then (s.copySpan cp cp.dst cp.dstr).toList
  else []

/-- The copies of a core: a saved one is on none (R223). -/
def State.copiesOn (s : State) (c : Nat) : List (Nat × Copy) :=
  (Tab.list s.copies).filter (fun e => e.2.core == c && ((s.skein? e.2.skein).bind Skein.core).isSome)

/-- Bytes of A and of B of an MTX operation, by format code (R241). -/
def mtxBytes (mmas : Bool) (f : Nat) : Nat × Nat :=
  let scale := if f = 4 then 1024 else 0
  let k := if f ≤ 1 then 64 else if f = 4 ∨ f = 6 then 256 else 128
  if mmas then (8192 + scale + 16 * k, 16384 + 2 * scale) else (8192 + scale, 8192 + scale)

/-- Bytes of an MDRAIN's output and of its data (R258). -/
def drainData (f : Nat) : Nat := if f = 0 then 16384 else if f ≤ 2 then 8192 else if f ≤ 4 then 4096 else 2304
def drainBytes (f : Nat) : Nat := drainData f + 16

/-- The read ranges of an engine operation, as they are read. -/
def EngineOp.reads (o : EngineOp) : List Span :=
  if o.kind ≤ 2 then
    [{ core := o.aCore, lo := o.aAddr, len := (mtxBytes (o.kind == 2) o.af).1 },
     { core := o.bCore, lo := o.bAddr, len := (mtxBytes (o.kind == 2) o.bf).2 }]
  else if o.kind = 4 then [{ core := o.aCore, lo := o.aAddr, len := 16384 }]
  else []

/-- The write range of an engine operation. -/
def EngineOp.writes (o : EngineOp) : List Span :=
  if o.kind = 5 then [{ core := o.aCore, lo := o.aAddr, len := drainBytes o.af }] else []

/-- Whether a copy of a core records a range over some bytes. -/
def State.copyRange (s : State) (c : Nat) (x : Span) : Bool :=
  (s.copiesOn c).any (fun e => (s.copyReads e.2 ++ s.copyWrites e.2).any (fun y => y.hits x))
/-- Whether an engine operation of a core reads, or writes, some bytes. -/
def State.engineReads (s : State) (c : Nat) (x : Span) : Bool := (s.core c).engine.any (fun o => o.reads.any (fun y => y.hits x))
def State.engineWrites (s : State) (c : Nat) (x : Span) : Bool := (s.core c).engine.any (fun o => o.writes.any (fun y => y.hits x))

/-- Whether a read, or a write, of a core waits at issue: the scoreboard holds its own core's bytes only. -/
def State.readWaits (s : State) (c : Nat) (x : Span) : Bool :=
  x.core == c && (s.copyRange c x || s.engineWrites c x)
def State.writeWaits (s : State) (c : Nat) (x : Span) : Bool :=
  x.core == c && (s.copyRange c x || s.engineWrites c x || s.engineReads c x)

/-- Whether some bytes lie in a group that is being rebuilt (R202). -/
def State.spanHeld (s : State) (x : Span) : Bool :=
  (List.range (x.len / 16 + 2)).any (fun j =>
    let p := x.lo / 16 * 16 + 16 * j
    decide (p < x.lo + x.len) && s.scHeld x.core p)

/-! ### Reads and writes -/

/-- The words of a run of bytes. -/
def Span.words (x : Span) : List Nat :=
  (List.range (x.len / 16 + 2)).filterMap (fun j =>
    let p := x.lo / 16 * 16 + 16 * j
    if p < x.lo + x.len then some (p / 16) else none)

/-- A core's banks have been accessed in this step, and have `n` accesses of its instruction still to make. -/
def State.occupy (s : State) (c n : Nat) : State :=
  s.modScratch c (fun sc => { sc with busy := if s.clock < sc.busy then sc.busy + 2 * n else s.clock + 16 + 2 * n })

/-- Whether nothing but a core's next instruction accesses its banks, and their parity queues have had time to drain (R197). -/
def State.quiet (s : State) (c : Nat) : Bool :=
  decide ((s.scratch c).busy ≤ s.clock) &&
  s.cores.all (fun e => e.2.engine.all (fun o => (o.reads ++ o.writes).all (fun x => x.core != c))) &&
  (Tab.list s.copies).all (fun e => !((s.skein? e.2.skein).elim false (fun sk => (Tab.list s.skeins).any (fun x =>
    x.2.bolt == sk.bolt && x.2.core == some c))))

/-- Reads of one group that lose their bank to another row and are served by reconstruction, where the group's banks have these
reads alone: once a single bank has reads left, every second of them (R194). -/
def conflictsOf (ws : List Nat) (g : Nat) : Nat :=
  match sortBy (fun (a b : Nat) => decide (b ≤ a)) ((List.range 4).map (fun m => (ws.filter (fun w => groupOf w == g && w % 4 == m)).length)) with
  | a :: b :: _ => (a - b) / 2
  | _ => 0

/-- Conflict reconstructions and stale waits among a skein's reads of some words, none of them of a damaged row: as R194 decides
for the reads of one instruction on a quiet core (`alone`); else arbitration with other traffic decides, and the counts are free
within what R194 and R195 allow (log 26). -/
def State.noteReads (s : State) (k c : Nat) (ws : List Nat) (alone : Bool) : State :=
  let sc := s.scratch c
  let plain := ws.dedup.filter (fun w => (sc.group (groupOf w)).isNormal &&
    ((sc.eccData.isEmpty && sc.eccSel.isEmpty) || (List.range 5).all (fun j => sc.damage (groupOf w) (rowOf w) j == 0)))
  if alone ∧ s.quiet c then
    (((s.modScratch c (fun x => x.applyAll (fun _ => true))).count k 3 (((List.range 8).map (conflictsOf plain)).sum)).occupy c 0)
  else
    let stale := plain.filter (fun w => sc.stale (groupOf w) (rowOf w))
    let n := Config.freeNat s.free % (plain.length + 1)
    let m := Config.freeNat (s.free + 1) % (stale.length + 1)
    ((({ s with free := s.free + 2 } : State).count k 3 n).count k 4 m).occupy c 0

/-- Read the bytes of a span whose conflicts are counted already. -/
def State.takeSpan (s : State) (k : Nat) (x : Span) (conf : Bool) : State × Option (List Byte) :=
  s.scReadAll x.core (some k) conf (x.len / 16 + 2) x.lo x.len

/-- Read some bytes for a skein; `none` where a word is lost. -/
def State.readSpan (s : State) (k : Nat) (x : Span) : State × Option (List Byte) :=
  (s.noteReads k x.core x.words false).takeSpan k x true

/-- Write some bytes for a context: the owning core's overlapping load entries die, as do the writer's (R72). -/
def State.writeSpan (s : State) (x : Span) (bs : List Byte) (ctx : Nat) : State :=
  ((s.killScratch x.core x.lo bs.length).scWriteAll x.core (some ctx) (bs.length / 16 + 2) x.lo bs).occupy x.core 0

/-! ### Uniform operands (R215, R240) -/

/-- The value of a register in the lowest of some strands, where all of them hold the same. -/
def State.uniform? (s : State) (k : Nat) (is : List Nat) (r : Nat) : Option Word :=
  match is with
  | [] => none
  | i :: rest =>
    match s.strand? k i with
    | none => none
    | some t =>
      if rest.all (fun j => match s.strand? k j with
          | some u => u.rv r == t.rv r
          | none => true) then some (t.rv r)
      else none

/-- The first of some registers that is not uniform. -/
def State.nonUniform (s : State) (k : Nat) (is rs : List Nat) : Option Nat :=
  rs.find? (fun r => (s.uniform? k is r).isNone)

/-- Every strand of the issue set traps with one cause and value. -/
def State.trapAll (s : State) (is : List Nat) (cause : Nat) (val : Word) : State :=
  s.trapHere (is.map (fun i => { strand := i, cause := cause, val := val }))

end Sys2Proof.Machine
end

