-- ==== Sys2Proof/Machine/Memory.lean ====
section
/-! DEFINITION. Machine/Memory.lean: LDG, STG, LDS, STS, LDGA and PREF, the value a load returns, and the replies to
requests (R153 to R159, R167, R172 to R184, R189, R190). -/

namespace Sys2Proof.Machine

/-! ### Addresses and sizes (R46, R172, R177) -/

/-- Bytes of a size code. -/
def szBytes (z : Nat) : Nat := nth 0 [1, 1, 2, 2, 4, 8, 16] z
/-- The offset of a MEM word (R46, R172). -/
def memOff (k : Word) (o : BitVec 4) (z : Nat) : Int := if o = 15 then k.toInt else (o.toNat * szBytes z : Nat)
/-- The words that a load of a size code writes (R177). -/
def loadWords (z : Nat) (bs : List Byte) : List Word :=
  match z with
  | 1 => [BitVec.ofInt 32 (signed 8 (ofBytes bs))]
  | 3 => [BitVec.ofInt 32 (signed 16 (ofBytes bs))]
  | _ => if z ≤ 4 then [BitVec.ofNat 32 (ofBytes bs)]
    else (List.range (szCount z)).map (fun j => BitVec.ofNat 32 (fieldAt bs (4 * j) 4))
/-- Write a load's words; registers from v63 up discard. -/
def Strand.putWords (t : Strand) (d : Nat) (ws : List Word) : Strand :=
  ws.zipIdx.foldl (fun u e => if d = 63 then u else u.wv (d + e.2) e.1) t
/-- The bytes that a store of a size code writes: v63 gives zeros (R177). -/
def storeBytes (t : Strand) (z d : Nat) : List Byte :=
  ((List.range (szCount z)).flatMap (fun j => bytesOf 4 (if d = 63 then 0 else (t.rv (d + j)).toNat))).take (szBytes z)

/-! ### Load entries of the reuse table (R69 to R72) -/

/-- The entry of a load that starts: not in the table before its last reply. -/
def State.startEntry (s : State) (sk : Skein) (i : Instr) (key : List (List Nat)) (scratch : Bool) (addrs : List Nat) : State :=
  match addrs with
  | [] => s
  | a :: rest =>
    if opKey i ≠ [] ∧ rest.all (fun b => b / 256 == a / 256) then
      let c := sk.core.getD 0
      s.reuseEnter c
        { ctx := sk.ctx, skein := s.cur.skein, weft := s.cur.weft, key := key, isLoad := true, scratch := scratch,
          region := a / 256 * 256, vals := [], results := [], set := 0, pending := some (s.core c).issueSeq }
    else s

/-- A strand of a pending load entry has its words. -/
def State.entryWords (s : State) (c seq lane : Nat) (ws : List Word) : State :=
  s.modCore c (fun x => { x with reuse := x.reuse.map (fun e =>
    if e.pending = some seq then { e with vals := e.vals ++ ws.zipIdx.map (fun w => (lane, w.2, w.1)) } else e) })

/-- A pending load entry is dropped: a strand of it trapped or parked. -/
def State.entryDrop (s : State) (c seq : Nat) : State :=
  s.modCore c (fun x => { x with reuse := x.reuse.filter (fun e => e.pending != some seq) })

/-- With no request of its issue left, a load's registers are named and its entry enters the table (R66, R71). -/
def State.loadEnd (s : State) (k i c seq reg z : Nat) : State :=
  if (Tab.list s.reqs).any (fun e => e.2.core == c && e.2.seq == seq) then s
  else
    let regs := if reg = 63 then [] else (List.range (szCount z)).map (reg + ·)
    match (s.skein? k).bind (fun sk => (sk.weftOf i).map (fun wf => (sk, wf.1))) with
    | none => s
    | some x =>
      (s.modCore c (fun y => { y with reuse := y.reuse.map (fun e =>
        if e.pending = some seq then { e with pending := none, results := regs.map (x.1.laneVals x.2) } else e) })).noteWrites
        k x.2 regs

/-- A strand of an instruction has written its words: the requests of the others know it (R66). -/
def State.markWrote (s : State) (c seq : Nat) : State :=
  { s with reqs := s.reqs.map (fun (e : Nat × Option Req) => (e.1, e.2.map (fun (x : Req) =>
      if x.core = c ∧ x.seq = seq then { x with wrote := true } else x))) }

/-- A hit of the reuse table on a load (R70): the entry's words, and no access. -/
def State.loadHit (s : State) (act : List Nat) (d : VReg) (e : ReuseEntry) : State :=
  let s1 := act.foldl (fun t i => t.modStrand s.cur.skein i (fun x =>
    x.putWords d.toNat ((e.vals.filter (fun v => v.1 == i - s.cur.weft)).map (fun v => v.2.2)))) s
  (s1.passBy.count s.cur.skein 1 1).count s.cur.skein 2 1

/-! ### LDG (R180) -/

/-- Add a request of a strand and send it. -/
def State.postPlain (s : State) (r : Req) : State :=
  (({ s with reqs := Tab.set s.reqs s.nextId (some r) }).fresh).send s.nextId

/-- Add a request of a strand, and send it after the write-combining entry of its line (R154, R167). -/
def State.post (s : State) (r : Req) : State := (s.sendWcLine r.core r.domain r.va).postPlain r

/-- LDG in one strand: from the L1 group at once, or by a request that the strand waits for. -/
def State.ldgLane (sk : Skein) (d a : VReg) (o : BitVec 4) (z v pol : Nat) (s : State) (i : Nat) (t : Strand) :
    State × Option TrapReq :=
  let base := t.rp a.toNat
  let n := szBytes z
  match s.accessCheck sk base (base.toNat + memOff s.cur.k o z) n (fun x => bit x 0) with
  | .error e => (s, some { strand := i, cause := e.1, val := e.2 })
  | .ok va =>
    let c := sk.core.getD 0
    let dom := s.domainOf sk.ctx
    match if v = 0 then s.l1Hit s.cur.skein c dom va else none with
    | some l =>
      let s0 := s.sendWcLine c dom va
      let r := s0.hitValue s.cur.skein c i (s.core c).issueSeq dom va n l s.cur.moment
      let ws := loadWords z r.1
      ((r.2.entryWords c (s.core c).issueSeq (i - s.cur.weft) ws).modStrand s.cur.skein i
        (fun x => (x.putWords d.toNat ws).advance), none)
    | none =>
      let id := (s.sendWcLine c dom va).nextId
      let r : Req := { s.mkReq .load sk i va n s.cur.pc with reg := d.toNat, sz := z, vol := v == 1, pol := pol }
      ((s.post r).modStrand s.cur.skein i (fun x => { x with hold := some id }), none)

/-- Whether strands of the issue set trap at their address, so that no entry is made (R71). -/
def State.loadAddrs (s : State) (act : List Nat) (f : Strand → Except (Nat × Word) Nat) : Option (List Nat) :=
  act.mapM (fun i => match s.strand? s.cur.skein i with
    | some t => (match f t with
      | .ok a => some a
      | .error _ => none)
    | none => none)

/-- LDG (R177 to R180). -/
def execLdg (c : BitVec 1) (g : BitVec 3) (d : BitVec 6) (a : BitVec 6) (o : BitVec 4) (z : BitVec 3) (v : BitVec 1) (p : BitVec 2) (s : State) : Out :=
  let i : Instr := .ldg c g d a o z v p
  s.word i (fun sk u =>
    let act := u.acting g
    let core := sk.core.getD 0
    let key := reuseKey sk u.cur.weft u.issueSet u.cur.k i
    match if u.cur.reuse ∧ opKey i ≠ [] then u.reuseFind core key else none with
    | some e => (true, u.loadHit act d e)
    | none =>
      let u1 := u.nextSeq core
      let addrs := u1.loadAddrs act (fun t =>
        let base := t.rp a.toNat
        u1.accessCheck sk base (base.toNat + memOff u1.cur.k o z.toNat) (szBytes z.toNat) (fun x => bit x 0))
      let u2 := match addrs with
        | some l => u1.startEntry sk i key false l
        | none => u1
      let u3 := u2.eachStrand act (State.ldgLane sk d a o z.toNat v.toNat p.toNat)
      let good := act.filter (fun i => (u1.loadAddrs [i] (fun t =>
        let base := t.rp a.toNat
        u1.accessCheck sk base (base.toNat + memOff u1.cur.k o z.toNat) (szBytes z.toNat) (fun x => bit x 0))).isSome)
      let seq := (u1.core core).issueSeq
      let sent := ((Tab.list u3.reqs).filter (fun e => e.2.core == core && e.2.seq == seq)).length
      (true, if good = [] then u3
        else (if sent < good.length then u3.markWrote core seq else u3).loadEnd u.cur.skein u.cur.weft core seq d.toNat z.toNat))

/-! ### STG (R181) -/

/-- STG in one strand: the copy in the L1 group is updated, and the write goes to its home, or through the write-combining
buffer. In a fused L1 the copy of another module's line is updated when the store reaches the slice (R156, R181). -/
def State.stgLane (sk : Skein) (d a : VReg) (o : BitVec 4) (z v pol : Nat) (s : State) (i : Nat) (t : Strand) :
    State × Option TrapReq :=
  let base := t.rp a.toNat
  let n := szBytes z
  match s.accessCheck sk base (base.toNat + memOff s.cur.k o z) n (fun x => bit x 1) with
  | .error e => (s, some { strand := i, cause := e.1, val := e.2 })
  | .ok va =>
    let r : Req := { s.mkReq .store sk i va n s.cur.pc with
      data := storeBytes t z d.toNat, reg := d.toNat, sz := z, vol := v == 1, pol := pol }
    let s0 := if s.isLocal va ∨ 1024 ≤ r.group then s else s.l1Store r.group r.domain va r.data
    let s1 := s0.killGlobal r.core r.domain va n
    let s2 :=
      if s.isLocal va ∨ v = 1 then s1.post r
      else State.intoWc ({ s1 with reqs := Tab.set s1.reqs s1.nextId (some r) }).fresh s1.nextId
    (s2.modStrand s.cur.skein i Strand.advance, none)

/-- STG (R177 to R179, R181). -/
def execStg (c : BitVec 1) (g : BitVec 3) (d : BitVec 6) (a : BitVec 6) (o : BitVec 4) (z : BitVec 3) (v : BitVec 1) (p : BitVec 2) (s : State) : Out :=
  s.word (.stg c g d a o z v p) (fun sk u =>
    let act := u.acting g
    if act = [] then (true, u.passBy)
    else (true, ((u.setDirty u.cur.skein).nextSeq (sk.core.getD 0)).eachStrand act (State.stgLane sk d a o z.toNat v.toNat p.toNat)))

/-! ### LDS and STS (R174, R180, R181) -/

/-- The scratch bytes of a strand's access. -/
def State.scratchOf (s : State) (sk : Skein) (a : VReg) (off : Int) (n : Nat) (t : Strand) : Except (Nat × Word) Span :=
  s.checkScratch sk ((t.rv a.toNat).toNat + off) n n

/-- The scratch bytes of the strands that act and pass their checks. -/
def State.scratchSpans (s : State) (sk : Skein) (act : List Nat) (a : VReg) (off : Int) (n : Nat) : List Span :=
  act.filterMap (fun i => match s.strand? s.cur.skein i with
    | some t => (match s.scratchOf sk a off n t with
      | .ok x => some x
      | .error _ => none)
    | none => none)

/-- The reads of an LDS count once for each bank access: alike words of a core share one (R192, R194). -/
def State.noteLds (s : State) (spans : List Span) : State :=
  let cs := (spans.map Span.core).dedup
  cs.foldl (fun t c =>
    let ws := (spans.filter (fun x => x.core == c)).flatMap Span.words
    (t.noteReads t.cur.skein c ws (decide (cs.length = 1))).occupy c ws.length) s

/-- LDS in one strand. -/
def State.ldsLane (sk : Skein) (d a : VReg) (off : Int) (z : Nat) (s : State) (i : Nat) (t : Strand) : State × Option TrapReq :=
  match s.scratchOf sk a off (szBytes z) t with
  | .error e => (s, some { strand := i, cause := e.1, val := e.2 })
  | .ok x =>
    let c := sk.core.getD 0
    match s.takeSpan s.cur.skein x true with
    | (s1, none) => (s1, none)
    | (s1, some bs) =>
      let ws := loadWords z bs
      ((s1.entryWords c (s.core c).issueSeq (i - s.cur.weft) ws).modStrand s.cur.skein i
        (fun y => (y.putWords d.toNat ws).advance), none)

/-- LDS (R177 to R180); it waits at issue for the scoreboard and for a rebuild (R202, R221, R250). -/
def execLds (c : BitVec 1) (g : BitVec 3) (d : BitVec 6) (a : BitVec 6) (o : BitVec 4) (z : BitVec 3) (v : BitVec 1) (p : BitVec 2) (s : State) : Out :=
  let i : Instr := .lds c g d a o z v p
  s.word i (fun sk u =>
    let act := u.acting g
    let core := sk.core.getD 0
    let off := memOff u.cur.k o z.toNat
    let spans := u.scratchSpans sk act a off (szBytes z.toNat)
    let key := reuseKey sk u.cur.weft u.issueSet u.cur.k i
    match if u.cur.reuse ∧ opKey i ≠ [] then u.reuseFind core key else none with
    | some e => (true, u.loadHit act d e)
    | none =>
      if spans.any (fun x => u.readWaits core x || u.spanHeld x) then (false, u)
      else
        let u1 := u.nextSeq core
        let own := spans.all (fun x => x.core == core && decide (sk.scrBase ≤ x.lo ∧ x.lo < sk.scrBase + sk.kern.scratch))
        let u2 := if own ∧ spans.length = act.length then u1.startEntry sk i key true (spans.map Span.lo) else u1
        let u3 := (u2.noteLds spans).eachStrand act (State.ldsLane sk d a off z.toNat)
        (true, if spans = [] then u3 else u3.loadEnd u.cur.skein u.cur.weft core (u1.core core).issueSeq d.toNat z.toNat))

/-- STS in one strand. DESIGN CHOICE (log 55): the store takes effect at its bank in the step that issues it. -/
def State.stsLane (sk : Skein) (d a : VReg) (off : Int) (z : Nat) (s : State) (i : Nat) (t : Strand) : State × Option TrapReq :=
  match s.scratchOf sk a off (szBytes z) t with
  | .error e => (s, some { strand := i, cause := e.1, val := e.2 })
  | .ok x => (((s.writeSpan x (storeBytes t z d.toNat) sk.ctx).occupy x.core 1).modStrand s.cur.skein i Strand.advance, none)

/-- STS (R177, R181). -/
def execSts (c : BitVec 1) (g : BitVec 3) (d : BitVec 6) (a : BitVec 6) (o : BitVec 4) (z : BitVec 3) (v : BitVec 1) (p : BitVec 2) (s : State) : Out :=
  s.word (.sts c g d a o z v p) (fun sk u =>
    let act := u.acting g
    let off := memOff u.cur.k o z.toNat
    let spans := u.scratchSpans sk act a off (szBytes z.toNat)
    if spans.any (fun x => u.writeWaits (sk.core.getD 0) x || u.spanHeld x) then (false, u)
    else (true, u.eachStrand act (State.stsLane sk d a off z.toNat)))

/-! ### LDGA and PREF (R189, R190) -/

/-- LDGA in one strand: the strand goes on; a line in the L1 group answers without a request (`fn` 1). -/
def State.ldgaLane (sk : Skein) (d a : VReg) (o : BitVec 4) (z pol : Nat) (s : State) (i : Nat) (t : Strand) :
    State × Option TrapReq :=
  let base := t.rp a.toNat
  let n := szBytes z
  match s.accessCheck sk base (base.toNat + memOff s.cur.k o z) n (fun x => bit x 0) with
  | .error e => (s, some { strand := i, cause := e.1, val := e.2 })
  | .ok va =>
    let r : Req := { s.mkReq .ldga sk i va n s.cur.pc with reg := d.toNat, sz := z, pol := pol }
    let s1 := match s.l1Hit s.cur.skein r.core r.domain va with
      | some l =>
        let s0 := s.sendWcLine r.core r.domain va
        let b := if s.isLocal va then ([], s0)
          else s0.hitValue s.cur.skein r.core i r.seq r.domain va n l none
        let q : Req := { r with stage := .returned 0 s.seq, key := l.key, data := b.1, fn := 1, noFill := true, stamp := s.nextId }
        ({ b.2 with reqs := Tab.set b.2.reqs b.2.nextId (some q) }).fresh
      | none => s.post r
    (s1.modStrand s.cur.skein i Strand.advance, none)

/-- LDGA (R189). -/
def execLdga (c : BitVec 1) (g : BitVec 3) (d : BitVec 6) (a : BitVec 6) (o : BitVec 4) (z : BitVec 3) (p : BitVec 2) (s : State) : Out :=
  s.word (.ldga c g d a o z p) (fun sk u =>
    (true, (u.nextSeq (sk.core.getD 0)).eachStrand (u.acting g) (State.ldgaLane sk d a o z.toNat p.toNat)))

/-- PREF in one strand: it asks for the 256-byte line; what fails a check is dropped. `fn`: 1 fills the L1 group too. -/
def State.prefLane (sk : Skein) (a : VReg) (o : BitVec 4) (z : Nat) (fn : Nat) (s : State) (i : Nat) (t : Strand) :
    State × Option TrapReq :=
  let base := t.rp a.toNat
  let go (u : State) : State × Option TrapReq := (u.modStrand s.cur.skein i Strand.advance, none)
  match s.accessCheck sk base (base.toNat + memOff s.cur.k o z) (szBytes z) (fun x => bit x 0) with
  | .error _ => go s
  | .ok va => go (s.postPlain { s.mkReq .pref sk i (va / 256 * 256) 256 s.cur.pc with fn := fn })

/-- A PREF word. -/
def State.prefWord (s : State) (i : Instr) (g : BitVec 3) (a : VReg) (o : BitVec 4) (z fn : Nat) : Out :=
  s.word i (fun sk u => (true, (u.nextSeq (sk.core.getD 0)).eachStrand (u.acting g) (State.prefLane sk a o z fn)))
/-- PREF.l1 (R190). -/
def execPrefL1 (c : BitVec 1) (g : BitVec 3) (a : BitVec 6) (o : BitVec 4) (z : BitVec 3) (s : State) : Out :=
  s.prefWord (.prefL1 c g a o z) g a o z.toNat 1
/-- PREF.l2 (R190). -/
def execPrefL2 (c : BitVec 1) (g : BitVec 3) (a : BitVec 6) (o : BitVec 4) (z : BitVec 3) (s : State) : Out :=
  s.prefWord (.prefL2 c g a o z) g a o z.toNat 0

/-! ### Replies (R155, R175, R180, R183, R188, R351) -/

/-- What a reply says at the core: the code (0 done, 0x100 denied), its fault record, the moment performed, the key. -/
structure Answer where
  code : Nat
  faultId : Nat
  hi : Nat
  key : Nat
  deriving DecidableEq, Repr

/-- The answer of a request whose reply has reached its core; for another module's, what the event carries. -/
def State.answerOf (s : State) (r : Req) (ans : RemoteAns) : Option Answer :=
  match r.stage with
  | .returned code hi => some { code := code, faultId := r.result, hi := hi, key := r.key }
  | .remote _ => some { code := ans.code, faultId := remoteRecord ans, hi := s.seq, key := ans.key % 16 }
  | _ => none

/-- PMC_PARKS counts one NACK of an issue (R183). -/
def State.countPark (s : State) (r : Req) : State :=
  if r.counted then s
  else
    let s1 := { s with reqs := s.reqs.map (fun (e : Nat × Option Req) => (e.1, e.2.map (fun (x : Req) =>
        if x.core = r.core ∧ x.seq = r.seq then { x with counted := true } else x))) }
    s1.count r.skein 5 1

/-- A request of a load that writes nothing is over: its entry is dropped, and with the last one of its instruction the words
that other strands wrote are named (R66, R71). -/
def State.endUnwritten (s : State) (id : Nat) (r : Req) : State :=
  let s1 := (s.endReq id).entryDrop r.core r.seq
  if r.wrote then s1.loadEnd r.skein r.strand r.core r.seq r.reg r.sz else s1

/-- A NACK of an access that its strand waits for. -/
def State.nackLoad (s : State) (id : Nat) (r : Req) (a : Answer) : State :=
  let s1 := if fatalCode a.code then s else s.countPark r
  (s1.endUnwritten id r).nackStrand r.skein r.strand r.pc a.code a.faultId r.va

/-- KEY_DENY at the instruction of an access that its strand waits for (R175). -/
def State.denyLoad (s : State) (id : Nat) (r : Req) : State :=
  let s1 := s.endUnwritten id r
  match (s1.skein? r.skein).bind (fun sk => sk.weftOf r.strand) with
  | some wf => s1.takeTraps r.skein wf.1 r.pc [{ strand := r.strand, cause := 0x24, val := BitVec.ofNat 32 r.va }]
  | none => s1

/-- A posted request is held on a NACK (R183), and sent again at once where its record is closed already (log 56), or ends its gang (R184). A gang that has been killed in the meantime has
nothing left to hold it for: it is discarded (R272). -/
def State.holdReq (s : State) (id : Nat) (r : Req) (a : Answer) : State :=
  if fatalCode a.code then (s.endReq id).fatalNack r.skein (some r.strand) r.pc a.code r.va
  else if (s.skein? r.skein).isNone then s.endReq id
  else if s.recClosed a.faultId then (s.modReq id (fun x => { x with entry := none, payload := 0 })).send id
  else ((s.farReply r).modReq id (fun x => { x with
    stage := .held a.code a.faultId, nackAt := s.clock, entry := none, payload := 0 })).releasePorts

/-- A posted request is denied at its home; the waiting instruction reports it (R183). For every wait it has ended, that of an
.all instruction of its weft among them. -/
def State.denyPosted (s : State) (id : Nat) : State :=
  match (s.req? id).bind (fun r => (s.skein? r.skein).map (fun sk => (r, sk))) with
  | none => s.endReq id
  | some (r, sk) =>
    let t := ((s.farReply r).modReq id (fun x => { x with stage := .denied })).releasePorts
    match sk.weftOf r.strand with
    | some wf => t.settleXlane r.skein wf.1
    | none => t

/-- The bytes that a load's reply delivers, and the state that remembers it. A load performed at a home after a publish reads
no earlier than that (R166). -/
def State.replyBytes (s : State) (r : Req) (hi moment : Nat) (ans : RemoteAns) : List Byte × State :=
  if s.isLocal r.va then
    s.loadValue r.skein r.core r.strand r.seq r.domain r.va r.size
      (if r.kind = .ldga ∧ r.fn = 1 then 0 else s.publishLow r.domain r.va r.size hi) hi r.stamp r.vol (some moment)
  else match r.stage with
    | .remote _ =>
      let t := s.settleStores r.skein r.core r.domain r.va s.nextId
      ((List.range r.size).map (fun j =>
        overlayPending (t.pendingReqs r.skein r.core r.seq r.domain s.nextId (r.va + j) true) (nth 0 ans.data j)), t)
    | _ => (r.data, s)

/-- Replies to one core's loads of a line come in issue order, as the loads were performed (R154, R157). -/
def State.replyDue (s : State) (id : Nat) (r : Req) : Bool :=
  (Tab.list s.reqs).all (fun e => !(decide (e.1 < id) && e.2.onLine r.core r.domain r.va &&
    decide (e.2.kind = .load ∨ e.2.kind = .ldga ∨ e.2.kind = .fill ∨ (e.2.kind = .atomic ∧ e.2.reg ≠ 63)) &&
    (match e.2.stage with
      | .returned _ _ => true
      | .remote _ => true
      | _ => false)))

/-- Whether a NACK that a home has given to a write is not yet reported, or holds it. -/
def ReqStage.refusedWrite : ReqStage → Bool
  | .held _ _ => true
  | .replied c _ => c != 0 && c != 0x100 && !fatalCode c
  | .returned c _ => c != 0 && c != 0x100 && !fatalCode c
  | _ => false

/-- Whether a write of the core to the line, issued before a request, has drawn a NACK: a later write may not take effect
before it (R154, R183). Shadow writes come in order among themselves (R232). -/
def State.writeHeld (s : State) (id : Nat) (r : Req) : Bool :=
  (Tab.list s.reqs).any (fun e => decide (e.1 < id) && e.2.onLine r.core r.domain r.va &&
    (if r.kind = .rst then e.2.kind == .rst else decide (e.2.kind = .store ∨ e.2.kind = .atomic)) && e.2.stage.refusedWrite)

/-- Another module answers a write only as its home takes the core's writes of a line in issue order (R154). -/
def State.farDue (s : State) (id : Nat) (r : Req) (ans : RemoteAns) : Bool := match r.stage with
  | .remote _ => ans.code != 0 || !s.writeHeld id r
  | _ => true

/-- LOAD_REPLY (R180): of an LDG, a fill of the return stack, or a PREF. -/
def execLoadReply (req moment : Nat) (ans : RemoteAns) (s : State) : Out :=
  match s.req? req with
  | none => .next s
  | some r =>
    match if s.replyDue req r then s.answerOf r ans else none with
    | none => .next s
    | some a =>
      let denied := a.code == 0x100 || (a.code == 0 && !bit r.rdRights a.key)
      match r.kind with
      | .pref => .next (if a.code = 0 ∧ ¬ denied then (s.fillL1 r a.key []).endReq req else s.endReq req)
      | .load =>
        if denied then .next (s.denyLoad req r)
        else if a.code ≠ 0 then .next (s.nackLoad req r a)
        else
          let v := (s.capture (quadOf r.core) 0 (r.core % 48) (s.clock - r.issued)).replyBytes r a.hi moment ans
          let ws := loadWords r.sz v.1
          let s1 := ((v.2.fillL1 r a.key v.1).endReq req).modStrand r.skein r.strand (fun t =>
            { (t.putWords r.reg ws).advance with hold := none })
          let lane := match (s1.skein? r.skein).bind (fun sk => sk.weftOf r.strand) with
            | some wf => r.strand - wf.1
            | none => 0
          .next (((s1.markWrote r.core r.seq).entryWords r.core r.seq lane ws).loadEnd r.skein r.strand r.core r.seq r.reg r.sz)
      | .fill =>
        if denied then .next (s.denyLoad req r)
        else if a.code ≠ 0 then .next (s.nackLoad req r a)
        else
          let v := s.replyBytes r a.hi moment ans
          .next ((v.2.endReq req).fillDone r.skein r.strand (BitVec.ofNat 32 (fieldAt v.1 0 4)) (BitVec.ofNat 32 (fieldAt v.1 4 4)))
      | _ => .next s

/-- LDGA_WRITE (R75, R189). -/
def execLdgaWrite (req moment : Nat) (ans : RemoteAns) (s : State) : Out :=
  match s.req? req with
  | none => .next s
  | some r =>
    match r.kind, (if s.replyDue req r then s.answerOf r ans else none) with
    | .ldga, some a =>
      if a.code = 0x100 ∨ (a.code = 0 ∧ ¬ bit r.rdRights a.key) then .next (s.denyPosted req)
      else if a.code ≠ 0 then .next (s.holdReq req r a)
      else
        let v := s.replyBytes r a.hi moment ans
        let s1 := ((v.2.fillL1 r a.key v.1).endReq req).modStrand r.skein r.strand (fun t => t.putWords r.reg (loadWords r.sz v.1))
        .next (match (s1.skein? r.skein).bind (fun sk => sk.weftOf r.strand) with
          | some wf => (s1.noteWrites r.skein wf.1
              (if r.reg = 63 then [] else (List.range (szCount r.sz)).map (r.reg + ·))).settleXlane r.skein wf.1
          | none => s1)
    | _, _ => .next s

/-- Acknowledgements of one core's stores to a line come in the order the stores took effect (R154); one write-combining
entry is acknowledged as a whole (R167). -/
def State.ackDue (s : State) (id : Nat) (r : Req) : Bool :=
  (Tab.list s.reqs).all (fun e => !(decide (e.1 < id) && e.2.onLine r.core r.domain r.va && e.2.isStore &&
    (e.2.entry.isNone || e.2.entry != r.entry) &&
    (match e.2.stage, r.stage with
      | .remote _, .remote _ => true
      | _, _ => false)))

/-- A store of another module's bytes is over: its L1 group's copy has it (R156). -/
def State.endStore (s : State) (id : Nat) : State :=
  match s.req? id with
  | none => s
  | some r => (if s.isLocal r.va then s else s.reachNow id).endReq id

/-- STORE_ACK (R155): of a store, with those of its write-combining entry, or of a spill of the return stack (R136). -/
def execStoreAck (req : Nat) (ans : RemoteAns) (s : State) : Out :=
  match s.req? req with
  | none => .next s
  | some r =>
    match r.kind, (if s.ackDue req r && s.farDue req r ans then s.answerOf r ans else none) with
    | .store, some a =>
      .next (((Tab.list s.reqs).filter (fun e => e.1 == req || (r.entry.isSome && e.2.entry == r.entry))).foldl (fun t e =>
        if a.code = 0 then t.endStore e.1
        else if a.code = 0x100 then t.denyPosted e.1
        else t.holdReq e.1 e.2 a) s)
    | .spill, some a =>
      if a.code = 0 then
        .next ((s.endStore req).modStrand r.skein r.strand (fun t => t.spillDone (lo32 r.opnd)))
      else if a.code = 0x100 then .next (s.denyLoad req r)
      else .next (s.nackLoad req r a)
    | _, _ => .next s

end Sys2Proof.Machine
end

