-- ==== Sys2Proof/Machine/Atomic.lean ====
section
/-! DEFINITION. Machine/Atomic.lean: ATG, ATG64 and ATS (R163, R186 to R188). -/

namespace Sys2Proof.Machine

/-! ### The operations (R186, R187) -/

/-- The floating atomics round RNE, keep subnormals and raise nothing (R187). -/
def atomicCtx (lvl2 : Bool) : FpCtx := { rm := 0, ftz := false, lvl2 := lvl2 }

/-- Op of ATG and ATS: `b` the operand, `x` the expected value of CAS. -/
def atomicOp (lvl2 : Bool) (fn : Nat) (old b x : Word) : Word :=
  let c := atomicCtx lvl2
  match fn with
  | 0 => old + b
  | 1 => intMin old b
  | 2 => intMax old b
  | 3 => intMinu old b
  | 4 => intMaxu old b
  | 5 => old &&& b
  | 6 => old ||| b
  | 7 => old ^^^ b
  | 8 => b
  | 9 => if old = x then b else old
  | 10 => BitVec.ofNat 32 (Fmt.fp32.add c (fpv old) (fpv b)).bits
  | 11 => BitVec.ofNat 32 (Fmt.fp32.minMax c false old.toNat b.toNat).bits
  | 12 => BitVec.ofNat 32 (Fmt.fp32.minMax c true old.toNat b.toNat).bits
  | 13 => BitVec.ofNat 32 (halfOp true 0 c old b 0).bits
  | _ => if b.toNat ≤ old.toNat then 0 else old + 1

/-- Op of ATG64. -/
def atomicOp64 (fn : Nat) (old b x : Dword) : Dword :=
  match fn with
  | 0 => old + b
  | 1 => if old.toNat ≤ b.toNat then old else b
  | 2 => if old.toNat ≤ b.toNat then b else old
  | 3 => old &&& b
  | 4 => old ||| b
  | 5 => old ^^^ b
  | 6 => b
  | _ => if old = x then b else old

/-- The step of an atomic request on its bytes: what it writes. -/
def Req.atomicStep (r : Req) (old : List Byte) : List Byte :=
  if r.size = 8 then bytesOf 8 (atomicOp64 r.fn (BitVec.ofNat 64 (ofBytes old)) r.opnd r.expect).toNat
  else bytesOf 4 (atomicOp r.lvl2 r.fn (BitVec.ofNat 32 (ofBytes old)) (lo32 r.opnd) (lo32 r.expect)).toNat

/-! ### ATG and ATG64 (R188) -/

/-- The line of an atomic leaves the core's L1 group, and a fill of it that is on its way is not installed (R163). -/
def State.dropL1Line (s : State) (k domain va : Nat) : State := s.dropL1 (s.l1Key k) domain va

/-- ATG or ATG64 in one strand. -/
def State.atgLane (sk : Skein) (fn n : Nat) (cas : Bool) (d a b : VReg) (s : State) (i : Nat) (t : Strand) :
    State × Option TrapReq :=
  let base := t.rp a.toNat
  match s.accessCheck sk base (base.toNat : Int) n (fun x => bit x 0 && bit x 1) with
  | .error e => (s, some { strand := i, cause := e.1, val := e.2 })
  | .ok va =>
    let opnd : Dword := if n = 8 then t.rbp s.cur.k b.toNat else (t.rb s.cur.k b.toNat).setWidth 64
    let want : Dword := if cas then (if n = 8 then (if d = 63 then 0 else t.rp d.toNat) else (t.rv d.toNat).setWidth 64) else 0
    let r : Req := { s.mkReq .atomic sk i va n s.cur.pc with
      reg := d.toNat, sz := if n = 8 then 5 else 4, fn := fn, opnd := opnd, expect := want }
    let s1 := (s.killGlobal r.core r.domain va n).dropL1Line s.cur.skein r.domain va
    let id := (s1.sendWcLine r.core r.domain va).nextId
    ((s1.post r).modStrand s.cur.skein i (fun x => if d = 63 then x.advance else { x with hold := some id }), none)

/-- An ATG or ATG64 word. -/
def State.atgWord (s : State) (i : Instr) (fn n : Nat) (cas : Bool) (g : BitVec 3) (d a b : VReg) : Out :=
  s.word i (fun sk u =>
    let act := u.acting g
    if act = [] then (true, u.passBy)
    else (true, ((u.setDirty u.cur.skein).nextSeq (sk.core.getD 0)).eachStrand act (State.atgLane sk fn n cas d a b)))

/-! ### ATS -/

/-- ATS in one strand: one step at the bank. -/
def State.atsLane (sk : Skein) (fn : Nat) (d a b : VReg) (s : State) (i : Nat) (t : Strand) : State × Option TrapReq :=
  match s.scratchOf sk a 0 4 t with
  | .error e => (s, some { strand := i, cause := e.1, val := e.2 })
  | .ok x =>
    match s.takeSpan s.cur.skein x false with
    | (s1, none) => (s1, none)
    | (s1, some bs) =>
      let old : Word := BitVec.ofNat 32 (ofBytes bs)
      let new := atomicOp (sk.kern.level == 2) fn old (t.rb s.cur.k b.toNat) (t.rv d.toNat)
      (((s1.writeSpan x (bytesOf 4 new.toNat) sk.ctx).occupy x.core 1).modStrand s.cur.skein i (fun y => (y.wv d.toNat old).advance), none)

/-- An ATS word. -/
def State.atsWord (s : State) (i : Instr) (fn : Nat) (g : BitVec 3) (d a b : VReg) : Out :=
  s.word i (fun sk u =>
    let act := u.acting g
    let spans := u.scratchSpans sk act a 0 4
    if spans.any (fun x => u.writeWaits (sk.core.getD 0) x || u.spanHeld x) then (false, u)
    else
      let u1 := u.eachStrand act (State.atsLane sk fn d a b)
      (true, if spans = [] ∨ d = 63 then u1 else u1.noteWrites u.cur.skein u.cur.weft [d.toNat]))

/-! ### The instructions -/

/-- ATG_ADD (R186). -/
def execAtgAdd (c : BitVec 1) (g : BitVec 3) (d : BitVec 6) (a : BitVec 6) (b : BitVec 6) (s : State) : Out :=
  s.atgWord (.atgAdd c g d a b) 0 4 false g d a b
/-- ATG_MIN (R186). -/
def execAtgMin (c : BitVec 1) (g : BitVec 3) (d : BitVec 6) (a : BitVec 6) (b : BitVec 6) (s : State) : Out :=
  s.atgWord (.atgMin c g d a b) 1 4 false g d a b
/-- ATG_MAX (R186). -/
def execAtgMax (c : BitVec 1) (g : BitVec 3) (d : BitVec 6) (a : BitVec 6) (b : BitVec 6) (s : State) : Out :=
  s.atgWord (.atgMax c g d a b) 2 4 false g d a b
/-- ATG_MINU (R186). -/
def execAtgMinu (c : BitVec 1) (g : BitVec 3) (d : BitVec 6) (a : BitVec 6) (b : BitVec 6) (s : State) : Out :=
  s.atgWord (.atgMinu c g d a b) 3 4 false g d a b
/-- ATG_MAXU (R186). -/
def execAtgMaxu (c : BitVec 1) (g : BitVec 3) (d : BitVec 6) (a : BitVec 6) (b : BitVec 6) (s : State) : Out :=
  s.atgWord (.atgMaxu c g d a b) 4 4 false g d a b
/-- ATG_AND (R186). -/
def execAtgAnd (c : BitVec 1) (g : BitVec 3) (d : BitVec 6) (a : BitVec 6) (b : BitVec 6) (s : State) : Out :=
  s.atgWord (.atgAnd c g d a b) 5 4 false g d a b
/-- ATG_OR (R186). -/
def execAtgOr (c : BitVec 1) (g : BitVec 3) (d : BitVec 6) (a : BitVec 6) (b : BitVec 6) (s : State) : Out :=
  s.atgWord (.atgOr c g d a b) 6 4 false g d a b
/-- ATG_XOR (R186). -/
def execAtgXor (c : BitVec 1) (g : BitVec 3) (d : BitVec 6) (a : BitVec 6) (b : BitVec 6) (s : State) : Out :=
  s.atgWord (.atgXor c g d a b) 7 4 false g d a b
/-- ATG_XCHG (R186). -/
def execAtgXchg (c : BitVec 1) (g : BitVec 3) (d : BitVec 6) (a : BitVec 6) (b : BitVec 6) (s : State) : Out :=
  s.atgWord (.atgXchg c g d a b) 8 4 false g d a b
/-- ATG_CAS (R186). -/
def execAtgCas (c : BitVec 1) (g : BitVec 3) (d : BitVec 6) (a : BitVec 6) (b : BitVec 6) (s : State) : Out :=
  s.atgWord (.atgCas c g d a b) 9 4 true g d a b
/-- ATG_FADD (R186). -/
def execAtgFadd (c : BitVec 1) (g : BitVec 3) (d : BitVec 6) (a : BitVec 6) (b : BitVec 6) (s : State) : Out :=
  s.atgWord (.atgFadd c g d a b) 10 4 false g d a b
/-- ATG_FMIN (R186). -/
def execAtgFmin (c : BitVec 1) (g : BitVec 3) (d : BitVec 6) (a : BitVec 6) (b : BitVec 6) (s : State) : Out :=
  s.atgWord (.atgFmin c g d a b) 11 4 false g d a b
/-- ATG_FMAX (R186). -/
def execAtgFmax (c : BitVec 1) (g : BitVec 3) (d : BitVec 6) (a : BitVec 6) (b : BitVec 6) (s : State) : Out :=
  s.atgWord (.atgFmax c g d a b) 12 4 false g d a b
/-- ATG_HADD2 (R186). -/
def execAtgHadd2 (c : BitVec 1) (g : BitVec 3) (d : BitVec 6) (a : BitVec 6) (b : BitVec 6) (s : State) : Out :=
  s.atgWord (.atgHadd2 c g d a b) 13 4 false g d a b
/-- ATG_INCW (R186). -/
def execAtgIncw (c : BitVec 1) (g : BitVec 3) (d : BitVec 6) (a : BitVec 6) (b : BitVec 6) (s : State) : Out :=
  s.atgWord (.atgIncw c g d a b) 14 4 false g d a b
/-- ATG64_ADD (R186). -/
def execAtg64Add (c : BitVec 1) (g : BitVec 3) (d : BitVec 6) (a : BitVec 6) (b : BitVec 6) (s : State) : Out :=
  s.atgWord (.atg64Add c g d a b) 0 8 false g d a b
/-- ATG64_MINU (R186). -/
def execAtg64Minu (c : BitVec 1) (g : BitVec 3) (d : BitVec 6) (a : BitVec 6) (b : BitVec 6) (s : State) : Out :=
  s.atgWord (.atg64Minu c g d a b) 1 8 false g d a b
/-- ATG64_MAXU (R186). -/
def execAtg64Maxu (c : BitVec 1) (g : BitVec 3) (d : BitVec 6) (a : BitVec 6) (b : BitVec 6) (s : State) : Out :=
  s.atgWord (.atg64Maxu c g d a b) 2 8 false g d a b
/-- ATG64_AND (R186). -/
def execAtg64And (c : BitVec 1) (g : BitVec 3) (d : BitVec 6) (a : BitVec 6) (b : BitVec 6) (s : State) : Out :=
  s.atgWord (.atg64And c g d a b) 3 8 false g d a b
/-- ATG64_OR (R186). -/
def execAtg64Or (c : BitVec 1) (g : BitVec 3) (d : BitVec 6) (a : BitVec 6) (b : BitVec 6) (s : State) : Out :=
  s.atgWord (.atg64Or c g d a b) 4 8 false g d a b
/-- ATG64_XOR (R186). -/
def execAtg64Xor (c : BitVec 1) (g : BitVec 3) (d : BitVec 6) (a : BitVec 6) (b : BitVec 6) (s : State) : Out :=
  s.atgWord (.atg64Xor c g d a b) 5 8 false g d a b
/-- ATG64_XCHG (R186). -/
def execAtg64Xchg (c : BitVec 1) (g : BitVec 3) (d : BitVec 6) (a : BitVec 6) (b : BitVec 6) (s : State) : Out :=
  s.atgWord (.atg64Xchg c g d a b) 6 8 false g d a b
/-- ATG64_CAS (R186). -/
def execAtg64Cas (c : BitVec 1) (g : BitVec 3) (d : BitVec 6) (a : BitVec 6) (b : BitVec 6) (s : State) : Out :=
  s.atgWord (.atg64Cas c g d a b) 7 8 true g d a b
/-- ATS_ADD (R186). -/
def execAtsAdd (c : BitVec 1) (g : BitVec 3) (d : BitVec 6) (a : BitVec 6) (b : BitVec 6) (s : State) : Out :=
  s.atsWord (.atsAdd c g d a b) 0 g d a b
/-- ATS_MIN (R186). -/
def execAtsMin (c : BitVec 1) (g : BitVec 3) (d : BitVec 6) (a : BitVec 6) (b : BitVec 6) (s : State) : Out :=
  s.atsWord (.atsMin c g d a b) 1 g d a b
/-- ATS_MAX (R186). -/
def execAtsMax (c : BitVec 1) (g : BitVec 3) (d : BitVec 6) (a : BitVec 6) (b : BitVec 6) (s : State) : Out :=
  s.atsWord (.atsMax c g d a b) 2 g d a b
/-- ATS_MINU (R186). -/
def execAtsMinu (c : BitVec 1) (g : BitVec 3) (d : BitVec 6) (a : BitVec 6) (b : BitVec 6) (s : State) : Out :=
  s.atsWord (.atsMinu c g d a b) 3 g d a b
/-- ATS_MAXU (R186). -/
def execAtsMaxu (c : BitVec 1) (g : BitVec 3) (d : BitVec 6) (a : BitVec 6) (b : BitVec 6) (s : State) : Out :=
  s.atsWord (.atsMaxu c g d a b) 4 g d a b
/-- ATS_AND (R186). -/
def execAtsAnd (c : BitVec 1) (g : BitVec 3) (d : BitVec 6) (a : BitVec 6) (b : BitVec 6) (s : State) : Out :=
  s.atsWord (.atsAnd c g d a b) 5 g d a b
/-- ATS_OR (R186). -/
def execAtsOr (c : BitVec 1) (g : BitVec 3) (d : BitVec 6) (a : BitVec 6) (b : BitVec 6) (s : State) : Out :=
  s.atsWord (.atsOr c g d a b) 6 g d a b
/-- ATS_XOR (R186). -/
def execAtsXor (c : BitVec 1) (g : BitVec 3) (d : BitVec 6) (a : BitVec 6) (b : BitVec 6) (s : State) : Out :=
  s.atsWord (.atsXor c g d a b) 7 g d a b
/-- ATS_XCHG (R186). -/
def execAtsXchg (c : BitVec 1) (g : BitVec 3) (d : BitVec 6) (a : BitVec 6) (b : BitVec 6) (s : State) : Out :=
  s.atsWord (.atsXchg c g d a b) 8 g d a b
/-- ATS_CAS (R186). -/
def execAtsCas (c : BitVec 1) (g : BitVec 3) (d : BitVec 6) (a : BitVec 6) (b : BitVec 6) (s : State) : Out :=
  s.atsWord (.atsCas c g d a b) 9 g d a b
/-- ATS_FADD (R186). -/
def execAtsFadd (c : BitVec 1) (g : BitVec 3) (d : BitVec 6) (a : BitVec 6) (b : BitVec 6) (s : State) : Out :=
  s.atsWord (.atsFadd c g d a b) 10 g d a b
/-- ATS_FMIN (R186). -/
def execAtsFmin (c : BitVec 1) (g : BitVec 3) (d : BitVec 6) (a : BitVec 6) (b : BitVec 6) (s : State) : Out :=
  s.atsWord (.atsFmin c g d a b) 11 g d a b
/-- ATS_FMAX (R186). -/
def execAtsFmax (c : BitVec 1) (g : BitVec 3) (d : BitVec 6) (a : BitVec 6) (b : BitVec 6) (s : State) : Out :=
  s.atsWord (.atsFmax c g d a b) 12 g d a b

/-! ### ATOMIC_REPLY (R188) -/

/-- ATOMIC_REPLY: the old value returns to its strand, or a posted atomic is acknowledged. -/
def execAtomicReply (req : Nat) (ans : RemoteAns) (s : State) : Out :=
  match s.req? req with
  | none => .next s
  | some r =>
    match r.kind, (if s.replyDue req r && s.farDue req r ans then s.answerOf r ans else none) with
    | .atomic, some a =>
      let remote := match r.stage with
        | .remote _ => true
        | _ => false
      if r.reg = 63 then
        (if a.code = 0 then .next (s.endReq req)
        else if a.code = 0x100 then .next (s.denyPosted req)
        else .next (s.holdReq req r a))
      else if a.code = 0x100 ∨ (a.code = 0 ∧ ¬ bit r.rdRights a.key) then .next (s.denyLoad req r)
      else if a.code ≠ 0 then .next (s.nackLoad req r a)
      else
        let old := if remote then ofBytes (ans.data.take r.size) else r.result
        let s1 := if remote then s.dropL1 r.group r.domain r.va else s.noteLoad r.core r.domain r.va r.size a.hi
        let s2 := (s1.endReq req).modStrand r.skein r.strand (fun t =>
          { (t.putWords r.reg (loadWords r.sz (bytesOf r.size old))).advance with hold := none })
        .next ((s2.markWrote r.core r.seq).loadEnd r.skein r.strand r.core r.seq r.reg r.sz)
    | _, _ => .next s

end Sys2Proof.Machine
end

