-- ==== Sys2Proof/Machine/Reply.lean ====
section
/-! DEFINITION. Machine/Reply.lean: when a home may judge a request, and its answers (R154, R295 to R297). -/

namespace Sys2Proof.Machine

/-- Whether a request still has to be performed at its home. -/
def Req.pendingAtHome (r : Req) : Bool := match r.stage with
  | .outbound => true
  | .atHome => true
  | .walking => true
  | _ => false

/-- Whether a watch is on its way to its home, or waits to be judged there. -/
def Watch.pendingAtHome (w : Watch) : Bool := decide (w.stage ≤ 1)

/-- Requests of one core to one line, watches among them, are performed in issue order (R154). -/
def State.inOrder (s : State) (id : Nat) (r : Req) : Bool :=
  (Tab.list s.reqs).all (fun e => !(decide (e.1 < id) && e.2.onLine r.core r.domain r.va && e.2.pendingAtHome)) &&
  (Tab.list (s.core r.core).watches).all (fun e => !(decide (e.2.seq < r.seq) && e.2.va / 256 == r.va / 256 &&
    e.2.domain == r.domain && e.2.pendingAtHome))

/-- A request is performed or refused: its reply waits for the reply channel (R348). -/
def State.replyWith (s : State) (id code result key : Nat) : State :=
  match s.req? id with
  | none => s
  | some r =>
    (s.modReq id (fun x => { x with stage := .replied code s.seq, result := result, key := key, stamp := s.nextId })).sendToCore r.core
      (s.homeFor r.domain r.va) r.va (.reply id)

/-- The flags of a request's fault record: write, atomic, from another module (R297). -/
def Req.faultFlags (r : Req) : Nat :=
  (match r.kind with
    | .store => 1
    | .rst => 1
    | .spill => 1
    | .atomic => 9
    | _ => 0) + (if r.core < 768 then 0 else 16)

/-- A home sends a NACK: with its fault record, which must find room, where the code has one (R296). -/
def State.refuseReq (s : State) (id code : Nat) : State :=
  match s.req? id with
  | none => s
  | some r =>
    if fatalCode code then s.replyWith id code 0 0
    else match s.openFault { ctx := r.ctx, domain := r.domain, va := r.va, code := code, flags := r.faultFlags,
                             core := namedCore r.core, tag := 0, skein := 0 } with
      | some f => f.2.replyWith id code f.1 0
      | none => s

end Sys2Proof.Machine
end

