-- ==== Sys2Proof/Machine/Shadow.lean ====
section
/-! DEFINITION. Machine/Shadow.lean: shadows, their writes, the two-phase publish, SHD and RST (R166, R226 to R234). -/

namespace Sys2Proof.Machine

/-! ### Slots, handles and destinations (R226, R228, R229) -/

/-- The shadow of a slot: of a context of this module, or of another module's context by the number that stands for it. -/
def State.shadow? (s : State) (ctx slot : Nat) : Option Shadow :=
  if ctx < 64 then (s.ctx? ctx).bind (fun c => Tab.get c.shadows slot)
  else (Tab.get s.net.peers (ctx * 64 + slot)).map PeerShadow.shadow
def State.setShadow (s : State) (ctx slot : Nat) (sh : Option Shadow) : State :=
  s.modCtx ctx (fun c => { c with shadows := Tab.set c.shadows slot sh })
def State.modShadow (s : State) (ctx slot : Nat) (f : Shadow → Shadow) : State :=
  if ctx < 64 then s.modCtx ctx (fun c => { c with shadows := Tab.upd c.shadows slot f })
  else { s with net := { s.net with peers := Tab.upd s.net.peers (ctx * 64 + slot) (fun p => { p with shadow := f p.shadow }) } }
/-- The domain of a shadow, and the W rights of the context that opened it (R233). -/
def State.shDomain (s : State) (ctx slot : Nat) : Nat :=
  if ctx < 64 then s.domainOf ctx else (Tab.get s.net.peers (ctx * 64 + slot)).elim 0 PeerShadow.domain
def State.shRights (s : State) (ctx slot : Nat) : Nat :=
  if ctx < 64 then s.rightsVec 768 ctx 1 else (Tab.get s.net.peers (ctx * 64 + slot)).elim 0 PeerShadow.rights

/-- The handle of a slot. -/
def Shadow.handle (sh : Shadow) (slot : Nat) : Nat := sh.seq % 65536 * 64 + slot
/-- The slot of a handle that is not stale. -/
def State.slotOf (s : State) (ctx handle : Nat) : Option (Nat × Shadow) :=
  match s.shadow? ctx (handle % 64) with
  | some sh =>
    if handle < 2 ^ 22 ∧ sh.state ≠ .free ∧ sh.state ≠ .opening ∧ sh.handle (handle % 64) = handle then some (handle % 64, sh)
    else none
  | none => none

/-- STATE of the status word. -/
def ShState.code : ShState → Nat
  | .sopen => 1
  | .preparing => 2
  | .committed => 3
  | .failed => 4
  | _ => 0
/-- The status word (R228): REASON is zero unless the shadow is FAILED. -/
def Shadow.status (sh : Shadow) : Nat :=
  sh.state.code * 2 ^ 28 + (if sh.state = .failed then sh.reason else 0) * 2 ^ 24 + sh.arrived % 65536

/-- The base VAs of the destinations: the primary, then the replicas. -/
def Shadow.dests (sh : Shadow) : List Nat := sh.base :: sh.replicas
/-- Number of granules. -/
def Shadow.grans (sh : Shadow) : Nat := sh.size / 16384
/-- Every granule: destination and VA. -/
def Shadow.pages (sh : Shadow) : List (Nat × Nat) :=
  sh.dests.zipIdx.flatMap (fun d => (List.range sh.grans).map (fun k => (d.2, d.1 + 16384 * k)))
/-- The key of a destination's granule. -/
def shKey (dest va : Nat) : Nat := dest * 2 ^ 43 + va / 16384
/-- The home of a page of a destination; 128 stands for other modules. -/
def State.shHome (s : State) (dom va : Nat) : Nat := if s.isLocal va then s.homeFor dom va else 128
/-- The homes that hold granules of a shadow. -/
def State.shHomes (s : State) (dom : Nat) (sh : Shadow) : List Nat :=
  (List.range 129).filter (fun h => sh.pages.any (fun p => s.shHome dom p.2 == h))

/-- The slot of an OPEN shadow of a context whose primary range holds some bytes. -/
def State.openShadow (s : State) (ctx va n : Nat) : Option (Nat × Shadow) :=
  match s.ctx? ctx with
  | none => none
  | some c => (Tab.list c.shadows).find? (fun e =>
      e.2.state == .sopen && decide (e.2.base ≤ va ∧ va + n ≤ e.2.base + e.2.size))

/-! ### Shadow granules (R230) -/

/-- The page of a VA: its attributes and stage-2 entry. -/
def State.page (s : State) (dom va : Nat) : Option (Attr × Stage2) :=
  let tdom := transDomain s.homes dom va
  match homeAttr s.homes tdom va with
  | .error _ => none
  | .ok a => (Tab.get s.homes.stage2 (s2Key tdom a.dfn)).map (fun s2 => (a, s2))

/-- Fill a physical frame, which holds no poison afterwards. -/
def Homes.fillFrame (h : Homes) (frame : Nat) (bs : List Byte) : Homes :=
  let lo := frame * 16384
  { h with
    mem := writeBytes h.mem lo bs
    poisonLines := h.poisonLines.filter (fun e => decide (e.1 < lo / 256 ∨ lo / 256 + 64 ≤ e.1))
    rewritten := h.rewritten.filter (fun e => decide (e.1 < lo ∨ lo + 16384 ≤ e.1)) }

/-- The content a shadow granule starts with, and its poisoned lines; a page that is not mapped has no content that the spec
states (log 25). -/
def State.firstContent (s : State) (dom va : Nat) (zero : Bool) : List Byte × List Nat × State :=
  if zero then (List.replicate 16384 0, [], s)
  else match s.page dom va with
    | some (_, s2) => (getBytes s.homes s2 (va / 16384 * 16384) 16384,
        (List.range 64).filter (fun j => linePoisoned s.homes s2 (va / 16384 * 16384 + 256 * j)), s)
    | none => ((List.range 16384).map (fun j => Config.freeByte (s.free + j)), [], { s with free := s.free + 16384 })

/-- Lines of a frame are poisoned. -/
def Homes.poisonFrame (h : Homes) (frame : Nat) (js : List Nat) : Homes :=
  { h with poisonLines := js.foldl (fun m j => Cells.set false m (frame * 64 + j) true) h.poisonLines }

/-- Whether a shadow granule is poisoned: some line of its frame is (R233, R369). -/
def ShGranule.poisoned (g : ShGranule) (h : Homes) : Bool :=
  (List.range 64).any (fun j => Cells.get false h.poisonLines (g.frame * 64 + j))

/-- Write bytes of a shadow granule's frame. A write that replaces them, which a sum or a maximum does not, rewrites poisoned
bytes (R369; log 63). -/
def Homes.writeShadow (h : Homes) (frame va : Nat) (bs : List Byte) (whole : Bool) : Homes :=
  let p := physAddr frame va
  let h1 := { h with mem := writeBytes h.mem p bs }
  if whole ∧ Cells.get false h.poisonLines (p / 256) then
    clearPoison { h1 with rewritten := (List.range bs.length).foldl (fun m j => Cells.set false m (p + j) true) h1.rewritten }
      { frame := frame, tier := 0, cmp := false, poison := false, w := true } va
  else h1

/-- Make sure that a destination's granule has its shadow granule; `none` with no frame free. -/
def State.shGranule (s : State) (ctx dom slot dest va : Nat) : Option State :=
  match s.shadow? ctx slot with
  | none => none
  | some sh =>
    if ¬ s.isLocal va ∨ (Tab.get sh.granules (shKey dest va)).isSome then some s
    else
      let home := s.homeFor dom va
      match Cells.get [] s.homes.shadowFrames home with
      | [] => none
      | f :: rest =>
        let c := s.firstContent dom va sh.zero
        some ((c.2.2.modHomes (fun h =>
            (({ h with shadowFrames := Cells.set [] h.shadowFrames home rest }).fillFrame f c.1).poisonFrame f c.2.1)).modShadow
          ctx slot (fun x => { x with granules := Tab.set x.granules (shKey dest va) (some { frame := f }) }))

/-- The addresses of a primary VA in every destination: destination and VA. -/
def Shadow.images (sh : Shadow) (va : Nat) : List (Nat × Nat) :=
  sh.dests.zipIdx.map (fun d => (d.2, d.1 + (va - sh.base)))

/-- Whether the home of a destination's VA still takes shadow writes: no publish's prepare has reached it (R231). -/
def State.takesShadow (s : State) (dom : Nat) (sh : Shadow) (va : Nat) : Bool :=
  sh.state == .sopen || (sh.state == .preparing && sh.openWait.contains (s.shHome dom va))

/-- The step of an RST on a shadow word: 0 RADD.f32, 1 RADD.bf16x2, 2 RADD.i32, 3 RMAX.f32, 4 MST. -/
def rstOp (lvl2 : Bool) (fn : Nat) (m b : Word) : Word × FpFlags :=
  let c : FpCtx := { rm := 0, ftz := false, lvl2 := lvl2 }
  let out (o : FpOut) : Word × FpFlags := (BitVec.ofNat 32 o.bits, o.flags)
  match fn with
  | 0 => out (Fmt.fp32.add c (fpv m) (fpv b))
  | 1 => out (halfOp true 0 c m b 0)
  | 2 => (m + b, 0)
  | 3 => out (Fmt.fp32.minMax c true m.toNat b.toNat)
  | _ => (b, 0)

/-- The step of a shadow write on the bytes that are there; whether it replaces them. -/
def ShadowWrite.step (w : ShadowWrite) (bs : List Byte) : List Byte × FpFlags := match w with
  | .rst lvl2 fn opnd =>
    let o := rstOp lvl2 fn (BitVec.ofNat 32 (ofBytes bs)) opnd
    (bytesOf 4 o.1.toNat, o.2)
  | .bytes data => (data, 0)
def ShadowWrite.whole : ShadowWrite → Bool
  | .rst _ fn _ => fn == 4
  | .bytes _ => true

/-- The other modules that hold granules of a shadow. -/
def State.shModules (s : State) (sh : Shadow) : List Nat := ((sh.dests.map moduleOf).filter (· != s.modNo)).dedup
/-- The coordinating home tells them what becomes of a shadow of this module (R233, R362). -/
def State.tellPeers (s : State) (ctx : Nat) (sh : Shadow) (m : Nat → FabricMsg) : State :=
  if 64 ≤ ctx then s
  else (s.shModules sh).foldl (fun t x => t.tellFor ((s.ctx? ctx).map Context.partition) (m x)) s
/-- The home of a shadow's primary forwards a write to the replicas of other modules (R230, R362). -/
def State.forward (s : State) (ctx slot va : Nat) (sh : Shadow) (w : ShadowWrite) : State :=
  if 64 ≤ ctx ∨ ¬ s.isLocal va then s
  else ((sh.replicas.map moduleOf).filter (· != s.modNo)).dedup.foldl (fun t m =>
    t.tellFor ((s.ctx? ctx).map Context.partition) (.forward m ctx slot va w)) s

/-- A shadow write at a primary VA: every destination of this module whose home takes it applies the step to its own bytes, and
those of other modules are forwarded it. The flags are those of the first. `none` with no frame free. -/
def State.shadowStep (s : State) (ctx dom slot va n : Nat) (w : ShadowWrite) : Option (State × FpFlags) :=
  match s.shadow? ctx slot with
  | none => none
  | some sh =>
    let images := (sh.images va).filter (fun d => s.takesShadow dom sh d.2)
    let ready := images.foldl (fun (t : Option State) d => t.bind (fun u => u.shGranule ctx dom slot d.1 d.2)) (some s)
    (ready.map (fun t => t.forward ctx slot va sh w)).map (fun t =>
      images.foldr (fun d (acc : State × FpFlags) =>
        match (acc.1.shadow? ctx slot).bind (fun x => Tab.get x.granules (shKey d.1 d.2)) with
        | none => acc
        | some g =>
          let p := physAddr g.frame d.2
          let r := w.step (readBytes acc.1.homes.mem p n)
          (acc.1.modHomes (fun h => h.writeShadow g.frame d.2 r.1 w.whole), r.2)) (t, 0))

/-- The line of a primary VA is poisoned in every destination's shadow granule that takes writes (R368). -/
def State.poisonShadow (s : State) (ctx dom slot va : Nat) : State :=
  match s.shadow? ctx slot with
  | none => s
  | some sh => ((sh.images va).filter (fun d => s.takesShadow dom sh d.2)).foldl (fun t d =>
      (Tab.get sh.granules (shKey d.1 d.2)).elim t (fun g => t.modHomes (fun h => h.poisonLine (physAddr g.frame d.2)))) s

/-- Its shadow granules return to their homes' shadow frames, those of other modules too (R230). -/
def State.discard (s : State) (ctx dom slot : Nat) : State :=
  match s.shadow? ctx slot with
  | none => s
  | some sh =>
    let s1 := sh.pages.foldl (fun t p =>
      match Tab.get sh.granules (shKey p.1 p.2) with
      | none => t
      | some g =>
        let home := t.homeFor dom p.2
        t.modHomes (fun h => { h with
          shadowFrames := Cells.set [] h.shadowFrames home (Cells.get [] h.shadowFrames home ++ [g.frame]) })) s
    (s1.modShadow ctx slot (fun x => { x with granules := [] })).tellPeers ctx sh (.abort · ctx slot)

/-- The refusal entries of a shadow block: of each destination, its first refusing page (R229). -/
def refusalEntries (vs : List (Nat × Nat × Nat × Nat)) : List Byte :=
  (List.range 9).flatMap (fun d =>
    match vs.filter (fun (v : Nat × Nat × Nat × Nat) => v.1 == d) with
    | [] => List.replicate 8 0
    | v :: rest =>
      let m : Nat × Nat × Nat × Nat := rest.foldl (fun (b x : Nat × Nat × Nat × Nat) => if x.2.1 < b.2.1 then x else b) v
      bytesOf 8 (m.2.1 + m.2.2.1 * 2 ^ 57))

/-- Write the status word, and before it the refusal entries where `refusals`, to the shadow block (R229, R233): at once, or
when the block's granule is no longer held (R300). -/
def State.writeBlock (s : State) (ctx : Nat) (sh : Shadow) (status : Nat) (refusals : Option (List (Nat × Nat × Nat × Nat))) : State :=
  if s.ctx? ctx = none ∨ ¬ s.isLocal sh.block then s
  else s.owe ctx sh.block ((refusals.elim [] (fun vs => linePieces (sh.block + 64) (refusalEntries vs))) ++
    linePieces (sh.block + 136) (bytesOf 4 status ++ List.replicate 4 0))

/-- Whether the granule of a shadow's block is held at its home (R300). -/
def State.blockHeld (s : State) (ctx : Nat) (sh : Shadow) : Bool :=
  s.isLocal sh.block && [sh.block + 64, sh.block + 143].any (fun va =>
    match judge s.homes (s.domainOf ctx) (s.genOf ctx) va .write (s.rightsVec 768 ctx 1) true with
    | .hold => true
    | _ => false)

/-! ### SHOPEN (R229) -/

/-- The weft goes on after a shadow operation. -/
def State.endShd (s : State) (id : Nat) (o : ShdOp) : State :=
  ({ s with shdops := Tab.set s.shdops id none }).modWeft o.skein o.weft (fun w => { w with shadowWait := none })

/-- Start a shadow operation of the weft: it waits for the homes. The guard-false strands of its issue set are past it. -/
def State.startShd (s : State) (sk : Skein) (kind slot : Nat) (act : List Nat) (d : Nat) (vals : List (Nat × Nat)) (homes : List Nat)
    (va : Nat) (g : BitVec 3) : State :=
  let c := sk.core.getD 0
  let o : ShdOp := {
    kind := kind, core := c, skein := s.cur.skein, weft := s.cur.weft, strands := act, reg := d, ctx := sk.ctx,
    domain := s.domainOf sk.ctx, gen := s.genOf sk.ctx, slot := slot, vals := vals, arrived := [], stage := 0, answer := 0 }
  let id := s.nextId
  let s1 := (({ s with shdops := Tab.set s.shdops id (some o) }).fresh).modWeft s.cur.skein s.cur.weft (fun w =>
    { w with shadowWait := some id })
  let s2 := s1.modStrands s.cur.skein (s.cur.strands.filter (fun i => !(s.acting g).contains i)) (fun _ t => t.advance)
  homes.foldl (fun t h => if h = 128 then (t.fabricBytes sk.ctx 64).sendFar (clusterOf c) va (.shd id)
    else t.enqueue (2 * h + hash6 va % 2) (clusterOf c) 1 (.shd id)) s2

/-- What SHOPEN's core-side checks meet. -/
inductive OpenCheck where
  | fail (code : Nat) (s : State)
  | stop (f : Fetched)
  | hold
  | ok (slot : Nat) (sh : Shadow) (s : State)
  deriving DecidableEq, Repr

/-- The descriptor's fields (R229). -/
def shDesc (v : List Word) : Shadow × Nat :=
  let w (j : Nat) : Nat := (nth 0 v j).toNat
  ({ Shadow.free with state := .opening, base := w 0 + w 1 * 2 ^ 32, size := w 2, count := w 3, zero := w 4 == 1,
                      block := w 5 + w 6 * 2 ^ 32 }, w 7)

/-- The limits of the descriptor, and its slot: codes 1 to 3 in order. -/
def State.checkOpen (s : State) (sk : Skein) (v : List Word) : OpenCheck :=
  match s.ctx? sk.ctx with
  | none => .fail 1 s
  | some c =>
    let d := shDesc v
    let sh := d.1
    match (List.range 64).find? (fun n => match Tab.get c.shadows n with
        | some x => x.state == .free
        | none => true) with
    | none => .fail 1 s
    | some slot =>
      let rangeOk (base : Nat) : Bool := decide (base % 16384 = 0 ∧ base + sh.size ≤ 2 ^ 57) && moduleOf base == moduleOf (base + sh.size - 1)
      if ¬ (sh.base % 16384 = 0 ∧ 16384 ≤ sh.size ∧ sh.size % 16384 = 0 ∧ sh.size ≤ 1073741824 ∧ 1 ≤ sh.count ∧ sh.count ≤ 65535 ∧
          (nth 0 v 4).toNat ≤ 1 ∧ d.2 ≤ 8 ∧ rangeOk sh.base) then .fail 2 s
      else if sh.block % 16 ≠ 0 ∨ 2 ^ 57 < sh.block + 144 ∨ moduleOf sh.block ≠ moduleOf (sh.block + 143) then .fail 3 s
      else match s.strandRead sk sh.block 9 with
        | .deny _ s1 => .fail 3 s1
        | .hold => .hold
        | .nack code va away s1 => .stop (.nack code va away s1)
        | .ok bytes s1 =>
          let core := sk.core.getD 0
          let wr (va : Nat) : Nat × Verdict := (va, judge s1.homes c.domain c.gen va .write (s1.rightsVec core sk.ctx 1) true)
          let bad := if s1.isLocal sh.block then [wr sh.block, wr (sh.block + 143)] else []
          match bad.find? (fun x => match x.2 with
              | .page _ _ => false
              | _ => true) with
          | some (_, .deny) => .fail 3 s1
          | some (va, .nack code) => .stop (.nack code va none s1)
          | some _ => .hold
          | none =>
            let reps := (List.range d.2).map (fun k => fieldAt bytes (8 * k) 8)
            if ¬ reps.all rangeOk then .fail 4 s1
            else if (Tab.list c.shadows).any (fun e => e.2.state != .free &&
                decide (sh.base < e.2.base + e.2.size ∧ e.2.base < sh.base + sh.size)) then .fail 5 s1
            else
              let seq := match Tab.get c.shadows slot with
                | some x => x.seq
                | none => 0
              .ok slot { sh with replicas := reps, seq := seq } s1

/-- The words of a descriptor in the lowest strand that acts. -/
def State.descWords (s : State) (act : List Nat) (a : VReg) : List Word :=
  (oct a).map (fun r => (s.uniform? s.cur.skein act r).getD 0)

/-- SHOPEN (R229). DESIGN CHOICE (log 59): a descriptor that is not uniform traps every strand of the issue set, as R215 says,
those whose guard is false among them. -/
def execShopen (c : BitVec 1) (g : BitVec 3) (d : BitVec 6) (a : BitVec 6) (s : State) : Out :=
  s.word (.shopen c g d a) (fun sk u =>
    let k := u.cur.skein
    let act := u.acting g
    if act = [] then (true, u.passBy)
    else match u.nonUniform k act (oct a) with
    | some r => (true, u.trapAll u.cur.strands 0x08 (BitVec.ofNat 32 r))
    | none =>
      match u.checkOpen sk (u.descWords act a) with
      | .fail code u1 =>
        (true, (u1.passBy.modStrands k act (fun _ t => t.wv d.toNat (BitVec.ofNat 32 (0x80000000 + code)))).noteWrites k u.cur.weft
          (if d = 63 then [] else [d.toNat]))
      | .hold => (false, u)
      | .stop f =>
        let v := (f.state u).eachStrand act (fun t i _ => t.launchStop sk i f)
        (true, if v.anyNacked k act then v.count k 5 1 else v)
      | .ok slot sh u1 =>
        let homes := u1.shHomes (u1.domainOf sk.ctx) sh
        (true, (u1.setShadow sk.ctx slot (some { sh with openWait := homes })).startShd sk 0 slot act d.toNat [] homes sh.base g))

/-- Whether an operation's requests carry a generation that its domain has left (R12, R290). -/
def State.shdStale (s : State) (o : ShdOp) : Bool :=
  s.domainOf o.ctx != o.domain || Cells.get 0 s.homes.gens o.domain != o.gen

/-- An operation is answered at its coordinating home. -/
def State.answerShd (s : State) (op : Nat) (o : ShdOp) (home va : Nat) : State :=
  ({ (if home = 128 then s.fabricBytes o.ctx 64 else s) with
    shdops := Tab.set s.shdops op (some { o with stage := 1 }) }).sendToCore o.core (if home = 128 then 129 else home) va
    (.shdReply op)

/-- SHADOW_OPEN_REQUEST (R229): a home records the base generations of its granules; with the last one the reply goes. -/
def execShadowOpenRequest (op home : Nat) (s : State) : Out :=
  match Tab.get s.shdops op with
  | none => .next s
  | some o =>
    match s.shadow? o.ctx o.slot with
    | none => .next s
    | some sh =>
      if o.kind ≠ 0 ∨ ¬ o.arrived.contains home ∨ ¬ sh.openWait.contains home then .next s
      else
        let dom := s.domainOf o.ctx
        let mine := sh.pages.filter (fun p => s.shHome dom p.2 == home)
        let owns := if home = 128 then s.freeBool else
          (mine.all (fun p => (ownerOf s.homes dom p.2).isSome), s)
        let base (m : Cells (Option Nat)) (p : Nat × Nat) : Cells (Option Nat) :=
          Cells.set none m (shKey p.1 p.2) (some (Cells.get 0 s.homes.pubGen (granKey (transDomain s.homes dom p.2) p.2)))
        let s1 := (if home = 128 then owns.2.fabricBytes o.ctx 64 else owns.2).modShadow o.ctx o.slot (fun x => { x with
          bases := mine.foldl base x.bases, openWait := x.openWait.filter (fun h => h != home) })
        let o1 : ShdOp := { o with answer := if s.shdStale o then 0x106 else if owns.1 ∨ o.answer = 0x106 then o.answer else 6 }
        let last := sh.openWait.length == 1
        let s2 := { s1 with shdops := Tab.set s1.shdops op (some (if last then { o1 with stage := 1 } else o1)) }
        .next (if last then s2.sendToCore o.core (if home = 128 then 129 else home) sh.base (.shdReply op) else s2)

/-! ### SHPUB, SHABORT and SHSTAT (R227, R233, R234) -/

/-- The handle that a weft's shadow operation names: that of its lowest strand that acts. -/
def State.handleOf (s : State) (act : List Nat) (a : VReg) : Nat :=
  match act with
  | [] => 0
  | i :: _ => match s.strand? s.cur.skein i with
    | some t => (t.rv a.toNat).toNat
    | none => 0

/-- The strands that act trap SHADOW_BAD; the others go on. -/
def State.shadowTrap (s : State) (act : List Nat) (val : Nat) : State :=
  s.eachStrand act (fun t i _ => (t, some { strand := i, cause := 0x38, val := BitVec.ofNat 32 val }))

/-- SHPUB waits for the RSTs of its weft (R233), and reports or parks on what is held or denied of its posted requests
(R183). -/
def shpubNeed (k : Nat) (ms : List Nat) (r : Req) : Bool :=
  r.skein == k && ms.contains r.strand &&
    (r.kind == .rst || (r.stopped && decide (r.kind = .store ∨ (r.kind = .atomic ∧ r.reg = 63))))

/-- SHPUB (R233): it waits for the weft's RSTs, then sends its arrival. -/
def execShpub (c : BitVec 1) (g : BitVec 3) (a : BitVec 6) (s : State) : Out :=
  s.word (.shpub c g a) (fun sk u =>
    let act := u.acting g
    let h := u.handleOf act a
    if act = [] then (true, u.passBy)
    else issuedDirty u.cur.skein (match u.slotOf sk.ctx h with
    | none => (true, u.shadowTrap act h)
    | some e =>
      if e.2.state ≠ .sopen then (true, u.shadowTrap act h)
      else
        u.waiting act (shpubNeed u.cur.skein (sk.members u.cur.weft)) (fun v =>
          let acts := v.cur.strands.filter (fun i => act.contains i)
          if acts = [] then (true, v.passBy)
          else (true, v.startShd sk 1 e.1 acts 63 [(0, h)] [v.shHome (v.domainOf sk.ctx) e.2.base] e.2.base g))))

/-- SHABORT (R227, R234). -/
def execShabort (c : BitVec 1) (g : BitVec 3) (a : BitVec 6) (s : State) : Out :=
  s.word (.shabort c g a) (fun sk u =>
    let act := u.acting g
    let h := u.handleOf act a
    if act = [] then (true, u.passBy)
    else match u.slotOf sk.ctx h with
    | none => (true, u.shadowTrap act h)
    | some e => (true, u.startShd sk 2 e.1 act 63 [(0, h)] [u.shHome (u.domainOf sk.ctx) e.2.base] e.2.base g))

/-- SHSTAT (R234): each strand's own handle; those that are stale trap, the others wait for their words. -/
def execShstat (c : BitVec 1) (g : BitVec 3) (d : BitVec 6) (a : BitVec 6) (s : State) : Out :=
  s.word (.shstat c g d a) (fun sk u =>
    let act := u.acting g
    let k := u.cur.skein
    let hs := act.filterMap (fun i => (u.strand? k i).map (fun t => (i, (t.rv a.toNat).toNat)))
    let good := hs.filter (fun e => (u.slotOf sk.ctx e.2).isSome)
    let bad := hs.filter (fun e => (u.slotOf sk.ctx e.2).isNone)
    if act = [] then (true, u.passBy)
    else
      let u1 := match good with
        | [] => u.modStrands k (u.cur.strands.filter (fun i => !act.contains i)) (fun _ t => t.advance)
        | e :: _ =>
          let sh := match u.slotOf sk.ctx e.2 with
            | some x => x.2
            | none => Shadow.free
          u.startShd sk 3 0 (good.map Prod.fst) d.toNat good [u.shHome (u.domainOf sk.ctx) sh.base] sh.base g
      (true, if bad = [] then u1
        else u1.trapHere (bad.map (fun e => { strand := e.1, cause := 0x38, val := BitVec.ofNat 32 e.2 }))))

/-- SHPUB_ARRIVAL (R227, R233): the arrival is counted; the last one starts the publish. -/
def execShpubArrival (op : Nat) (s : State) : Out :=
  match Tab.get s.shdops op with
  | none => .next s
  | some o =>
    if o.kind ≠ 1 ∨ o.stage ≠ 0 ∨ o.arrived = [] then .next s
    else if s.shdStale o then .next (s.answerShd op { o with answer := 0x106 } (o.arrived.headD 0) 0)
    else
      let h := match o.vals with
        | e :: _ => e.2
        | [] => 0
      match s.slotOf o.ctx h with
      | none => .next (s.answerShd op { o with answer := 1 } (o.arrived.headD 0) 0)
      | some e =>
        if e.2.state ≠ .sopen then .next (s.answerShd op { o with answer := 1 } (o.arrived.headD 0) e.2.base)
        else
          let n := e.2.arrived + 1
          let s1 := s.modShadow o.ctx e.1 (fun x => { x with arrived := n })
          let s2 := if n = e.2.count then
              (s1.modShadow o.ctx e.1 (fun x => { x with
                state := .preparing, started := s.clock, votes := [], openWait := s.shHomes (s.domainOf o.ctx) e.2 })).tellPeers
                o.ctx e.2 (.prepare · o.ctx e.1)
            else s1
          .next (s2.answerShd op o (o.arrived.headD 0) e.2.base)

/-- Release a slot: FREE, its opens still counted. -/
def State.freeSlotSh (s : State) (ctx slot : Nat) : State :=
  s.modShadow ctx slot (fun x => { Shadow.free with seq := x.seq })

/-- SHABORT at the coordinating home (R227). -/
def State.abortAt (s : State) (op : Nat) (o : ShdOp) : State :=
  let h := match o.vals with
    | e :: _ => e.2
    | [] => 0
  match s.slotOf o.ctx h with
  | none => s.answerShd op { o with answer := 1 } (o.arrived.headD 0) 0
  | some e =>
    let dom := s.domainOf o.ctx
    match e.2.state with
    | .preparing => s.modShadow o.ctx e.1 (fun x => { x with abortWait := true })
    | .sopen => if s.blockHeld o.ctx e.2 then s else
      let s1 := (s.discard o.ctx dom e.1).writeBlock o.ctx e.2 (5 * 2 ^ 28 + e.2.arrived % 65536) none
      (s1.freeSlotSh o.ctx e.1).answerShd op o (o.arrived.headD 0) e.2.base
    | _ => (s.freeSlotSh o.ctx e.1).answerShd op o (o.arrived.headD 0) e.2.base

/-- Whether a SHABORT has been taken and waits for a publish's outcome. -/
def State.abortsWait (s : State) (o : ShdOp) : Bool := match o.vals with
  | e :: _ => (s.slotOf o.ctx e.2).elim false (fun x => x.2.abortWait)
  | [] => false

/-- A home serves a SHABORT or SHSTAT that has reached it (R234). -/
def State.serveShd (s : State) (op : Nat) : State :=
  match Tab.get s.shdops op with
  | none => s
  | some o =>
    if o.stage ≠ 0 ∨ o.arrived = [] then s
    else if o.kind ≠ 0 ∧ o.kind ≠ 1 ∧ s.shdStale o ∧ ¬ (o.kind = 2 ∧ s.abortsWait o) then
      s.answerShd op { o with answer := 0x106 } (o.arrived.headD 0) 0
    else if o.kind = 2 then s.abortAt op o
    else if o.kind = 3 then
      let word (e : Nat × Nat) : Nat × Nat := (e.1, match s.slotOf o.ctx e.2 with
        | some x => x.2.status
        | none => 2 ^ 32 + e.2)
      s.answerShd op { o with vals := o.vals.map word } (o.arrived.headD 0) 0
    else s

/-- SHABORTs that waited for a publish's outcome end; the slot is FREE. -/
def State.endAborts (s : State) (ctx slot : Nat) (sh : Shadow) : State :=
  if ¬ sh.abortWait then s
  else
    let h := sh.handle slot
    (Tab.list s.shdops).foldl (fun t e =>
      if e.2.kind = 2 ∧ e.2.ctx = ctx ∧ e.2.stage = 0 ∧ e.2.arrived ≠ [] ∧ e.2.vals.any (fun v => v.2 == h) then
        t.answerShd e.1 e.2 (e.2.arrived.headD 0) sh.base else t) (s.freeSlotSh ctx slot)

/-! ### The publish (R166, R233) -/

/-- The refusal of one granule of a destination at prepare: code and reason. A key denial has no code that the spec
states: it is a free value (log 25). -/
def State.refusal (s : State) (ctx slot dom dest va : Nat) (sh : Shadow) : Option (Nat × Nat) :=
  let tdom := transDomain s.homes dom va
  match ownerOf s.homes dom va with
  | none => some (5, 1)
  | some o =>
    if o.2.2 then some (9, 1)
    else match homeAttr s.homes tdom va with
    | .error code => some (code, 1)
    | .ok a =>
      if ¬ rightsOk .write a.rights o.2.1 then some (2, 1)
      else match Tab.get s.homes.stage2 (s2Key tdom a.dfn) with
      | none => some (3, 1)
      | some s2 =>
        if ¬ s2.w then some (4, 1)
        else if ¬ bit (s.shRights ctx slot) a.key then some (Config.freeNat s.free % 128, 1)
        else if Cells.get none sh.bases (shKey dest va) ≠ some (Cells.get 0 s.homes.pubGen (granKey tdom va)) then some (10, 2)
        else if (Tab.get sh.granules (shKey dest va)).elim false (fun g => g.poisoned s.homes) then some (7, 4)
        else none

/-- Once every home of this module has prepared another module's shadow, its vote leaves (R233, R362). -/
def State.votePeer (s : State) (ctx slot : Nat) : State :=
  match s.shadow? ctx slot with
  | some sh => if 64 ≤ ctx ∧ sh.openWait = [] then
      s.tellFor (s.partOfDomain (s.shDomain ctx slot)) (.vote (ctx / 64 - 1) (ctx % 64) slot sh.votes) else s
  | none => s

/-- PUBLISH_PREPARE (R233): the home holds its granules, once all are MAPPED, and votes. -/
def execPublishPrepare (ctx slot home : Nat) (s : State) : Out :=
  match s.shadow? ctx slot with
  | none => .next s
  | some sh =>
    let dom := s.shDomain ctx slot
    if sh.state ≠ .preparing ∨ ¬ sh.openWait.contains home then .next s
    else if home = 128 then
      let b := s.freeBool
      let remote := sh.pages.filter (fun p => !s.isLocal p.2)
      let vote : List (Nat × Nat × Nat × Nat) := if b.1 then [] else (match remote with
        | p :: _ => [(p.1, p.2, Config.freeNat b.2.free % 11, 1 + Config.freeNat (b.2.free + 1) % 4)]
        | [] => [])
      .next ((({ b.2 with free := b.2.free + 2 }).fabricBytes ctx 64).modShadow ctx slot (fun x => { x with
        openWait := x.openWait.filter (fun h => h != home), votes := x.votes ++ vote }))
    else
      let mine := sh.pages.filter (fun p => s.isLocal p.2 && s.homeFor dom p.2 == home)
      let gk (p : Nat × Nat) : Nat := granKey (transDomain s.homes dom p.2) p.2
      if mine.any (fun p => Cells.get .mapped s.homes.gran (gk p) ≠ .mapped ∧
          Cells.get .mapped s.homes.gran (gk p) ≠ .prepared ctx slot) then .next s
      else
        let s1 := s.modHomes (fun h => { h with
          gran := mine.foldl (fun m p => Cells.set .mapped m (gk p) (.prepared ctx slot)) h.gran })
        let votes := mine.filterMap (fun p => (s.refusal ctx slot dom p.1 p.2 sh).map (fun r => (p.1, p.2, r.1, r.2)))
        .next ((({ s1 with free := s1.free + 1 }).modShadow ctx slot (fun x => { x with
          openWait := x.openWait.filter (fun h => h != home), votes := x.votes ++ votes })).votePeer ctx slot)

/-- The granules of a shadow on this module that a publish holds are released (R300). -/
def State.releaseHeldGrans (s : State) (ctx dom slot : Nat) (sh : Shadow) : State :=
  s.modHomes (fun h => { h with
    gran := sh.pages.foldl (fun m p =>
      let key := granKey (transDomain h dom p.2) p.2
      if Cells.get .mapped m key = .prepared ctx slot then Cells.set .mapped m key .mapped else m) h.gran })

/-- One granule of a destination takes its shadow value at a moment (R166, R230). -/
def State.commitGranule (s : State) (dom dest va moment : Nat) (sh : Shadow) : State :=
  if ¬ s.isLocal va then s
  else
    let tdom := transDomain s.homes dom va
    let home := s.homeFor dom va
    match s.page dom va with
    | none => s
    | some (a, s2) =>
      let gk := granKey tdom va
      let note (h : Homes) (old new : List Byte) : Homes := { h with
        hist := ((old.zip new).zipIdx.foldl (fun m e => noteWrite m (locKey tdom (va + e.2)) moment 769 0 0 e.1.1 e.1.2) h.hist) }
      let fin (h : Homes) : Homes := { h with
        pubGen := Cells.set 0 h.pubGen gk (Cells.get 0 h.pubGen gk + 1)
        l2 := h.l2.filter (fun l => !(l.domain == tdom && l.line / 64 == va / 16384)) }
      let old := getBytes s.homes s2 va 16384
      match Tab.get sh.granules (shKey dest va) with
      | some g =>
        let new := readBytes s.homes.mem (g.frame * 16384) 16384
        let s2' : Stage2 := { s2 with frame := g.frame, tier := 0, poison := false }
        let s1 := s.modHomes (fun h =>
          let h1 := fin (note h old new)
          let h2 := h1.putStage2 tdom a.dfn (some s2')
          if s2.tier = 0 then { h2 with shadowFrames := Cells.set [] h2.shadowFrames home (Cells.get [] h2.shadowFrames home ++ [s2.frame]) }
          else { h2 with poolFrames := h2.poolFrames ++ [s2.frame] })
        s1.wakeWatches tdom va 16384 s2'
      | none =>
        if sh.zero then
          let s2' : Stage2 := { s2 with poison := false }
          let s1 := s.modHomes (fun h =>
            let h1 := (fin (note h old (List.replicate 16384 0))).fillFrame s2.frame (List.replicate 16384 0)
            h1.putStage2 tdom a.dfn (some s2'))
          s1.wakeWatches tdom va 16384 s2'
        else s.modHomes fin

/-- The granules of a shadow on this module take their shadow values at one moment P, and are released (R166, R233). -/
def State.commitShadow (s : State) (ctx dom slot : Nat) (sh : Shadow) : State :=
  (sh.pages.foldl (fun (t : State) p => t.commitGranule dom p.1 p.2 (s.seq + 1) sh) ({ s with seq := s.seq + 1 } : State)).releaseHeldGrans
    ctx dom slot sh

/-- PUBLISH_COMMIT (R233): every vote is yes; the moment P. Another module's publish is committed by that module. -/
def execPublishCommit (ctx slot : Nat) (s : State) : Out :=
  match s.shadow? ctx slot with
  | none => .next s
  | some sh =>
    if 64 ≤ ctx ∨ sh.state ≠ .preparing ∨ sh.openWait ≠ [] ∨ sh.votes ≠ [] ∨ sh.reason ≠ 0 then .next s
    else
      let sh' : Shadow := { sh with state := .committed, granules := [] }
      let s3 := (s.commitShadow ctx (s.domainOf ctx) slot sh).tellPeers ctx sh (.commit · ctx slot)
      let s4 := (s3.modShadow ctx slot (fun _ => sh')).writeBlock ctx sh' sh'.status (some [])
      .next (s4.endAborts ctx slot sh')

/-- PUBLISH_ABORT (R233): some vote is no, or a replica home did not answer. -/
def execPublishAbort (ctx slot : Nat) (s : State) : Out :=
  match s.shadow? ctx slot with
  | none => .next s
  | some sh =>
    if 64 ≤ ctx ∨ sh.state ≠ .preparing ∨ sh.openWait ≠ [] ∨ (sh.votes = [] ∧ sh.reason = 0) then .next s
    else
      let dom := s.domainOf ctx
      let reasons := sh.votes.map (fun v => v.2.2.2) ++ (if sh.reason = 0 then [] else [sh.reason])
      let s1 := (s.discard ctx dom slot).releaseHeldGrans ctx dom slot sh
      let sh' : Shadow := { sh with state := .failed, granules := [], reason := reasons.foldl Nat.min 15 }
      let s2 := (s1.modShadow ctx slot (fun _ => sh')).writeBlock ctx sh' sh'.status (some sh.votes)
      .next (s2.endAborts ctx slot sh')

/-- REPLICA_TIMEOUT (R227): 1 ms after the publish started a replica's home has not answered. -/
def execReplicaTimeout (ctx slot : Nat) (s : State) : Out :=
  match s.shadow? ctx slot with
  | none => .next s
  | some sh =>
    let dom := s.domainOf ctx
    let late := sh.openWait.filter (fun h => sh.pages.any (fun p => p.1 ≠ 0 ∧ s.shHome dom p.2 = h))
    if ctx < 64 ∧ sh.state = .preparing ∧ late ≠ [] ∧ sh.started + 850000 ≤ s.clock then
      .next (s.modShadow ctx slot (fun x => { x with reason := 3, openWait := x.openWait.filter (fun h => !late.contains h) }))
    else .next s

/-- SHD_REPLY (R229, R233, R234): the reply reaches the core and the weft goes on; an open waits until its block can be
written. -/
def execShdReply (op : Nat) (s : State) : Out :=
  match Tab.get s.shdops op with
  | none => .next s
  | some o =>
    if o.stage ≠ 2 ∨ (o.kind = 0 ∧ o.answer = 0 ∧ (s.shadow? o.ctx o.slot).elim false (s.blockHeld o.ctx)) then .next s
    else
      let here := match s.skein? o.skein with
        | some _ => true
        | none => false
      let s1 := s.endShd op o
      let pc := match o.strands with
        | i :: _ => (match s.strand? o.skein i with
          | some t => t.pc
          | none => 0)
        | [] => 0
      let go (t : State) : State := t.modStrands o.skein o.strands (fun _ x => x.advance)
      if o.answer = 0x106 then
        .next ((if o.kind = 0 then s1.freeSlotSh o.ctx o.slot else s1).fatalNack o.skein o.strands.head? pc 6 0)
      else match o.kind with
      | 0 =>
        let word (t : State) (w : Nat) : State :=
          (go (t.modStrands o.skein o.strands (fun _ x => x.wv o.reg (BitVec.ofNat 32 w)))).noteWrites o.skein o.weft
            (if o.reg = 63 then [] else [o.reg])
        (match s1.shadow? o.ctx o.slot with
          | none => .next (word s1 0x80000001)
          | some sh =>
            if o.answer ≠ 0 then .next (word (s1.freeSlotSh o.ctx o.slot) (0x80000000 + o.answer))
            else
              let sh' : Shadow := { sh with state := .sopen, seq := (sh.seq + 1) % 65536, openWait := [] }
              let s2 := (s1.modShadow o.ctx o.slot (fun _ => sh')).writeBlock o.ctx sh' sh'.status (some [])
              .next (if here then word s2 (sh'.handle o.slot) else s2))
      | 3 =>
        let bad := o.vals.filter (fun e => decide (2 ^ 32 ≤ e.2))
        let ok := o.vals.filter (fun e => decide (e.2 < 2 ^ 32))
        let s2 := ok.foldl (fun t e => t.modStrand o.skein e.1 (fun x => x.wv o.reg (BitVec.ofNat 32 e.2))) s1
        let s3 := s2.modStrands o.skein (ok.map Prod.fst) (fun _ x => x.advance)
        let s4 := if ok = [] ∨ o.reg = 63 then s3 else s3.noteWrites o.skein o.weft [o.reg]
        .next (if bad = [] then s4 else s4.takeTraps o.skein o.weft pc (bad.map (fun e =>
          { strand := e.1, cause := 0x38, val := BitVec.ofNat 32 e.2 })))
      | _ =>
        if o.answer = 1 then
          .next (s1.takeTraps o.skein o.weft pc (o.strands.map (fun i => { strand := i, cause := 0x38, val := BitVec.ofNat 32 (match o.vals with
              | e :: _ => e.2
              | [] => 0) })))
        else .next (go s1)

/-! ### RST (R232) -/

/-- The write that an RST asks for, and its step on the shadow word's bytes. -/
def Req.rstWrite (r : Req) : ShadowWrite := .rst r.lvl2 r.fn (lo32 r.opnd)
def Req.rstStep (r : Req) (bs : List Byte) : List Byte × FpFlags := r.rstWrite.step bs

/-- RST in one strand. -/
def State.rstLane (sk : Skein) (fn : Nat) (a b : VReg) (s : State) (i : Nat) (t : Strand) : State × Option TrapReq :=
  let base := t.rp a.toNat
  match s.accessCheck sk base (base.toNat : Int) 4 (fun x => bit x 1) with
  | .error e => (s, some { strand := i, cause := e.1, val := e.2 })
  | .ok va =>
    match s.openShadow sk.ctx va 4 with
    | none => (s, some { strand := i, cause := 0x38, val := BitVec.ofNat 32 va })
    | some e =>
      let r : Req := { s.mkReq .rst sk i va 4 s.cur.pc with
        fn := fn, opnd := (t.rb s.cur.k b.toNat).setWidth 64, expect := BitVec.ofNat 64 (e.2.handle e.1) }
      let s1 := (({ s with reqs := Tab.set s.reqs s.nextId (some r) }).fresh).send s.nextId
      ((s1.modBolt sk.bolt (fun x => { x with shadows := (x.shadows ++ [e.2.handle e.1]).dedup })).modStrand s.cur.skein i Strand.advance, none)

/-- An RST word. -/
def State.rstWord (s : State) (i : Instr) (fn : Nat) (g : BitVec 3) (a b : VReg) : Out :=
  s.word i (fun sk u =>
    let act := u.acting g
    if act = [] then (true, u.passBy)
    else
      let u1 := if fn ≤ 2 then u.setDirty u.cur.skein else u
      (true, (u1.nextSeq (sk.core.getD 0)).eachStrand act (State.rstLane sk fn a b)))

/-- RADD.F32 (R232). -/
def execRaddF32 (c : BitVec 1) (g : BitVec 3) (a : BitVec 6) (b : BitVec 6) (s : State) : Out :=
  s.rstWord (.raddF32 c g a b) 0 g a b
/-- RADD.BF16X2 (R232). -/
def execRaddBf16x2 (c : BitVec 1) (g : BitVec 3) (a : BitVec 6) (b : BitVec 6) (s : State) : Out :=
  s.rstWord (.raddBf16x2 c g a b) 1 g a b
/-- RADD.I32 (R232). -/
def execRaddI32 (c : BitVec 1) (g : BitVec 3) (a : BitVec 6) (b : BitVec 6) (s : State) : Out :=
  s.rstWord (.raddI32 c g a b) 2 g a b
/-- RMAX.F32 (R232). -/
def execRmaxF32 (c : BitVec 1) (g : BitVec 3) (a : BitVec 6) (b : BitVec 6) (s : State) : Out :=
  s.rstWord (.rmaxF32 c g a b) 3 g a b
/-- MST (R232). -/
def execMst (c : BitVec 1) (g : BitVec 3) (a : BitVec 6) (b : BitVec 6) (s : State) : Out :=
  s.rstWord (.mst c g a b) 4 g a b

/-- Apply an RST's step to the shadow it names; `none` with no frame free, the flags otherwise. -/
def State.rstApply (s : State) (r : Req) : Option (State × FpFlags) :=
  s.shadowStep r.ctx r.domain (r.expect.toNat % 64) r.va 4 r.rstWrite

/-- SHADOW_WRITE (R230, R231): an RST at its home. Code 0x102 stands for a write after prepare. -/
def execShadowWrite (req : Nat) (s : State) : Out :=
  match s.req? req with
  | none => .next s
  | some r =>
    if r.kind ≠ .rst ∨ r.stage ≠ .atHome ∨ ¬ s.inOrder req r ∨ s.writeHeld req r then .next s
    else if (s.slotOf r.ctx r.expect.toNat).all (fun e => !s.takesShadow r.domain e.2 r.va) then .next (s.replyWith req 0x102 0 0)
    else match judge s.homes r.domain r.gen r.va .write r.wrRights true with
      | .nack code => .next (s.refuseReq req code)
      | .deny => .next (s.replyWith req 0x100 0 0)
      | .page a _ =>
        (match s.rstApply r with
          | some t =>
            let u := if r.bad then t.1.poisonShadow r.ctx r.domain (r.expect.toNat % 64) r.va else t.1
            .next (({ u with seq := u.seq + 1 }).replyWith req 0 t.2.toNat a.key)
          | none => .next (s.refuseReq req 3))
      | _ => .next s

/-- Another module acknowledges a shadow write only when no earlier one of the core to the line is left (R232). -/
def State.rstDue (s : State) (id : Nat) (r : Req) : Bool := match r.stage with
  | .remote _ => !(Tab.list s.reqs).any (fun e => decide (e.1 < id) && e.2.kind == .rst && e.2.onLine r.core r.domain r.va &&
      !e.2.done)
  | _ => true

/-- RST_ACK (R232): the flags are ORed into the strand's FPFLAGS; a NACK holds it; a late write is reported later. -/
def execRstAck (req : Nat) (ans : RemoteAns) (s : State) : Out :=
  match s.req? req with
  | none => .next s
  | some r =>
    match r.kind, if s.rstDue req r then s.answerOf r ans else none with
    | .rst, some a =>
      let remote := match r.stage with
        | .remote _ => true
        | _ => false
      if a.code = 0 then
        let s1 := if remote then (match s.rstApply r with
          | some t => t.1
          | none => s) else s
        .next ((s1.endReq req).modStrand r.skein r.strand (fun t => { t with
          fpflags := t.fpflags ||| BitVec.ofNat 5 (if remote then ans.flags else r.result) }))
      else if a.code = 0x100 then .next (s.denyPosted req)
      else if a.code = 0x102 then .next ((s.modReq req (fun x => { x with stage := .shadowBad })).releasePorts)
      else .next (s.holdReq req r a)
    | _, _ => .next s

end Sys2Proof.Machine
end

