-- ==== Sys2Proof/Machine/Copy.lean ====
section
/-! DEFINITION. Machine/Copy.lean: CPY and CWAIT, and the chunks of a copy (R164, R215 to R225, R231). -/

namespace Sys2Proof.Machine

/-! ### The descriptor (R215 to R217) -/

/-- Whether a kind's source, and its destination, is global. -/
def srcGlobal (kind : Nat) : Bool := kind == 0 || kind == 3
def dstGlobal (kind : Nat) : Bool := kind == 1 || kind == 3

/-- R217's check code of a descriptor, or the copy's fields. Of S2SM's DSTHI, bit 31 is SH (code 6), and a nonzero [30:8]
makes code 5 (log 60). -/
def State.checkCopy (s : State) (sk : Skein) (kind : Nat) (v : List Word) : Except Nat Copy :=
  let w (j : Nat) : Nat := (nth 0 v j).toNat
  let rowb := w 4
  let rows := w 5
  let sx := extent rowb rows (w 6)
  let dx := extent rowb rows (w 7)
  let glob (base : Nat) (n : Nat) : Bool := match checkGlobal (BitVec.ofNat 64 base) (base : Int) n with
    | .error (0x22, _) => true
    | .error _ => false
    | .ok _ => true
  let scr (a n : Nat) : Bool := match s.checkScratch sk (a : Int) n 1 with
    | .error _ => false
    | .ok _ => true
  let src := if srcGlobal kind then w 0 + w 1 * 2 ^ 32 else w 0
  let dst := if dstGlobal kind then w 2 + bits (w 3) 30 0 * 2 ^ 32 else w 2
  let sh := dstGlobal kind && bit (w 3) 31
  let slot := s.openShadow sk.ctx dst dx
  if ¬ (4 ≤ rowb ∧ rowb ≤ 16777216 ∧ rowb % 4 = 0 ∧ 1 ≤ rows ∧ rows ≤ 65536 ∧ w 6 % 4 = 0 ∧ w 7 % 4 = 0) then .error 1
  else if src % 4 ≠ 0 ∨ dst % 4 ≠ 0 then .error 2
  else if (srcGlobal kind && !glob src sx) || (dstGlobal kind && !glob dst dx) then .error 3
  else if (!srcGlobal kind && !scr src sx) || (!dstGlobal kind && !scr dst dx) || (kind == 4 && decide (2 ^ 31 ≤ dst)) then .error 4
  else if (kind == 4 && decide (w 3 % 256 = 0 ∨ 2 ^ s.nskein sk ≤ w 3 % 256 ∨ bits (w 3) 30 8 ≠ 0)) ||
      (!dstGlobal kind && kind != 4 && w 3 != 0) || (!srcGlobal kind && w 1 != 0) then .error 5
  else if (sh && slot.isNone) || (kind == 4 && bit (w 3) 31) then .error 6
  else .ok {
    core := sk.core.getD 0, skein := s.cur.skein, weft := s.cur.weft, ctx := sk.ctx, kind := kind, tag := 0, src := src,
    dst := dst, mask := if kind = 4 then w 3 % 256 else 0,
    shadow := if sh then slot.map (fun e => e.2.handle e.1) else none, rowb := rowb, rows := rows, sstr := w 6,
    dstr := w 7, done := 0, seq := (s.core (sk.core.getD 0)).issueSeq, parked := none, parkedAt := 0, frozen := false,
    shadowBad := false, orig := [] }

/-- The scratch ranges that a copy writes, wherever they are. -/
def State.copyTargets (s : State) (cp : Copy) : List Span :=
  match s.skein? cp.skein with
  | none => []
  | some sk =>
    if cp.kind = 4 then
      (List.range 8).filterMap (fun p => if bit cp.mask p then (s.peer? sk p).map (fun q =>
        { core := q.core.getD 0, lo := q.scrBase + cp.dst, len := extent cp.rowb cp.rows cp.dstr }) else none)
    else if dstGlobal cp.kind then []
    else (s.copySpan cp cp.dst cp.dstr).toList

/-- Whether a new copy waits for the ranges of copies and engine operations of its core (R221, R250). -/
def State.copyWaits (s : State) (cp : Copy) : Bool :=
  let c := cp.core
  let es := s.copiesOn c
  let rs := s.copyReads cp
  let ws := s.copyWrites cp
  es.any (fun e => ws.any (fun x => (s.copyReads e.2 ++ s.copyWrites e.2).any (fun y => y.hits x)) ||
    rs.any (fun x => (s.copyWrites e.2).any (fun y => y.hits x))) ||
  rs.any (fun x => s.engineWrites c x) || ws.any (fun x => s.engineWrites c x || s.engineReads c x)

/-- The rows of a copy's global destination, where it writes live memory. -/
def Copy.liveDest (cp : Copy) : Option Rows :=
  if dstGlobal cp.kind ∧ cp.shadow = none then some { lo := cp.dst, rowb := cp.rowb, rows := cp.rows, stride := cp.dstr } else none

/-- A copy whose checks have passed starts: the load entries that its destination overlaps die (R72), and write-combining
entries that its source overlaps are sent (R164). -/
def State.startCopy (s : State) (sk : Skein) (cp : Copy) : State :=
  let c := cp.core
  let dom := s.domainOf sk.ctx
  let s1 := ({ s with copies := Tab.set s.copies s.nextId (some cp) }).fresh
  let s2 := match cp.liveDest with
    | some d => s1.killGlobal c dom d.lo (extent d.rowb d.rows d.stride)
    | none => s1
  let s3 := (s2.copyTargets cp).foldl (fun t x => if x.core = c then t.killScratch c x.lo x.len else t) s2
  let s4 := match cp.shadow with
    | some h => s3.modBolt sk.bolt (fun b => { b with shadows := (b.shadows ++ [h]).dedup })
    | none => s3
  if srcGlobal cp.kind then
    s4.sendWc c (fun e => e.domain == dom && decide (e.line * 256 < cp.src + extent cp.rowb cp.rows cp.sstr ∧
      cp.src < (e.line + 1) * 256))
  else s4

/-- A CPY word (R215, R218, R219), which sets DIRTY where its destination is global and SH clear (R270). DESIGN CHOICE
(log 59): a descriptor that is not uniform traps every strand of the issue set, as R215 says, those whose guard is false
among them. -/
def State.copyWord (s : State) (i : Instr) (kind : Nat) (g : BitVec 3) (a : VReg) (tag : BitVec 7) : Out :=
  s.word i (fun sk u =>
    let k := u.cur.skein
    let act := u.acting g
    if act = [] then (true, u.unalone.passBy)
    else
      let ws := u.descWords act a
      let out : Attempt := match u.nonUniform k act (oct a) with
        | some r => (true, u.unalone.trapAll u.cur.strands 0x08 (BitVec.ofNat 32 r))
        | none =>
          let u1 := u.nextSeq (sk.core.getD 0)
          match u1.checkCopy sk kind ws with
          | .error code => (true, u.unalone.eachStrand act (fun t j _ =>
              (t, some { strand := j, cause := 0x39, val := BitVec.ofNat 32 code })))
          | .ok cp0 =>
            let cp : Copy := { cp0 with tag := tag.toNat }
            if 256 ≤ (u.copiesOn (sk.core.getD 0)).length then (false, u.alone)
            else if u.copyWaits cp then (false, u.unalone)
            else (true, (u1.startCopy sk cp).unalone.passBy)
      if dstGlobal kind ∧ ¬ bit (nth 0 ws 3).toNat 31 then issuedDirty k out else out)

/-- CPY.G2S (R216). -/
def execCpyG2s (c : BitVec 1) (g : BitVec 3) (a : BitVec 6) (t : BitVec 7) (s : State) : Out := s.copyWord (.cpyG2s c g a t) 0 g a t
/-- CPY.S2G (R216). -/
def execCpyS2g (c : BitVec 1) (g : BitVec 3) (a : BitVec 6) (t : BitVec 7) (s : State) : Out := s.copyWord (.cpyS2g c g a t) 1 g a t
/-- CPY.S2S (R216). -/
def execCpyS2s (c : BitVec 1) (g : BitVec 3) (a : BitVec 6) (t : BitVec 7) (s : State) : Out := s.copyWord (.cpyS2s c g a t) 2 g a t
/-- CPY.G2G (R216). -/
def execCpyG2g (c : BitVec 1) (g : BitVec 3) (a : BitVec 6) (t : BitVec 7) (s : State) : Out := s.copyWord (.cpyG2g c g a t) 3 g a t
/-- CPY.S2SM (R216). -/
def execCpyS2sm (c : BitVec 1) (g : BitVec 3) (a : BitVec 6) (t : BitVec 7) (s : State) : Out := s.copyWord (.cpyS2sm c g a t) 4 g a t

/-! ### Chunks (R220) -/

/-- Bytes of a copy. -/
def Copy.total (cp : Copy) : Nat := cp.rowb * cp.rows
/-- Bytes of its next chunk. -/
def Copy.chunk (cp : Copy) : Nat := Nat.min 4096 (cp.total - cp.done)

/-- A piece of a chunk: source and destination address, bytes, and its offset in the chunk. -/
structure Piece where
  src : Nat
  dst : Nat
  len : Nat
  off : Nat
  deriving DecidableEq, Repr

/-- The pieces of a chunk: within a row, and within 256-byte lines on both sides. -/
def Copy.pieces (cp : Copy) : Nat → Nat → Nat → List Piece
  | 0, _, _ => []
  | fuel + 1, off, n =>
    if n = 0 then []
    else
      let b := cp.done + off
      let row := b / cp.rowb
      let col := b % cp.rowb
      let src := cp.src + row * cp.sstr + col
      let dst := cp.dst + row * cp.dstr + col
      let len := Nat.min (Nat.min n (cp.rowb - col)) (Nat.min (256 - src % 256) (256 - dst % 256))
      { src := src, dst := dst, len := len, off := off } :: cp.pieces fuel (off + len) (n - len)

/-- How the homes judge one piece. -/
inductive PieceVerdict where
  | ok
  | nack (code va flags : Nat)
  | deny (va : Nat)
  | hold
  /-- A shadow write after the publish's prepare (R231). -/
  | late
  deriving DecidableEq, Repr

/-- Judge one side of a piece at its home. -/
def State.judgeSide (s : State) (cp : Copy) (kind : AccKind) (va : Nat) : PieceVerdict :=
  let fl := if kind = .write then 5 else 4
  if ¬ s.isLocal va then .ok
  else match judge s.homes (s.domainOf cp.ctx) (s.genOf cp.ctx) va kind (s.rightsVec cp.core cp.ctx 1) true with
    | .nack c => .nack c va fl
    | .deny => .deny va
    | .page a _ => if kind = .read ∧ ¬ bit (s.rightsVec cp.core cp.ctx 0) a.key then .deny va else .ok
    | _ => .hold

/-- Judge a piece: its source, then its destination. -/
def State.judgePiece (s : State) (cp : Copy) (p : Piece) : PieceVerdict :=
  match if srcGlobal cp.kind then s.judgeSide cp .read p.src else .ok with
  | .ok =>
    if ¬ dstGlobal cp.kind then .ok
    else match cp.shadow with
      | none => s.judgeSide cp .write p.dst
      | some h =>
        if (s.slotOf cp.ctx h).all (fun e => !s.takesShadow (s.domainOf cp.ctx) e.2 p.dst) then .late
        else match s.judgeSide cp .write p.dst with
          | .ok =>
            (match s.shadowStep cp.ctx (s.domainOf cp.ctx) (h % 64) p.dst p.len (.bytes []) with
              | some _ => .ok
              | none => .nack 3 p.dst 5)
          | v => v
  | v => v

/-- The address of a copy's byte as a key of what it replaced. -/
def State.copyKey (s : State) (cp : Copy) (glob : Bool) (addr : Nat) : Nat :=
  if glob then addr
  else match s.skein? cp.skein with
    | some sk => (fun (a : Nat × Nat) => 2 ^ 60 + a.1 * 2 ^ 20 + a.2) (s.scratchAt sk addr)
    | none => 0

/-- The source bytes of a piece: where the copy wrote its own source, the old value or the new one, alike for each aligned 4
bytes (R159, R220, log 20). -/
def State.readPiece (s : State) (id : Nat) (cp : Copy) (p : Piece) (remote : List Byte) : State × Option (List Byte) :=
  let got : State × Option (List Byte) :=
    if srcGlobal cp.kind then
      (if ¬ s.isLocal p.src then (s, some ((List.range p.len).map (fun j => nth 0 remote (p.off + j))))
      else match s.page (s.domainOf cp.ctx) p.src with
        | some (_, s2) => (s, some (getBytes s.homes s2 p.src p.len))
        | none => (s, none))
    else match s.skein? cp.skein with
      | some sk =>
        let at' := s.scratchAt sk p.src
        s.readSpan cp.skein { core := at'.1, lo := at'.2, len := p.len }
      | none => (s, none)
  match got.2 with
  | none => got
  | some bs =>
    let orig := match Tab.get s.copies id with
      | some x => x.orig
      | none => []
    let r := bs.zipIdx.map (fun e =>
      match Tab.get orig (s.copyKey cp (srcGlobal cp.kind) (p.src + e.2)) with
      | some o => if Config.freeBool (got.1.free + e.2 / 4) then o else e.1
      | none => e.1)
    (if orig = [] then got.1 else { got.1 with free := got.1.free + p.len }, some r)

/-- Remember what a write of the copy replaces in its own source. -/
def State.noteOrig (s : State) (id : Nat) (cp : Copy) (glob : Bool) (addr : Nat) (old : List Byte) : State :=
  let lo := s.copyKey cp (srcGlobal cp.kind) cp.src
  let n := extent cp.rowb cp.rows cp.sstr
  let at' := s.copyKey cp glob addr
  if glob ≠ srcGlobal cp.kind ∨ at' + old.length ≤ lo ∨ lo + n ≤ at' then s
  else { s with copies := Tab.upd s.copies id (fun x => { x with
      orig := old.zipIdx.foldl (fun m e => if (Tab.get m (at' + e.2)).isSome then m else Tab.set m (at' + e.2) (some e.1)) x.orig }) }

/-- Write the bytes of a piece. -/
def State.writePiece (s : State) (id : Nat) (cp : Copy) (p : Piece) (bs : List Byte) : State :=
  let dom := s.domainOf cp.ctx
  if dstGlobal cp.kind then
    match cp.shadow with
    | some h =>
      (match s.shadowStep cp.ctx dom (h % 64) p.dst bs.length (.bytes bs) with
        | some t => { t.1 with seq := t.1.seq + 1 }
        | none => s)
    | none =>
      if ¬ s.isLocal p.dst then s
      else match s.page dom p.dst with
        | some (a, s2) =>
          let s1 := s.noteOrig id cp true p.dst (getBytes s.homes s2 p.dst bs.length)
          s1.effectWrite (transDomain s.homes dom p.dst) 768 0 0 p.dst a s2 bs
        | none => s
  else match s.skein? cp.skein with
    | none => s
    | some sk =>
      let spans : List Span :=
        if cp.kind = 4 then
          (List.range 8).filterMap (fun q => if bit cp.mask q then (s.peer? sk q).map (fun y =>
            { core := y.core.getD 0, lo := y.scrBase + p.dst, len := bs.length }) else none)
        else (fun (a : Nat × Nat) => [{ core := a.1, lo := a.2, len := bs.length }]) (s.scratchAt sk p.dst)
      spans.foldl (fun t x =>
        let lo := t.copyKey cp (srcGlobal cp.kind) cp.src
        let key := 2 ^ 60 + x.core * 2 ^ 20 + x.lo
        let t1 : State := if srcGlobal cp.kind ∨ key + bs.length ≤ lo ∨ lo + extent cp.rowb cp.rows cp.sstr ≤ key then t
          else { t with copies := Tab.upd t.copies id (fun y => { y with
            orig := ((t.scratch x.core).bytesAt x.lo bs.length).zipIdx.foldl (fun m e => if (Tab.get m (key + e.2)).isSome then m else Tab.set m (key + e.2) (some e.1)) y.orig }) }
        t1.writeSpan x bs cp.ctx) s

/-- The bytes of a piece went on marked poisoned: in memory their lines are (R368, R369). -/
def State.poisonPiece (cp : Copy) (s : State) (p : Piece) : State :=
  let dom := s.domainOf cp.ctx
  match cp.shadow with
  | some h => s.poisonShadow cp.ctx dom (h % 64) p.dst
  | none =>
    if ¬ s.isLocal p.dst then s
    else (s.page dom p.dst).elim s (fun e => s.modHomes (fun h => h.poisonLine (physAddr e.2.frame p.dst)))

/-- Perform some pieces. DESIGN CHOICE (log 58): a chunk's accesses are made in one step, its pieces in ascending order; where
destination rows overlap, the last row's bytes stand. -/
def State.runPieces (s : State) (id : Nat) (cp : Copy) (remote : List Byte) (ps : List Piece) : State :=
  ps.foldl (fun t p => match t.readPiece id cp p remote with
    | (u, some bs) => u.writePiece id cp p bs
    | (u, none) => u) s

/-- The pieces of a copy's chunk, where it may make progress: its context runs, or is being pre-empted and the chunk has begun
(R223, R268), its skein is on a core, no store of its weft to its source, posted atomics among them, is outstanding (R164), and
no group it needs is being rebuilt. -/
def State.copyMay (s : State) (cp : Copy) : Option (List Piece) :=
  let n := cp.chunk
  let held (sk : Skein) (addr stride : Nat) : Bool :=
    let at' := s.scratchAt sk addr
    s.spanHeld { core := at'.1, lo := at'.2, len := extent cp.rowb cp.rows stride }
  let rebuilding : Bool := match s.skein? cp.skein with
    | some sk => (!srcGlobal cp.kind && held sk cp.src cp.sstr) || (s.copyTargets cp).any (fun x => s.spanHeld x)
    | none => true
  let waits := srcGlobal cp.kind && (Tab.list s.reqs).any (fun e => (e.2.isStore || e.2.kind == .atomic) && e.2.skein == cp.skein &&
    e.2.weft == cp.weft && decide (e.2.seq < cp.seq) && !e.2.done &&
    decide (e.2.va < cp.src + extent cp.rowb cp.rows cp.sstr ∧ cp.src < e.2.va + e.2.size))
  let away : Bool := ((s.skein? cp.skein).bind Skein.core).isNone
  let runs : Bool := s.mayIssue cp.ctx || (cp.phase != 0 && s.preempting cp.ctx)
  if cp.parked.isSome ∨ cp.frozen ∨ n = 0 ∨ ¬ runs ∨ away ∨ rebuilding ∨ waits then none else some (cp.pieces 1025 0 n)

/-- A copy whose chunk is due, with its pieces: its reads and writes have crossed the Loom. -/
def State.copyReady (s : State) (id : Nat) : Option (Copy × List Piece) :=
  match Tab.get s.copies id with
  | none => none
  | some cp => if cp.phase ≠ 2 ∨ cp.waits ≠ 0 then none else (s.copyMay cp).map (fun ps => (cp, ps))

/-- Whether a copy touches another module's memory. -/
def State.copyRemote (s : State) (cp : Copy) : Bool :=
  (srcGlobal cp.kind && !s.isLocal cp.src) || (dstGlobal cp.kind && !s.isLocal cp.dst)

/-- Clear a bolt's watchdog (R274). -/
def State.kickBolt (s : State) (k : Nat) : State :=
  match s.skein? k with
  | some sk => s.modBolt sk.bolt (fun b => { b with watchdog := 0 })
  | none => s

/-- The tokens of one side of a chunk's pieces: at its cluster's interface or the fabric egress, and at the CXL port (R304). -/
def State.sideTokens (s : State) (cp : Copy) (glob write : Bool) (ps : List (Nat × Nat)) : Option State :=
  match ps.head? with
  | none => some s
  | some p0 =>
    if ¬ glob then some s
    else
      let cost (n : Nat) : Nat := if write then n else 64
      let part := (s.ctx? cp.ctx).elim 64 Context.partition
      let point := if s.isLocal p0.1 then clusterOf cp.core else 96
      ps.foldl (fun o p => o.bind (fun t =>
        if ¬ t.isLocal p.1 then some t
        else match t.page (t.domainOf cp.ctx) p.1 with
          | some (_, s2) => t.poolTokens cp.ctx (t.domainOf cp.ctx) p.1 p.2 (cost p.2) s2
          | none => some t)) ((s.takeTokens part point ((ps.map (fun p => cost p.2)).sum)).map (fun t =>
        if point = 96 then t.addMeter part 9 (ps.map Prod.snd).sum else t))

/-- The tokens of a chunk: `none` while a limiter holds it. -/
def State.copyTokens (s : State) (cp : Copy) (ps : List Piece) : Option State :=
  (s.sideTokens cp (srcGlobal cp.kind) false (ps.map (fun p => (p.src, p.len)))).bind (fun t =>
    t.sideTokens cp (dstGlobal cp.kind) true (ps.map (fun p => (p.dst, p.len))))

/-! ### A chunk on the Loom (R220, R348; log 77) -/

/-- The flits of a piece's data: 64 bytes each. -/
def Piece.flits (p : Piece) : Nat := (p.len + 63) / 64

/-- Send one side of a chunk's accesses on their lines' paths, `n` flits for a piece; with none to send the phase is over. -/
def State.sendSide (s : State) (id : Nat) (cp : Copy) (phase : Nat) (side : List (Nat × Nat × Nat)) (expect : Nat) : State :=
  let c := clusterOf cp.core
  let s1 := ({ s with copies := Tab.upd s.copies id (fun x => { x with phase := phase, waits := expect, packet := s.nextId }) } :
    State).fresh
  side.foldl (fun t p =>
    (List.range p.2.2).foldl (fun u _ =>
      if s.isLocal p.1 then u.enqueue (inbound (s.homeFor (s.domainOf cp.ctx) p.1) p.1) c 1 (.copy id s.nextId p.1 p.2.1)
      else u.sendFar c p.1 (.copy id s.nextId p.1 p.2.1)) t) s1

/-- What a copy's chunk does next: it begins, with its tokens taken, its reads leave, then its writes; with the last
acknowledgement it is over. -/
def State.stepCopy (s : State) (id : Nat) : State :=
  match Tab.get s.copies id with
  | none => s
  | some cp =>
    if cp.waits ≠ 0 ∨ cp.phase = 2 then s
    else if 3 ≤ cp.phase then { s with copies := Tab.upd s.copies id (fun x => { x with phase := 0 }) }
    else match s.copyMay cp with
      | none => s
      | some ps =>
        if cp.phase = 0 then
          match s.copyTokens cp ps with
          | none => s
          | some t => t.sendSide id cp 1 (if srcGlobal cp.kind then ps.map (fun p => (p.src, p.len, 1)) else [])
              (if srcGlobal cp.kind then (ps.map Piece.flits).sum else 0)
        else s.sendSide id cp 2 (if dstGlobal cp.kind then ps.map (fun p => (p.dst, p.len, p.flits)) else [])
            (if dstGlobal cp.kind then (ps.map Piece.flits).sum else 0)

/-- Every copy goes on as far as its flits allow. -/
def State.settleCopies (s : State) : State :=
  (Tab.list s.copies).foldl (fun t e => ((t.stepCopy e.1).stepCopy e.1).stepCopy e.1) s

/-- The acknowledgements of a chunk's writes leave its homes, or the fabric ingress. -/
def State.ackChunk (s : State) (id : Nat) (cp : Copy) (ps : List Piece) : State :=
  let dom := s.domainOf cp.ctx
  let s1 := ({ s with copies := Tab.upd s.copies id (fun x => { x with
    phase := 3, waits := if dstGlobal cp.kind then ps.length else 0, packet := s.nextId }) } : State).fresh
  if dstGlobal cp.kind then
    ps.foldl (fun t p => t.enqueue (replyChan (clusterOf cp.core) p.dst)
      (if s.isLocal p.dst then 96 + s.homeFor dom p.dst else 225) 2 (.copy id s.nextId p.dst p.len)) s1
  else s1

/-- COPY_CHUNK (R220): the next chunk, where every home accepts it. Data that went on marked poisoned poisons the lines it is
written to; in a scratchpad, it ends the gang as POISON does (R184, R368). -/
def execCopyChunk (copy : Nat) (ans : RemoteAns) (s : State) : Out :=
  match s.copyReady copy with
  | none => .next s
  | some (cp, ps) =>
    let vs := ps.map (fun p => (p, s.judgePiece cp p))
    if vs.any (fun v => v.2 ≠ .ok ∧ v.2 ≠ .late) ∨ (s.copyRemote cp ∧ ans.code ≠ 0) then .next s
    else if cp.bad ∧ ¬ dstGlobal cp.kind then .next (s.fatalNack cp.skein none 0 7 cp.src)
    else
      let late := vs.any (fun v => v.2 == .late)
      let good := (vs.filter (fun v => v.2 == .ok)).map Prod.fst
      let s1 := s.runPieces copy cp ans.data good
      let s2 := if cp.bad then good.foldl (State.poisonPiece cp) s1 else s1
      let s3 : State := { s2 with copies := Tab.upd s2.copies copy (fun x => { x with
        done := cp.done + cp.chunk, shadowBad := x.shadowBad || late, bad := false }) }
      .next ((s3.ackChunk copy cp ps).kickBolt cp.skein)

/-- COPY_RETIRE (R220). -/
def execCopyRetire (copy : Nat) (s : State) : Out :=
  match Tab.get s.copies copy with
  | none => .next s
  | some cp =>
    if cp.done < cp.total ∨ cp.frozen ∨ cp.phase ≠ 0 then .next s
    else .next (({ s with copies := Tab.set s.copies copy none } : State).modSkein cp.skein (fun sk => { sk with
      doneCopies := sk.doneCopies ++ [{ tag := cp.tag, seq := cp.seq, dest := cp.liveDest, bad := cp.shadowBad }] }))

/-- The first refused piece of a chunk. -/
def firstNack (vs : List (Piece × PieceVerdict)) : Option (Piece × Nat × Nat × Nat) :=
  vs.findSome? (fun v => match v.2 with
    | .nack c va fl => some (v.1, c, va, fl)
    | _ => none)

/-- COPY_NACK (R222): the copy parks at its chunk; `done` bytes of it have been written. -/
def execCopyNack (copy done : Nat) (ans : RemoteAns) (s : State) : Out :=
  match s.copyReady copy with
  | none => .next s
  | some (cp, ps) =>
    let remote := s.copyRemote cp && ans.code != 0 && ans.code != 0x100
    let far : Nat := if srcGlobal cp.kind ∧ ¬ s.isLocal cp.src then cp.src else cp.dst
    match firstNack (ps.map (fun p => (p, s.judgePiece cp p))), remote with
    | none, false => .next s
    | hit, _ =>
      let off := match hit with
        | some h => h.1.off
        | none => cp.chunk
      let s1 := s.runPieces copy cp ans.data ((ps.filter (fun p => decide (p.off + p.len ≤ Nat.min done off))).filter
        (fun p => s.judgePiece cp p == .ok))
      let core := coreId cp.core
      let skIx := match s.skein? cp.skein with
        | some sk => sk.index
        | none => 0
      match hit with
      | some h =>
        if fatalCode h.2.1 then .next (s1.fatalNack cp.skein none 0 h.2.1 h.2.2.1)
        else match s1.openFault { ctx := cp.ctx, domain := s.domainOf cp.ctx, va := h.2.2.1, code := h.2.1, flags := h.2.2.2,
                                  core := core, tag := cp.tag, skein := skIx } with
          | some f => .next { f.2 with copies := Tab.upd f.2.copies copy (fun x => { x with parked := some f.1, parkedAt := s.clock, phase := 0 }) }
          | none => .next s
      | none =>
        if fatalCode ans.code then .next (s1.fatalNack cp.skein none 0 ans.code far)
        else .next { s1 with copies := Tab.upd s1.copies copy (fun x => { x with
          parked := some (remoteRecord ans), parkedAt := s.clock, phase := 0 }) }

/-- COPY_VIOLATION (R224): a home denies an access: the skein's copy queue is frozen and the context faults. -/
def execCopyViolation (copy : Nat) (ans : RemoteAns) (s : State) : Out :=
  match s.copyReady copy with
  | none => .next s
  | some (cp, ps) =>
    let hit := ps.findSome? (fun p => match s.judgePiece cp p with
      | .deny va => some va
      | _ => none)
    let va := match hit with
      | some v => v
      | none => if srcGlobal cp.kind ∧ ¬ s.isLocal cp.src then cp.src else cp.dst
    if hit.isNone ∧ ¬ (s.copyRemote cp ∧ ans.code = 0x100) then .next s
    else
      let s1 := ({ s with copies := s.copies.map (fun (e : Nat × Option Copy) => (e.1, e.2.map (fun (x : Copy) =>
        if x.skein = cp.skein then { x with frozen := true } else x))) } : State).modSkein cp.skein (fun sk => { sk with copyFrozen := true })
      let core := coreId cp.core
      let s2 := s1.raiseFrozen 2 2 cp.ctx va core 0xFFFF
      .next (match s.skein? cp.skein with
        | some sk => s2.gangFault sk.bolt 0x44 { src := core, strand := 0xFFFF, pc := 0, skeinIx := sk.index, info := va }
        | none => s2)

/-! ### CWAIT (R164, R225, R231) -/

/-- The copies of a skein in flight that a tag, or every tag, covers. -/
def State.copiesOf (s : State) (k : Nat) (tag : Option Nat) : List (Nat × Copy) :=
  (Tab.list s.copies).filter (fun e => e.2.skein == k && (match tag with
    | some t => e.2.tag == t
    | none => true))

/-- A CWAIT is complete: its copies' writes count as the weft's own (R164): the L1 group's lines of their destinations go, and
so do the core's load entries over them. -/
def State.coverCopies (s : State) (k w : Nat) (cover : List DoneCopy) : State :=
  match s.skein? k, s.weft? k w with
  | some sk, some wf =>
    let rows := cover.filterMap DoneCopy.dest
    let g := s.l1Key k
    let dom := s.domainOf sk.ctx
    let hit (line : Nat) : Bool := rows.any (fun r => r.meets (line * 256) 256)
    let s1 := { s with
      l1 := Cells.set [] s.l1 g ((Cells.get [] s.l1 g).filter (fun l => !(l.domain == dom && hit l.line)))
      reqs := s.reqs.map (fun (e : Nat × Option Req) => (e.1, e.2.map (fun (x : Req) =>
        if x.group = g ∧ x.domain = dom ∧ hit (x.va / 256) then { x with noFill := true } else x))) }
    let s2 := rows.foldl (fun t r => t.killGlobal (sk.core.getD 0) dom r.lo (extent r.rowb r.rows r.stride)) s1
    s2.modSkein k (fun x => { x with
      cwaits := x.cwaits.filter (fun c => !(c.weft == w && c.g == wf.g && rows.contains c.dest)) ++
        rows.dedup.map (fun r => { weft := w, g := wf.g, dest := r, moment := s.seq }) })
  | _, _ => s

/-- CWAIT and CWAIT.all: they cover the copies that issued before the word was first reached, and the weft issues nothing else
while they wait (R225). -/
def State.cwaitWord (s : State) (i : Instr) (g : BitVec 3) (tag : Option Nat) : Out :=
  s.word i (fun sk u =>
    let k := u.cur.skein
    let act := u.acting g
    let upto := ((((u.weft? k u.cur.weft).bind Weft.solo).filter (fun x => x.1 == u.cur.pc)).map Prod.snd).getD u.nextId
    let covered (d : DoneCopy) : Bool := decide (d.seq < upto) && (match tag with
      | some t => d.tag == t
      | none => true)
    if act = [] then (true, u.unalone.passBy)
    else if (u.copiesOf k tag).any (fun e => decide (e.2.seq < upto)) then (false, u.alone)
    else
      let cover := sk.doneCopies.filter covered
      match cover.find? DoneCopy.bad with
      | some d =>
        let u1 := u.modSkein k (fun x => { x with doneCopies := x.doneCopies.map (fun e => if covered e then { e with bad := false } else e) })
        (true, u1.unalone.shadowTrap act d.tag)
      | none => (true, (u.coverCopies k u.cur.weft cover).unalone.passBy))

/-- CWAIT (R225). -/
def execCwait (c : BitVec 1) (g : BitVec 3) (t : BitVec 7) (s : State) : Out := s.cwaitWord (.cwait c g t) g (some t.toNat)
/-- CWAIT.ALL (R225). -/
def execCwaitAll (c : BitVec 1) (g : BitVec 3) (s : State) : Out := s.cwaitWord (.cwaitAll c g) g none
/-- CWAIT.QUERY (R225): it does not wait. -/
def execCwaitQuery (c : BitVec 1) (g : BitVec 3) (d : BitVec 6) (t : BitVec 7) (s : State) : Out :=
  s.lanes (.cwaitQuery c g d t) (fun _ _ => guarded g (fun u =>
    .ok (u.wv d.toNat (BitVec.ofNat 32 (s.copiesOf s.cur.skein (some t.toNat)).length))))

end Sys2Proof.Machine
end

