-- ==== Sys2Proof/Machine/Gang.lean ====
section
/-! DEFINITION. Machine/Gang.lean: bind records and slot tables, the start and resume of a bolt, the end of a skein, and
the watchdog (R73, R114, R118, R135, R152, R192, R261 to R269, R274, R316). -/

namespace Sys2Proof.Machine

/-! ### Bind records (R263, R264) -/

/-- Word `i` of a record as a number. -/
def bindWord (ws : List Word) (i : Nat) : Nat := (nth 0 ws i).toNat
def bindValid (ws : List Word) : Bool := bit (bindWord ws 0) 31
def bindKind (ws : List Word) : Nat := bits (bindWord ws 0) 30 28
def bindCtx (ws : List Word) : Nat := bits (bindWord ws 0) 27 22
def bindPrio (ws : List Word) : Nat := bits (bindWord ws 0) 21 19
def bindLslot (ws : List Word) : Nat := bits (bindWord ws 0) 11 0
def bindSkein (ws : List Word) : Nat := bits (bindWord ws 1) 31 29
def bindNskein (ws : List Word) : Nat := bits (bindWord ws 1) 28 25
def bindFuse (ws : List Word) : Bool := bit (bindWord ws 1) 24
def bindCap (ws : List Word) : Nat := bits (bindWord ws 1) 23 21
def bindBale (ws : List Word) : Nat := bits (bindWord ws 1) 19 16
def bindBolt (ws : List Word) : Nat := bits (bindWord ws 1) 15 0
def bindNbolt (ws : List Word) : Nat := bits (bindWord ws 2) 31 16
def bindNbale (ws : List Word) : Nat := bits (bindWord ws 2) 4 0
def bindNstrand (ws : List Word) : Nat := bits (bindWord ws 4) 20 10
def bindScratch (ws : List Word) : Nat := bits (bindWord ws 4) 9 0 * 512
def bindWslots (ws : List Word) : Nat := bindWord ws 5
def bindTiles (ws : List Word) : Nat := bits (bindWord ws 6) 15 0

/-- Every zero field is zero; SAVEREF is one of them for KIND 0. -/
def bindZeros (ws : List Word) : Bool :=
  bits (bindWord ws 0) 18 12 == 0 && bits (bindWord ws 1) 20 20 == 0 && bits (bindWord ws 2) 15 5 == 0 &&
  bits (bindWord ws 3) 31 24 == 0 && bits (bindWord ws 4) 31 21 == 0 && bits (bindWord ws 6) 31 16 == 0 &&
  (bindKind ws != 0 || bindWord ws 7 == 0)

/-- The admitted launch in an entry of the pending-launch store. -/
def State.launchAt (s : State) (ctx lslot : Nat) : Option (Nat × Launch) :=
  (Tab.list s.launches).find? (fun e => e.2.state == .admitted && e.2.lslot == lslot && e.2.ctx == ctx)

/-- The kernel of a record's launch. -/
def State.bindKern (s : State) (ws : List Word) : Option Kernel :=
  (s.launchAt (bindCtx ws) (bindLslot ws)).map (fun e => e.2.kern)

/-- The bytes of scratch of a record's skein. -/
def State.bindSize (s : State) (ws : List Word) : Nat := (s.bindKern ws).elim 0 Kernel.scratch

/-- Whether two records of a core ask for something in common (R264). -/
def State.bindClash (s : State) (a b : List Word) : Bool :=
  decide (0 < s.bindSize a ∧ 0 < s.bindSize b ∧ bindScratch a < bindScratch b + s.bindSize b ∧
    bindScratch b < bindScratch a + s.bindSize a) ||
  (bindTiles a &&& bindTiles b) != 0 || (bindWslots a &&& bindWslots b) != 0

/-- Strands times registers of a record (R65). -/
def State.bindRegs (s : State) (ws : List Word) : Nat := bindNstrand ws * (s.bindKern ws).elim 0 Kernel.vregs

/-- The records valid on a core, but for one slot's. -/
def State.boundOn (s : State) (core slot : Nat) : List (List Word) :=
  (Tab.list (s.core core).slots).filterMap (fun e => if e.1 ≠ slot ∧ e.2.status = 1 then some e.2.words else none)

/-- Whether a context is resident in a core's partition. DESIGN CHOICE (log 73): READY, RUNNING, or selected for restore. -/
def State.residentCtx (s : State) (core ctx : Nat) : Bool := match s.ctx? ctx with
  | none => false
  | some c =>
    (c.state == .ready || c.state == .running || c.restoring.isSome) && (match s.part? c.partition with
      | some p => p.quads.contains (quadOf core)
      | none => false)

/-- The refusals of R264. -/
def State.bindRefused (s : State) (core slot : Nat) (ws : List Word) : Bool :=
  let others := s.boundOn core slot
  let kern := s.bindKern ws
  !bindZeros ws || decide (2 ≤ bindKind ws) || others.any (s.bindClash ws) ||
  (!others.isEmpty && decide (65536 < s.bindRegs ws + (others.map s.bindRegs).sum)) ||
  kern.elim false (fun k => decide (popCount 32 (bindWslots ws) < slotsFor (bindNstrand ws) k.minCode ∨
    popCount 16 (bindTiles ws) < k.tiles)) ||
  !s.residentCtx core (bindCtx ws)

/-- The bolt of a launch with an index. -/
def State.boltOf (s : State) (launch index : Nat) : Option (Nat × Bolt) :=
  (Tab.list s.bolts).find? (fun e => e.2.launch == launch && e.2.index == index)

/-- BIND_RECORD_WRITE (R264): the hardware judges no more than the refusals. A slot whose skein has started is cleared by the
hardware alone (log 35). -/
def execBindRecordWrite (core slot : Nat) (words : List Word) (s : State) : Out :=
  let put (b : Option BindSlot) : State := s.modCore core (fun c => { c with slots := Tab.set c.slots slot b })
  let started : Bool := match Tab.get (s.core core).slots slot with
    | some b => b.skein.isSome
    | none => false
  if 768 ≤ core ∨ 32 ≤ slot ∨ words.length ≠ 8 ∨ started then .next s
  else if ¬ bindValid words then .next (put none)
  else .next (put (some { words := words, status := if s.bindRefused core slot words then 2 else 1, skein := none }))

/-! ### Return-stack blocks (R135) -/

/-- Whether a block fits a context's pool at an offset. -/
def blockFits (c : Context) (off n : Nat) : Bool :=
  decide (off + n ≤ c.poolSize) && c.blocks.all (fun b => decide (off + n ≤ b.1 ∨ b.1 + b.2.1 ≤ off))

/-- Give a skein (`owner`: bolt × 8 + index) its block, where the firmware places it (log 26): its offset. A relaunched
skein keeps its own. -/
def State.giveBlock (s : State) (ctx owner n : Nat) : Option (Option Nat × State) :=
  if n = 0 then some (none, s)
  else match s.ctx? ctx with
    | none => none
    | some c =>
      match c.blocks.find? (fun b => b.2.2 == owner) with
      | some b => some (some (c.poolVa + b.1), s)
      | none =>
        let any := Config.freeNat s.free % (c.poolSize / 16 + 1) * 16
        match (any :: 0 :: c.blocks.map (fun b => b.1 + b.2.1)).find? (fun o => blockFits c o n) with
        | none => none
        | some o => some (some (c.poolVa + o), { s with free := s.free + 1 }.modCtx ctx (fun x =>
            { x with blocks := x.blocks ++ [(o, n, owner)] }))

/-! ### Scratch allocations (R192, R214, R265) -/

/-- The words of a scratch range that hold anything: data, stand-ins, damage, poison. -/
def Scratch.usedWords (sc : Scratch) (lo n : Nat) : List Nat :=
  let ws := sc.data.map (fun e => e.1 / 16) ++
    sc.sel.flatMap (fun e => (List.range 4).map (wordAt (e.1 / 768) (e.1 % 768))) ++
    sc.eccSel.flatMap (fun e => (List.range 4).map (wordAt (e.1 / 768) (e.1 % 768))) ++
    sc.eccData.map Prod.fst ++ sc.poison.map Prod.fst
  (ws.filter (fun w => decide (lo ≤ w * 16 ∧ w * 16 < lo + n))).dedup

/-- A skein's allocation reads zero at its start. -/
def State.zeroScratch (s : State) (core lo n : Nat) : State :=
  ((s.scratch core).usedWords lo n).foldl (fun t w => t.scWrite core (w * 16) (List.replicate 16 0) none) s

/-- Write a saved allocation back through the ordinary path. -/
def State.fillScratch (s : State) (core lo : Nat) (saved : Cells Byte) : State :=
  ((saved.map (fun e => e.1 / 16)).dedup).foldl (fun t w => t.scWrite core (lo + w * 16) (readBytes saved (w * 16) 16) none) s

/-! ### What the scheduler firmware keeps to (R114, R118, R204, R261 to R263, R266) -/

/-- A slot of a cluster that is bound and waits for its bolt: core, slot, record. -/
def State.waitingBinds (s : State) (cluster ctx lslot bolt : Nat) : List (Nat × Nat × List Word) :=
  (clusterCores cluster).flatMap (fun c => (Tab.list (s.core c).slots).filterMap (fun e =>
    if e.2.status = 1 ∧ e.2.skein = none ∧ bindCtx e.2.words = ctx ∧ bindLslot e.2.words = lslot ∧
       bindBolt e.2.words = bolt then some (c, e.1, e.2.words) else none))

/-- The core number within the cluster that a record gives peer `k` (R263). -/
def bindPeer (ws : List Word) (k : Nat) : Nat := bindWord ws 3 / 8 ^ k % 8

/-- The rank of a core's quadrant among those of a partition: the bale's index (R261). -/
def Partition.rank (p : Partition) (core : Nat) : Nat := (p.quads.filter (fun q => decide (q < quadOf core))).length

/-- Strands of a record (R13). -/
def strandsOf (os : List (List Word)) : Nat := (os.map bindNstrand).sum

/-- Whether a core belongs to a fused bolt that lives on it: no other skein is bound there (R262). -/
def State.fusedHere (s : State) (core : Nat) : Bool :=
  (Tab.list s.bolts).any (fun b => b.2.fused && (b.2.state == .running || b.2.state == .halting) && b.2.cores.contains core)

/-- A record of a start says what the launch, its partition and the placement say (R261 to R263), on a core that can run the
skein (R114, R192, R204) and, for a fused bolt, holds no other. -/
def State.recordKept (s : State) (l : Launch) (p : Partition) (kept : Option Nat) (es : List (Nat × Nat × List Word))
    (e : Nat × Nat × List Word) : Bool :=
  let ws := e.2.2
  let c := s.core e.1
  let others := s.boundOn e.1 e.2.1
  !s.bindRefused e.1 e.2.1 ws &&
  decide (bindNstrand ws = l.kern.strands ∧ bindNbolt ws = l.nbolt ∧ bindNbale ws = p.quads.length ∧ bindPrio ws = l.prio ∧
    bindCap ws = p.settings.cap ∧ bindFuse ws = l.fuse ∧ bindBale ws = kept.getD (p.rank e.1) ∧ bindBolt ws < l.nbolt ∧
    bindScratch ws + l.kern.scratch ≤ 393216 ∧ bindNstrand ws + strandsOf others ≤ 1024) &&
  es.all (fun o => bindPeer ws (bindSkein o.2.2) == o.1 % 8) &&
  !c.offline && (eligible c.lanes (bindCap ws) (bindNstrand ws) (slotsFor (bindNstrand ws) l.kern.minCode) != []) &&
  (!l.fuse || others.isEmpty) && others.all (fun o => !bindFuse o) && !s.fusedHere e.1

/-- A rigid skein resumes only on a core as wide as its wefts (R118). -/
def State.nativeFor (s : State) (l : Launch) (bo : Bolt) (e : Nat × Nat × List Word) : Bool :=
  !l.kern.rigid || bo.skeins.all (fun k => match s.skein? k with
    | some sk => sk.index != bindSkein e.2.2 || (Tab.list sk.wefts).all (fun w => decide (w.2.g ≤ 4 * (s.core e.1).lanes))
    | none => true)

/-- Whether a core could take one more skein of a launch beside the records of others on it (R13, R261, R262, R264). -/
def State.coreFits (s : State) (cap : Nat) (l : Launch) (core : Nat) (but : List (Nat × Nat × List Word)) : Bool :=
  let c := s.core core
  let others := (Tab.list c.slots).filterMap (fun e =>
    if e.2.status = 1 ∧ ¬ (but.any (fun x => x.1 == core && x.2.1 == e.1)) then some e.2.words else none)
  let v := slotsFor l.kern.strands l.kern.minCode
  let clear (b : Nat) : Bool := decide (b + l.kern.scratch ≤ 393216) && others.all (fun o =>
    decide (b + l.kern.scratch ≤ bindScratch o ∨ bindScratch o + s.bindSize o ≤ b))
  !c.offline && (eligible c.lanes cap l.kern.strands v != []) && decide (others.length < 32) &&
  (!l.fuse || others.isEmpty) && others.all (fun o => !bindFuse o) && !s.fusedHere core &&
  decide (l.kern.strands + strandsOf others ≤ 1024 ∧ v + (others.map (fun o => popCount 32 (bindWslots o))).sum ≤ 32 ∧
    l.kern.tiles + (others.map (fun o => popCount 16 (bindTiles o))).sum ≤ 16 ∧
    l.kern.strands * l.kern.vregs + (others.map s.bindRegs).sum ≤ 65536) &&
  (l.kern.scratch == 0 || (0 :: others.map (fun o => alignUp (bindScratch o + s.bindSize o) 512)).any clear)

/-- Order of binding: PRIO descending, then eligibility (R266). -/
def Launch.before (a b : Launch) : Bool := decide (b.prio < a.prio ∨ (a.prio = b.prio ∧ a.eligible < b.eligible))

/-- How many bolts of a launch no record stands for. -/
def State.unbound (s : State) (id : Nat) (l : Launch) : Nat :=
  let bound := s.cores.flatMap (fun c => (Tab.list c.2.slots).filterMap (fun e =>
    if e.2.status = 1 ∧ e.2.skein = none ∧ bindCtx e.2.words = l.ctx ∧ bindLslot e.2.words = l.lslot then
      some (bindBolt e.2.words) else none))
  let live := (Tab.list s.bolts).filterMap (fun e =>
    if e.2.launch = id ∧ e.2.state ≠ .pending then some e.2.index else none)
  l.nbolt - (bound ++ live ++ l.retired).dedup.length

/-- Whether a bolt ahead of a launch's in the order could be bound where this one starts: then this one is not bound yet
(R266). A cosched launch is bound in one pass, and stands outside the order. -/
def State.passedOver (s : State) (part cluster : Nat) (l : Launch) (es : List (Nat × Nat × List Word)) : Bool :=
  let cap := (s.part? part).elim 5 (fun p => p.settings.cap)
  !l.kern.cosched && (Tab.list s.launches).any (fun o => o.2.state == .admitted && !o.2.kern.cosched && o.2.before l &&
    (s.ctx? o.2.ctx).elim false (fun c => c.partition == part && (c.state == .ready || c.state == .running)) &&
    decide (0 < s.unbound o.1 o.2) &&
    decide (o.2.nskein ≤ ((clusterCores cluster).filter (fun c => s.coreFits cap o.2 c es)).length))

/-- Whether every bolt of a cosched launch is on cores, over, or bound: it is bound in one pass (R266). -/
def State.onePass (s : State) (p : Partition) (id : Nat) (l : Launch) : Bool :=
  !l.kern.cosched || (List.range l.nbolt).all (fun i => l.retired.contains i || (s.boltOf id i).isSome ||
    p.clusters.any (fun cl => (s.waitingBinds cl l.ctx l.lslot i).length == l.nskein))

/-- Whether the scheduler starts these records: it writes only what R114, R118, R261 to R263, R266 and R267 let it write, so
others start nothing (log 35); and none while a PARTSET waits to write settings, which change while no context runs (R322). -/
def State.schedKeeps (s : State) (cluster id : Nat) (l : Launch) (old : Option Bolt) (kind : Nat)
    (es : List (Nat × Nat × List Word)) : Bool :=
  match (s.ctx? l.ctx).bind (fun c => (s.part? c.partition).map (fun p => (c.partition, p))) with
  | none => false
  | some (part, p) =>
    p.pending.isNone && es.all (s.recordKept l p (old.map Bolt.bale) es) &&
    (if kind = 0 then es.all (fun e => bindNskein e.2.2 == l.nskein) && s.onePass p id l && !s.passedOver part cluster l es
      else old.all (fun bo => es.all (s.nativeFor l bo)))

/-! ### The start of a bolt (R261, R265, R269, R316) -/

/-- The core tiles of a mask, ascending. -/
def tilesOf (mask : Nat) : List Nat := (List.range 16).filter (fun j => bit mask j)

/-- The acquire with which a skein starts: its L1 group empties, the load entries of its context die (R316). -/
def State.startAcquire (s : State) (k : Nat) : State :=
  match s.skein? k with
  | none => s
  | some sk => ((Tab.list sk.wefts).foldl (fun t w => t.acquire k w.1) s).killContext (sk.core.getD 0) sk.ctx

/-- A slot holds a skein. -/
def State.fillSlot (s : State) (core slot k : Nat) : State :=
  s.modCore core (fun c => { c with slots := Tab.upd c.slots slot (fun b => { b with skein := some k }) })

/-- The strands and wefts of a new skein. -/
def freshStrands (n : Nat) (entry : Word) : Tab Strand := (List.range n).map (fun i => (i, some (Strand.start entry)))
def freshWefts (n g : Nat) : Tab Weft := (List.range ((n + g - 1) / g)).map (fun j => (j * g, some (Weft.fresh g)))

/-- The start grant (R114, R116). -/
def startGrant (lanes cap nstrand v : Nat) (kern : Kernel) : Nat :=
  setGrant (eligible lanes cap nstrand v) (widthOf kern.minCode) (widthOf kern.maxCode) false

/-- A new skein of a bolt from its record (R61, R76, R265). -/
def State.newSkein (s : State) (l : Launch) (b core : Nat) (ws : List Word) (block : Option Nat) : Skein :=
  let n := bindNstrand ws
  let v := slotsFor n l.kern.minCode
  { ctx := l.ctx, bolt := b, index := bindSkein ws, core := some core, kern := l.kern, nstrand := n,
    nbolt := bindNbolt ws, nbale := bindNbale ws, args := l.args, scrBase := bindScratch ws, wslots := v,
    coreTiles := tilesOf (bindTiles ws), prio := bindPrio ws, cap := bindCap ws, rsBlock := block, jtimeout := 4096,
    dbgSel := 0, strands := freshStrands n l.kern.entry,
    wefts := freshWefts n (startGrant (s.core core).lanes (bindCap ws) n v l.kern), bars := [], tiles := [], pmc := [],
    acqs := [], cwaits := [], doneCopies := [], copyFrozen := false, savedScratch := [], savedInj := none }

/-- Start one skein of a bolt with KIND 0: its block, its record, its scratch; `none` while the pool has no room. DESIGN CHOICE
(log 73): the block is given here, at the bolt's start, and not when the record is written. -/
def State.startSkein (s : State) (l : Launch) (b : Nat) (e : Nat × Nat × List Word) : Option State :=
  let n := if l.kern.rstack ≤ 4 then 0 else bindNstrand e.2.2 * rsArea l.kern.rstack
  match s.giveBlock l.ctx (b * 8 + bindSkein e.2.2) n with
  | none => none
  | some (block, s1) =>
    let k := s1.nextId
    let s2 := ({ s1 with skeins := Tab.set s1.skeins k (some (s1.newSkein l b e.1 e.2.2 block)) } : State).fresh
    let s3 := ((s2.zeroScratch e.1 (bindScratch e.2.2) l.kern.scratch).fillSlot e.1 e.2.1 k).modBolt b (fun x =>
      { x with skeins := x.skeins ++ [k] })
    some s3

/-- A saved strand as it resumes (R80, R144, R152). -/
def Strand.resume (t : Strand) (clock : Nat) : Strand :=
  { t with
    clkHi := none
    status := match t.status with
      | .sleeping d => if d ≤ clock then .ready else t.status
      | st => st }

/-- A saved weft as it resumes (R118, R119, R140): timers run on, arrivals count afresh. -/
def Weft.resume (w : Weft) (clock : Nat) : Weft :=
  { w with
    records := w.records.map (fun r => { r with deadline := r.deadline.map (· + clock) })
    sliceSince := w.sliceSince.map (fun e => (e.1, clock)) }

/-- Resume one skein of a bolt with KIND 1 on the record's core (R118, R214, R223, R260, R269). -/
def State.resumeSkein (s : State) (k : Nat) (e : Nat × Nat × List Word) : State :=
  match s.skein? k with
  | none => s
  | some sk =>
    let c := e.1
    let s1 := s.modSkein k (fun x => { x with
      core := some c, scrBase := bindScratch e.2.2, coreTiles := tilesOf (bindTiles e.2.2), prio := bindPrio e.2.2,
      cap := bindCap e.2.2, savedScratch := [], savedInj := none
      strands := x.strands.map (fun (t : Nat × Option Strand) => (t.1, t.2.map (fun u => u.resume s.clock)))
      wefts := x.wefts.map (fun (t : Nat × Option Weft) => (t.1, t.2.map (fun u => u.resume s.clock))) })
    let s2 := (s1.zeroScratch c (bindScratch e.2.2) sk.kern.scratch).fillScratch c (bindScratch e.2.2) sk.savedScratch
    let onCore (j : Nat) : Bool := decide (j ≠ k) && ((s2.skein? j).bind Skein.core) == some c
    let s3 := s2.modCore c (fun x => match sk.savedInj with
      | some w => { x with abftinj := w, abftSkein := k, reuse := [] }
      | none => { x with reuse := [], abftinj := if onCore x.abftSkein then x.abftinj else 0 })
    { s3.fillSlot c e.2.1 k with
      copies := s3.copies.map (fun (x : Nat × Option Copy) => (x.1, x.2.map (fun (y : Copy) =>
        if y.skein = k then { y with core := c } else y))) }

/-- Send a held request of a resumed or replayed skein again, under its core, generation and rights of now (R183). -/
def State.resend (s : State) (id : Nat) : State :=
  match s.req? id with
  | none => s
  | some r =>
    match (s.skein? r.skein).bind Skein.core with
    | none => s
    | some c => (s.modReq id (fun x => { x with
        core := c, gen := s.genOf r.ctx, rdRights := s.rightsVec c r.ctx 0, wrRights := s.rightsVec c r.ctx 1,
        group := s.l1Key r.skein, reached := none, unreached := 0, entry := none })).send id

/-- The strands of a resumed skein go on: held requests leave again, and what waits is counted afresh (R118, R183,
R279). -/
def State.releaseSkein (s : State) (k : Nat) : State :=
  match s.skein? k with
  | none => s
  | some sk =>
    let held := (Tab.list s.reqs).filterMap (fun e => match e.2.stage with
      | .held .. => if e.2.skein = k then some e.1 else none
      | _ => none)
    let s1 := held.foldl State.resend s
    let s2 := (Tab.list sk.wefts).foldl (fun t w => ((t.settleXlane k w.1).settleSlice k w.1).settleWsync k w.1) s1
    let s3 := s2.settleSetw k
    let s4 := (List.range 16).foldl (fun t n => State.settleBarrier 1025 t k false n) s3
    (List.range 8).foldl (fun t n => State.settleBarrier 1025 t k true n) s4

/-- The context runs (R326): READY becomes RUNNING with its first bound bolt. -/
def State.ctxRuns (s : State) (ctx : Nat) : State :=
  s.modCtx ctx (fun c => if c.state = .ready then { c with state := .running } else c)

/-- Whether records are NSKEIN records of distinct skeins on distinct cores that agree, the skeins of the image that have not
ended among them (R265; log 36). -/
def State.boltWhole (s : State) (old : Option Bolt) (es : List (Nat × Nat × List Word)) : Bool :=
  let ks := es.map (fun e => bindSkein e.2.2)
  es.all (fun e => bindNskein e.2.2 == es.length && bindKind e.2.2 == bindKind (es.headD (0, 0, [])).2.2) &&
  decide (ks.dedup = ks ∧ (es.map Prod.fst).dedup = es.map Prod.fst) &&
  (if bindKind (es.headD (0, 0, [])).2.2 = 0 then ks == List.range es.length
    else old.elim false (fun bo => bo.skeins.all (fun k => (s.skein? k).elim true (fun sk => ks.contains sk.index)) &&
      ks.all (fun i => decide (i < bo.nskein))))

/-- The number of a saved bolt's skein with an index. -/
def State.savedSkein (s : State) (bo : Bolt) (ix : Nat) : Option Nat :=
  bo.skeins.find? (fun k => (s.skein? k).elim false (fun sk => sk.index == ix))

/-- One record of a KIND 1 start: its skein resumes; the slot of one that had ended is cleared (R265). -/
def State.resumeRecord (s : State) (bo : Bolt) (e : Nat × Nat × List Word) : State :=
  match s.savedSkein bo (bindSkein e.2.2) with
  | some k => s.resumeSkein k e
  | none => s.modCore e.1 (fun c => { c with slots := Tab.set c.slots e.2.1 none })

/-- The core of the record of skein 0. -/
def leadCore (es : List (Nat × Nat × List Word)) (d : Nat) : Nat :=
  ((es.find? (fun e => bindSkein e.2.2 == 0)).map Prod.fst).getD d

/-- The record of a bolt that starts anew: a relaunched one keeps its number, its BALE and its count (R261, R273). -/
def Bolt.started (l : Launch) (id index : Nat) (old : Option Bolt) (es : List (Nat × Nat × List Word)) : Bolt :=
  { ctx := l.ctx, launch := id, lslot := l.lslot, index := index,
    bale := (old.map Bolt.bale).getD (bindBale (es.headD (0, 0, [])).2.2), state := .running, skeins := [],
    nskein := l.nskein, lead := leadCore es 0, cores := es.map Prod.fst, fused := l.fuse, dirty := false, watchdog := 0,
    relaunches := (old.map Bolt.relaunches).getD 0, bars := [], shadows := (old.map Bolt.shadows).getD [] }

/-- A KIND 0 start: every skein's block, record and scratch; nothing while the pool has no room for a block. -/
def State.startNew (s : State) (id : Nat) (l : Launch) (index : Nat) (old : Option (Nat × Bolt))
    (es : List (Nat × Nat × List Word)) : State :=
  let b := (old.map Prod.fst).getD s.nextId
  let s0 := if old.isNone then s.fresh else s
  let s1 : State := { s0 with bolts := Tab.set s0.bolts b (some (Bolt.started l id index (old.map Prod.snd) es)) }
  match es.foldl (fun (o : Option State) x => o.bind (fun t => t.startSkein l b x)) (some s1) with
  | none => s
  | some s2 => (((s2.bolt? b).elim [] Bolt.skeins).foldl State.startAcquire s2).ctxRuns l.ctx

/-- A KIND 1 start: every skein goes on from its image. -/
def State.startSaved (s : State) (b : Nat) (bo : Bolt) (es : List (Nat × Nat × List Word)) : State :=
  let s1 := es.foldl (fun t x => t.resumeRecord bo x) s
  let s2 := (bo.skeins.foldl State.startAcquire s1).modBolt b (fun x => { x with
    state := .running, lead := leadCore es x.lead, cores := es.map Prod.fst })
  if s.mayIssue bo.ctx then bo.skeins.foldl State.releaseSkein s2 else s2

/-- BOLT_START (R265): every skein of the bolt starts in one cc, anew or from its image. A core whose scratchpad rebuilds a
group takes no allocation before the rebuild ends (R202). -/
def execBoltStart (cluster ctx lslot bolt : Nat) (s : State) : Out :=
  let es := sortBy (fun a b => decide (bindSkein a.2.2 ≤ bindSkein b.2.2)) (s.waitingBinds cluster ctx lslot bolt)
  match es, s.launchAt ctx lslot with
  | e :: _, some (id, l) =>
    let old := s.boltOf id bolt
    let kind := bindKind e.2.2
    let due : Bool := match old with
      | some x => x.2.state == (if kind = 0 then BoltState.pending else .saved)
      | none => kind == 0 && !l.retired.contains bolt
    let rebuilds : Bool := es.any (fun x => s.rebuildsOn x.1 && decide (0 < l.kern.scratch))
    if due ∧ ¬ rebuilds ∧ s.boltWhole (old.map Prod.snd) es ∧ s.schedKeeps cluster id l (old.map Prod.snd) kind es then
      .next (if kind = 0 then s.startNew id l bolt old es else match old with
        | some (b, bo) => s.startSaved b bo es
        | none => s)
    else .next s
  | _, _ => .next s

/-! ### The end of a skein, and the watchdog (R265, R274, R326) -/

/-- A RUNNING context with no bolt bound and none pending is READY again (R326). -/
def State.ctxIdles (s : State) (ctx : Nat) : State :=
  match s.ctx? ctx with
  | none => s
  | some c =>
    let left := (s.boltsOf ctx).any (fun b => (s.bolt? b).elim false (fun x => x.state != .killed))
    let unbound := (Tab.list s.launches).any (fun e => e.2.ctx == ctx && e.2.state == .admitted &&
      decide (e.2.retired.length < e.2.nbolt))
    if c.state = .running ∧ ¬ left ∧ ¬ unbound then s.modCtx ctx (fun x => { x with state := .ready }) else s

/-- A bolt whose last skein has ended retires; with its launch's last bolt the entry frees (R265, R311). -/
def State.retireBolt (s : State) (b : Nat) : State :=
  match s.bolt? b with
  | none => s
  | some bo =>
    if bo.state ≠ .running ∨ bo.skeins.any (fun k => (s.skein? k).isSome) then s
    else
      let s1 := ({ s with
        bolts := Tab.set s.bolts b none
        l1 := Cells.set [] s.l1 (1024 + b) [] } : State).modLaunch bo.launch (fun l => { l with retired := l.retired ++ [bo.index] })
      let s2 := match Tab.get s1.launches bo.launch with
        | some l => if l.nbolt ≤ l.retired.length then s1.freeLaunch bo.launch else s1
        | none => s1
      s2.ctxIdles bo.ctx

/-- SKEIN_END (R265): every strand has exited, every copy has retired, every engine operation has completed. -/
def execSkeinEnd (skein : Nat) (s : State) : Out :=
  match s.skein? skein with
  | none => .next s
  | some sk =>
    let busy := (Tab.list s.copies).any (fun e => e.2.skein == skein) || (match sk.core with
      | some c => (s.core c).engine.any (fun o => o.skein == skein)
      | none => true)
    if sk.live ≠ [] ∨ busy ∨ ¬ s.mayIssue sk.ctx then .next s
    else
      let s1 := (s.freeSkein skein).modCtx sk.ctx (fun c => { c with
        blocks := c.blocks.filter (fun x => x.2.2 != sk.bolt * 8 + sk.index) })
      .next (s1.retireBolt sk.bolt)

/-- WATCHDOG (R274): the counter has reached 2^EXP. -/
def execWatchdog (bolt : Nat) (s : State) : Out :=
  match s.bolt? bolt with
  | none => .next s
  | some b =>
    let e := (s.ctx? b.ctx).elim 0 Context.wdexp
    if e = 0 ∨ b.watchdog < 2 ^ e ∨ (b.state ≠ .running ∧ b.state ≠ .halting) then .next s
    else .next (s.gangFault bolt 0x45 { src := coreId b.lead, strand := 0xFFFF, pc := 0, skeinIx := 0, info := 0 })

end Sys2Proof.Machine
end

