-- ==== Sys2Proof/Machine/Queue.lean ====
section
/-! DEFINITION. Machine/Queue.lean: taking commands from rings, completing them, doorbells, QRESET and the states of
queues (R340 to R346). A command queue's number is context × 64 + its number in the context; a partition's fixed queues
stand at 4,096 + 4 × partition + kind. -/

namespace Sys2Proof.Machine

def State.modQueue (s : State) (qn : Nat) (f : Queue → Queue) : State := { s with queues := Tab.upd s.queues qn f }
def fixedQueue (part kind : Nat) : Nat := 4096 + 4 * part + kind

/-- Where commands of the management port and of the scheduler mailbox come from. -/
def mgmtPort : Nat := 2 ^ 32
def schedBox : Nat := 2 ^ 32 + 1

/-! ### Completions (R343, R324) -/

/-- Commands of a queue taken and not completed. -/
def State.inProgress (s : State) (qn : Nat) : Nat := ((Tab.list s.pend).filter (fun e => e.2.queue == qn)).length

/-- The record of a command queue at a count (R341); the one at its head. -/
def State.recordAt (s : State) (q : Queue) (n : Nat) : Except (Nat × Nat) (List Byte) :=
  let r := q.rights s
  s.unitRead q.domain r.1 r.2.1 r.2.2 (q.base + n % 2 ^ q.l * 64) 64
def State.headRecord (s : State) (q : Queue) : Except (Nat × Nat) (List Byte) := s.recordAt q q.head

/-- Whether the record at the head waits for every earlier command (R343, ORDER). -/
def State.orderWaits (s : State) (qn : Nat) (q : Queue) : Bool :=
  s.inProgress qn != 0 && (match s.headRecord q with
    | .ok b => bit (fieldAt b 2 1) 0
    | .error _ => false)

/-- OPEN, ACTIVE and STALLED follow from the counts; DRAINING ends with the last command in progress (R345). -/
def State.settleQueue (s : State) (qn : Nat) : State :=
  match Tab.get s.queues qn with
  | none => s
  | some q =>
    let put (st : QState) : State := s.modQueue qn (fun x => { x with state := st })
    let busy : Bool := if q.kind ≤ 1 then decide (16 ≤ s.inProgress qn) || s.orderWaits qn q else !q.hasRoom
    match q.state with
    | .draining => if s.inProgress qn = 0 ∧ q.drops = [] then { s with queues := Tab.set s.queues qn none } else s
    | .closed => s
    | .error => s
    | _ => put (if q.head = q.tail then .qopen else if busy then .stalled else .active)

/-- A queue enters ERROR. -/
def State.queueError (s : State) (qn err : Nat) : State := s.modQueue qn (fun q => { q with state := .error, err := err })

/-- A CADDR within limits: 16-byte aligned, and a VA (R153, R343). -/
def caddrOk (caddr : Nat) : Bool := decide (caddr % 16 = 0 ∧ caddr + 16 ≤ 2 ^ 57)

/-- Write a completion of 16 bytes; `none` while its granule is held, or the queue is in ERROR. -/
def State.writeCompletion (s : State) (qn tag caddr status result : Nat) : Option State :=
  match Tab.get s.queues qn with
  | none => some s
  | some q =>
    if caddr = 0 ∨ ¬ caddrOk caddr then some s
    else if q.state = .error then none
    else
      let r := q.rights s
      match s.modWrite q.domain r.1 r.2.1 768 0 caddr (bytesOf 4 tag ++ bytesOf 2 status ++ bytesOf 2 0 ++ bytesOf 8 result) with
      | .ok t => some (t.unitSent 224 q.domain caddr 16)
      | .error c => (s.unitNack q.ctx q.domain caddr c 1).map (fun t => (t.spent caddr 0).queueError qn (if c = 0x100 then 3 else 2))

/-- Return a status and bytes to the management port or the scheduler mailbox. -/
def State.answer (s : State) (port : Bool) (status : Nat) (data : List Byte) : State :=
  { s with dev := { s.dev with answers := s.dev.answers ++ [{ port := port, status := status, data := data }] } }

/-- A command has completed: its completion is written now, or as soon as it can be. -/
def State.finish (s : State) (qn tag caddr status result : Nat) : State :=
  if qn = mgmtPort then s.answer true status (bytesOf 8 result)
  else if qn = schedBox then s.answer false status (bytesOf 8 result)
  else match s.writeCompletion qn tag caddr status result with
    | some t => t.settleQueue qn
    | none => ({ s with pend := Tab.set s.pend s.nextId (some
        { queue := qn, tag := tag, caddr := caddr, opcode := 0, subject := 0, done := some (status, result) }) } : State).fresh

/-- A command in progress ends. -/
def State.endPend (s : State) (id status result : Nat) : State :=
  match Tab.get s.pend id with
  | none => s
  | some p => ({ s with pend := Tab.set s.pend id none } : State).finish p.queue p.tag p.caddr status result

/-- The commands in progress with an opcode and a subject. -/
def State.pendOf (s : State) (opcode subject : Nat) : List Nat :=
  (Tab.list s.pend).filterMap (fun e => if e.2.opcode = opcode ∧ e.2.subject = subject ∧ e.2.done = none then some e.1 else none)

/-- All of them end. -/
def State.endPendOf (s : State) (opcode subject status result : Nat) : State :=
  (s.pendOf opcode subject).foldl (fun t id => t.endPend id status result) s

/-- Completions that could not be written are tried again. -/
def State.retryPend (s : State) : State :=
  (Tab.list s.pend).foldl (fun t e => match e.2.done with
    | some d =>
      match ({ t with pend := Tab.set t.pend e.1 none } : State).writeCompletion e.2.queue e.2.tag e.2.caddr d.1 d.2 with
      | some u => u.settleQueue e.2.queue
      | none => t
    | none => t) s

/-! ### Taking a command (R343 to R345) -/

/-- Whether a queue has a command that it may start. -/
def State.takeable (s : State) (qn : Nat) (q : Queue) : Bool :=
  decide (q.state = .qopen ∨ q.state = .active ∨ q.state = .stalled) && q.head != q.tail &&
    decide (s.inProgress qn < 16) && !s.orderWaits qn q

/-- Whether the module takes its next command from this queue: the highest PRIO of the context's command queues, and
round-robin among equals. -/
def State.arbiter (s : State) (qn : Nat) (q : Queue) : Bool :=
  if q.kind = 1 then true
  else
    let rivals := (Tab.list s.queues).filter (fun e => e.2.kind == 0 && e.2.ctx == q.ctx && s.takeable e.1 e.2)
    let top := listMax (rivals.map (fun e => e.2.prio))
    let same := (rivals.filter (fun e => e.2.prio == top)).map Prod.fst
    let next := (s.ctx? q.ctx).elim 0 (fun c => Cells.get 0 c.lastQueue top)
    ((same.find? (fun n => decide (next ≤ n))).orElse (fun _ => same.head?)) == some qn

/-- The opcodes of R344, and whether a command queue accepts them. -/
def opcodes : List (Nat × Bool) :=
  [(0x0001, true), (0x0002, true), (0x0003, true), (0x0004, true), (0x0005, true), (0x0101, false), (0x0102, false),
   (0x0103, false), (0x0104, false), (0x0105, false), (0x0106, false), (0x0107, false), (0x0108, false),
   (0x0109, false), (0x010A, false), (0x010B, false), (0x010C, false)]

/-- A command record taken, with the context it names. -/
structure Cmd where
  queue : Nat
  q : Queue
  tag : Nat
  caddr : Nat
  bytes : List Byte
  ctx : Nat
  deriving DecidableEq, Repr

/-- How a command's effect ends. -/
inductive CmdEnd where
  /-- With a status and a result. -/
  | fin (status result : Nat) (s : State)
  /-- In progress, waiting on a subject. -/
  | wait (subject : Nat) (s : State)
  /-- In progress, waiting for walks to end. -/
  | waitFor (ws : List Payload) (s : State)
  /-- It cannot start yet. -/
  | retry
  deriving DecidableEq, Repr

/-- Whether every operand byte outside the used ranges (offset, length) is zero. -/
def unusedZero (b : List Byte) (used : List (Nat × Nat)) : Bool :=
  (List.range 48).all (fun j => used.any (fun u => decide (u.1 ≤ 16 + j ∧ 16 + j < u.1 + u.2)) || (nth 0 b (16 + j) == 0))

/-- The byte of the context a command names. -/
def ctxByte (q : Queue) (op : Nat) : Option Nat := if q.kind = 1 ∧ op ≤ 5 then some 56 else none

/-- The head of a queue moves on, and the arbiter notes the queue. -/
def State.taken (s : State) (qn : Nat) (q : Queue) : State :=
  (s.modQueue qn (fun x => { x with head := (x.head + 1) % 2 ^ 32 })).modCtx q.ctx (fun c =>
    if q.kind = 0 then { c with lastQueue := Cells.set 0 c.lastQueue q.prio (qn + 1) } else c)

/-- A command is in progress. -/
def State.holdCmd (s : State) (qn tag caddr opcode subject : Nat) (ws : List Payload) : State :=
  ({ s with pend := Tab.set s.pend s.nextId (some
    { queue := qn, tag := tag, caddr := caddr, opcode := opcode, subject := subject, done := none, waits := ws }) } : State).fresh

/-- Take the record at a queue's head where it is a command of `opcode`, and run `body`. A record of an unknown opcode
is taken by any command's step. The checks come in the order of the statuses 2, 3, 1. -/
def State.command (s : State) (qn opcode : Nat) (used : List (Nat × Nat)) (body : Cmd → State → CmdEnd) : Out :=
  match Tab.get s.queues qn with
  | none => .next s
  | some q =>
    if 2 ≤ q.kind ∨ ¬ s.takeable qn q ∨ ¬ s.arbiter qn q then .next s
    else match s.headRecord q with
    | .error e => .next ((s.unitNack q.ctx q.domain e.2 e.1 0).elim s (fun t =>
        (t.fetched 224 q.domain q.base 64).queueError qn (if e.1 = 0x100 then 3 else 2)))
    | .ok b =>
      let op := fieldAt b 0 2
      let known := (opcodes.find? (fun e => e.1 == op)).map Prod.snd
      if known.isSome ∧ op ≠ opcode then .next s
      else
        let t := (s.fetched 224 q.domain q.base 64).taken qn q
        let tag := fieldAt b 4 4
        let caddr := fieldAt b 8 8
        let byte := ctxByte q op
        let ctx := byte.elim q.ctx (fun n => fieldAt b n 1)
        let all := used ++ (match byte with
          | some n => [(n, 1)]
          | none => [])
        let fail (st : Nat) : Out := .next ((t.finish qn tag caddr st 0).settleQueue qn)
        if known = none ∨ 2 ≤ fieldAt b 2 1 ∨ fieldAt b 3 1 ≠ 0 ∨ ¬ unusedZero b all then fail 2
        else if q.kind = 0 ∧ known = some false then fail 3
        else if ¬ caddrOk caddr ∨ (byte.isSome ∧ (s.ctx? ctx).elim true (fun c => c.domain != q.domain)) then fail 1
        else match body { queue := qn, q := q, tag := tag, caddr := caddr, bytes := b, ctx := ctx } t with
          | .fin st r u => .next ((u.finish qn tag caddr st r).settleQueue qn)
          | .wait subject u => .next ((u.holdCmd qn tag caddr opcode subject []).settleQueue qn)
          | .waitFor ws u => .next ((u.holdCmd qn tag caddr opcode 0 ws).settleQueue qn)
          | .retry => .next s

/-- The counts from one up to another. -/
def countsTo (a b : Nat) : List Nat := (List.range ((b + 2 ^ 32 - a % 2 ^ 32) % 2 ^ 32)).map (fun j => (a + j) % 2 ^ 32)

/-- Complete the commands of a queue that will not be taken with STATUS 5, as far as their records can be read now; one whose
record the homes refuse has no completion (DESIGN CHOICE, log 68). -/
def State.dropRecords (qn : Nat) : Nat → State → State
  | 0, s => s
  | n + 1, s =>
    match Tab.get s.queues qn with
    | none => s
    | some q =>
      match q.drops with
      | [] => s
      | d :: rest =>
        let t := (s.fetched 224 q.domain q.base 64).modQueue qn (fun x => { x with drops := rest })
        if q.state = .error then s
        else match s.recordAt q d with
          | .ok b => State.dropRecords qn n (t.finish qn (fieldAt b 4 4) (fieldAt b 8 8) 5 0)
          | .error e => (t.unitNack q.ctx q.domain e.2 e.1 0).elim s (fun u => State.dropRecords qn n (u.settleQueue qn))

/-- Nothing of a queue that has not been taken will be: it completes with STATUS 5. -/
def State.dropUntaken (s : State) (qn : Nat) : State :=
  match Tab.get s.queues qn with
  | none => s
  | some q =>
    let ds := q.drops ++ countsTo (q.head + q.dropped) q.tail
    State.dropRecords qn ds.length (s.modQueue qn (fun x => { x with drops := ds, dropped := (q.tail + 2 ^ 32 - q.head) % 2 ^ 32 }))

/-- A queue goes to DRAINING (R345). -/
def State.closeQueue (s : State) (qn : Nat) : State :=
  match Tab.get s.queues qn with
  | none => s
  | some q =>
    if q.state = .closed ∨ q.state = .draining then s
    else
      let t := s.modQueue qn (fun x => { x with state := .draining, err := 0 })
      (if q.kind ≤ 1 then t.dropUntaken qn else t).settleQueue qn

/-- A fault or event queue rewrites the record whose write failed, and resumes writing at its tail (R345, R346). -/
def State.resumeWrites (s : State) (qn : Nat) : State :=
  match Tab.get s.queues qn with
  | none => s
  | some q =>
    let t := match q.failed with
      | none => some s
      | some r =>
        if q.state = .error then none
        else (s.modQueue qn (fun x => { x with failed := none })).ringWrite qn r
    match t with
    | none => s
    | some u => if q.waiting = [] then u else u.drainEvents q.waiting.length qn

/-- What queues have put off while a granule of theirs was held goes on. -/
def State.settleQueues (s : State) : State :=
  (Tab.list s.queues).foldl (fun t e =>
    let u := if e.2.drops = [] then t else State.dropRecords e.1 e.2.drops.length t
    if e.2.failed.isSome ∨ e.2.waiting ≠ [] then u.resumeWrites e.1 else u) s

/-! ### Doorbells (R341, R342, R345, R346) -/

/-- A state's code in QSTAT (R341). -/
def QState.code : QState → Nat
  | .closed => 0
  | .qopen => 1
  | .active => 2
  | .stalled => 3
  | .draining => 4
  | .error => 5

/-- A read of a queue's doorbell block: HEAD at 0x04, TAIL at 0x08, QSTAT at 0x0C; a queue that is not open is CLOSED (R341). -/
def State.doorbellBlock (s : State) (qn off : Nat) : Word :=
  match Tab.get s.queues qn with
  | none => 0
  | some q => BitVec.ofNat 32 (match off with
    | 0x04 => if q.kind ≤ 1 then q.head else 0
    | 0x08 => if q.kind ≤ 1 then 0 else q.tail
    | 0x0C => q.state.code * 2 ^ 28 + (if q.state = .error then q.err * 2 ^ 24 else 0) + (if q.kind = 3 then q.lost else 0)
    | _ => 0)

/-- What R342 makes of a doorbell's value, with the count it moves and the other one: it moves, it is stale, or it is bad. -/
inductive Bell where
  | moves | stale | bad
  deriving DecidableEq, Repr

/-- A command queue's doorbell (R342). -/
def bellTail (q : Queue) (v : Nat) : Bell :=
  let m := 2 ^ 32
  let size := 2 ^ q.l
  if (v + m - q.head) % m ≤ size ∧ (v + m - q.tail) % m ≤ size then .moves
  else if 1 ≤ (q.tail + m - v) % m ∧ (q.tail + m - v) % m ≤ size then .stale
  else .bad
/-- A fault or event queue's: head and tail are exchanged. -/
def bellHead (q : Queue) (v : Nat) : Bell :=
  let m := 2 ^ 32
  let size := 2 ^ q.l
  if (q.tail + m - v) % m ≤ size ∧ (v + m - q.head) % m ≤ size then .moves
  else if 1 ≤ (q.head + m - v) % m ∧ (q.head + m - v) % m ≤ size then .stale
  else .bad

/-- Whether a write to MMIO of a domain is made by a host core that works for it and is not frozen (R341, R371). -/
def State.hostMay (s : State) (w : HostWrite) (domain : Nat) : Bool :=
  w.host.elim false (fun h => decide (h < 32) && !s.dev.frozenHosts.contains h) && w.domain == domain

/-- DOORBELL: a new tail of a command queue, a new head of a module-to-host queue. The commands that it shows to a DRAINING
queue complete with STATUS 5. -/
def execDoorbell (queue : Nat) (value : HostWrite) (s : State) : Out :=
  match Tab.get s.queues queue with
  | none => .next s
  | some q =>
    let v := value.value.toNat
    if q.state = .closed ∨ ¬ s.hostMay value q.domain then .next s
    else match (if q.kind ≤ 1 then bellTail q v else bellHead q v) with
      | .stale => .next s
      | .bad => .next (s.queueError queue 1)
      | .moves =>
        if q.kind ≤ 1 then
          let t := s.modQueue queue (fun x => { x with tail := v })
          .next ((if q.state = .draining then t.dropUntaken queue else t).settleQueue queue)
        else
          let t := (s.modQueue queue (fun x => { x with head := v })).settleQueue queue
          .next ((t.resumeWrites queue).settleQueue queue)

/-- QRESET (R341, R345): a write of 1 while a system, fault or event queue is in ERROR. -/
def execQreset (queue : Nat) (value : HostWrite) (s : State) : Out :=
  match Tab.get s.queues queue with
  | none => .next s
  | some q =>
    if value.value ≠ 1 ∨ ¬ s.hostMay value q.domain ∨ q.state ≠ .error ∨ q.kind = 0 then .next s
    else
      let t := s.modQueue queue (fun x => { x with state := .qopen, err := 0 })
      let u := if q.kind = 1 then (t.dropUntaken queue).modQueue queue (fun x => { x with tail := q.head, dropped := 0 }) else t.resumeWrites queue
      .next (u.settleQueue queue)

end Sys2Proof.Machine
end

