-- ==== Sys2Proof/Machine/SpecialRegs.lean ====
section
/-! DEFINITION. Machine/SpecialRegs.lean: the special registers, MFS and MTS (R76 to R81, R256, R274, R328 to R330). -/

namespace Sys2Proof.Machine

/-! ### Reading (R76, R78, R80, R328, R330) -/

/-- R129's number of a strand's state, as DBGSTATE gives it. -/
def Status.code : Status → Nat
  | .ready => 0
  | .pathwait _ => 1
  | .joinwait _ => 2
  | .rendezvous _ => 3
  | .parked _ => 4
  | .sleeping _ => 5
  | .traphold .. => 6
  | .exited => 7

/-- CSTAT (R78). -/
def State.cstat (s : State) (k : Nat) : Nat :=
  let mine := (Tab.list s.copies).filter (fun e => e.2.skein == k)
  Nat.min 256 mine.length + (if mine.any (fun e => e.2.parked.isSome) then 512 else 0)

/-- The strand that DBGSEL selects. -/
def Skein.selected (sk : Skein) : Option Strand := if sk.dbgSel < sk.nstrand then Tab.get sk.strands sk.dbgSel else none

/-- DBGSTATE (R330). -/
def Skein.dbgState (sk : Skein) : Nat := match sk.selected with
  | some t => t.status.code + (if t.active then 128 else 0)
  | none => 7

/-- The quadrants of a partition as a mask (R11). -/
def quadMask (qs : List Nat) : Nat := qs.foldl (fun m q => m ||| 2 ^ q) 0

/-- The value of a special register in a strand of a weft of grant `g`. DBGPC of a strand that the skein does not
have is a free value (log 26). -/
def State.readSr (s : State) (sk : Skein) (w : Nat) (wf : Weft) (i : Nat) (t : Strand) (n : Nat) : Nat :=
  let ctx := s.ctx? sk.ctx
  let part := ctx.bind (fun c => s.part? c.partition)
  let core := sk.core.getD 0
  let data := sk.kern.base + sk.kern.dataOff
  if n = 0x000 then i
  else if n = 0x001 then i - w
  else if n = 0x002 then i / wf.g
  else if n = 0x003 then wf.g
  else if n = 0x004 then turnsOf wf.g + (if wf.resliced then 16 else 0)
  else if n = 0x005 then sk.index
  else if n = 0x006 then (s.bolt? sk.bolt).elim 0 Bolt.index
  else if n = 0x007 then (s.bolt? sk.bolt).elim 0 Bolt.bale
  else if n = 0x008 then sk.nstrand
  else if n = 0x009 then (s.bolt? sk.bolt).elim 0 Bolt.nskein
  else if n = 0x00A then sk.nbolt
  else if n = 0x00B then sk.nbale
  else if n = 0x00C then coreId core
  else if n = 0x00D then s.domainOf sk.ctx % 65536
  else if n = 0x00E then sk.args
  else if n = 0x00F then sk.args / 2 ^ 32
  else if n = 0x010 then t.fpflags.toNat
  else if n = 0x011 then t.fpmode.toNat
  else if n = 0x012 then t.fptrapen.toNat
  else if n = 0x013 then sk.kern.level
  else if n = 0x014 then t.trapvec.toNat
  else if n = 0x015 then t.tpc.toNat
  else if n = 0x016 then t.tcause.toNat
  else if n = 0x017 then t.tval.toNat
  else if n ≤ 0x01F then wf.tmask / 2 ^ (32 * (n - 0x018))
  else if n = 0x020 then sk.jtimeout
  else if n = 0x021 then t.onChip.length + t.spilled
  else if n = 0x022 then sk.rsBase i
  else if n = 0x023 then sk.rsBase i / 2 ^ 32
  else if n = 0x024 then sk.kern.scratch
  else if n = 0x025 then data
  else if n = 0x026 then data / 2 ^ 32
  else if n = 0x028 then s.clock
  else if n = 0x029 then t.clkHi.elim (s.clock / 2 ^ 32) BitVec.toNat
  else if n = 0x030 then s.cstat s.cur.skein
  else if n = 0x040 then (s.scratch core).spstat
  else if n = 0x041 then (s.scratch core).spcnt
  else if n < 0x200 then Cells.get 0 sk.pmc (n - 0x080)
  else if n = 0x200 then
    sk.ctx + ctx.elim 0 (fun c => c.partition * 256) + (if s.privOf sk then 4096 else 0)
  else if n = 0x201 then s.genOf sk.ctx % 4096
  else if n = 0x202 then part.elim 0 (fun p => quadMask p.quads)
  else if n = 0x203 then part.elim 0 (fun p => p.settings.cap)
  else if n = 0x208 then ctx.elim 0 Context.tolexp
  else if n = 0x209 then (s.core core).abftinj.toNat
  else if n = 0x20A then ctx.elim 0 Context.wdexp
  else if n < 0x220 then s.keyRights core sk.ctx (n - 0x210)
  else if n = 0x220 then sk.dbgSel
  else if n = 0x221 then sk.dbgState
  else match sk.selected with
    | some x => x.pc.toNat
    | none => Config.freeNat s.free

/-- A read of CLOCKLO latches the high word (R80). -/
def Strand.latch (t : Strand) (clock n : Nat) : Strand :=
  if n = 0x028 then { t with clkHi := some (BitVec.ofNat 32 (clock / 2 ^ 32)) } else t

/-- The RSTs of strands whose flags have still to come (R81, R232). -/
def rstFlying (k : Nat) (act : List Nat) (r : Req) : Bool :=
  r.kind == .rst && r.skein == k && act.contains r.strand && !r.refused

/-- MFS (R81). -/
def execMfs (c : BitVec 1) (g : BitVec 3) (d : BitVec 6) (n : BitVec 10) (s : State) : Out :=
  s.word (.mfs c g d n) (fun sk t =>
    if n.toNat = 0x010 ∧ (Tab.list t.reqs).any (fun e => rstFlying t.cur.skein (t.acting g) e.2) then (false, t)
    else
      let wf := (Tab.get sk.wefts t.cur.weft).getD (Weft.fresh 8)
      let outs := t.laneOuts (fun i => guarded g (fun x =>
        .ok ((x.wv d.toNat (BitVec.ofNat 32 (t.readSr sk t.cur.weft wf i x n.toNat))).latch t.clock n.toNat)))
      (true, { t with free := t.free + 1 }.retire sk (.mfs c g d n) [d.toNat] outs))

/-! ### Writing (R77, R78, R256, R274, R328, R329) -/

/-- A register held per strand. -/
def Strand.writeSr (t : Strand) (n : Nat) (v : Word) : Strand :=
  if n = 0x010 then { t with fpflags := v.setWidth 5 }
  else if n = 0x011 then { t with fpmode := v.setWidth 3 }
  else if n = 0x012 then { t with fptrapen := v.setWidth 5 }
  else if n = 0x014 then { t with trapvec := v }
  else if n = 0x015 then { t with tpc := v }
  else if n = 0x016 then { t with tcause := v.setWidth 8 }
  else if n = 0x017 then { t with tval := v }
  else t

def perStrand (n : Nat) : Bool := decide (n = 0x010 ∨ n = 0x011 ∨ n = 0x012 ∨ (0x014 ≤ n ∧ n ≤ 0x017))

/-- ABFT_TOL's stored field (R256). -/
def tolField (v : Nat) : Nat := Nat.max 8 (Nat.min 20 (v % 32))
/-- WDLIMIT's stored field (R274). -/
def wdField (v : Nat) : Nat := let e := v % 64; if e = 0 then 0 else Nat.max 20 (Nat.min 34 e)
/-- JTIMEOUT's stored field (R78). -/
def jtField (v : Nat) : Nat := Nat.max 64 (v % 2 ^ 20)

/-- A key's rights change (R329): at once on core `c` (768 for none), within 2 µs on the others that hold a skein of
the context. -/
def State.writeKey (s : State) (c ctx key v : Nat) : State :=
  let others := (((Tab.list s.skeins).filterMap (fun e => if e.2.ctx = ctx then e.2.core else none)).dedup).filter (· != c)
  let s1 := s.modCtx ctx (fun x => { x with
    keys := Cells.set 0 x.keys key v
    keyWait := x.keyWait.filter (fun e => !(e.1 == c && e.2.1 == key)) ++
      others.map (fun j => (j, key, Cells.get 0 x.keys key, s.clock + 1700)) })
  s1.killContext c ctx

/-- A register held by more than one strand, with the value of the lowest lane that writes (R77). -/
def State.writeSr (s : State) (sk : Skein) (n : Nat) (v : Word) : State :=
  let k := s.cur.skein
  let core := sk.core.getD 0
  let x := v.toNat
  if n = 0x004 then (if bit x 4 then s.modWeft k s.cur.weft (fun w => { w with resliced := false }) else s)
  else if n = 0x020 then s.modSkein k (fun y => { y with jtimeout := jtField x })
  else if n = 0x208 then s.modCtx sk.ctx (fun y => { y with tolexp := tolField x })
  else if n = 0x209 then s.modCore core (fun y => { y with abftinj := v &&& 0xBFFFFE00#32, abftSkein := k })
  else if n = 0x20A then s.modCtx sk.ctx (fun y => { y with wdexp := wdField x })
  else if n = 0x220 then s.modSkein k (fun y => { y with dbgSel := x % 1024 })
  else if 0x210 ≤ n ∧ n ≤ 0x21F then s.writeKey core sk.ctx (n - 0x210) (x % 4)
  else s

/-- MTS (R77, R81). -/
def execMts (c : BitVec 1) (g : BitVec 3) (a : BitVec 6) (n : BitVec 10) (s : State) : Out :=
  s.word (.mts c g a n) (fun sk t =>
    let act := t.acting g
    if n.toNat = 0x010 ∧ (Tab.list t.reqs).any (fun e => rstFlying t.cur.skein act e.2) then (false, t)
    else if perStrand n.toNat then
      (true, t.putLanes (t.laneOuts (fun _ => guarded g (fun x => .ok (x.writeSr n.toNat (x.rv a.toNat))))))
    else match act with
      | [] => (true, t.passBy)
      | i :: rest =>
        let low := rest.foldl Nat.min i
        match Tab.get sk.strands low with
        | some x => (true, (t.writeSr sk n.toNat (x.rv a.toNat)).passBy)
        | none => (true, t.passBy))

end Sys2Proof.Machine
end

