-- ==== Sys2Proof/Machine/Context.lean ====
section
/-! DEFINITION. Machine/Context.lean: building a context, its keys, and its drain to DEAD and FREE (R321, R325 to R329,
R343, R344). -/

namespace Sys2Proof.Machine

/-! ### Building (R326, R329) -/

/-- The lowest context number not in use; `none` with 64 contexts. -/
def State.freeCtx (s : State) : Option Nat := (List.range 64).find? (fun n => (s.ctx? n).isNone)

/-- A context as it is built. -/
def Context.built (part domain gen : Nat) (priv : Bool) (keys : List Nat) : Context :=
  { state := .building, partition := part, domain := domain, priv := priv, ev := 0,
    keys := keys.zipIdx.foldl (fun m e => Cells.set 0 m e.2 (e.1 % 4)) [], gen := gen, lastQueue := [], tolexp := 16,
    wdexp := 30, ringVa := 0, ringSize := 0, ringTail := 0, poolVa := 0, poolSize := 0, blocks := [], shadows := [],
    keyWait := [], destroyWait := false, image := [], sharedSince := none, spilling := none, restoring := none,
    resumeOn := [] }

/-- A context is assigned a number and loads. -/
def State.buildContext (s : State) (n part domain : Nat) (priv : Bool) (keys : List Nat) : State :=
  { s with contexts := Tab.set s.contexts n (some (Context.built part domain (Cells.get 0 s.homes.gens domain) priv keys)) }

/-- A domain's stage-1 root on a module (R291). -/
def State.setRoot (s : State) (domain module dfn : Nat) : State :=
  s.modHomes (fun h => { h with roots := Tab.set h.roots (domain * 1024 + module) (some dfn) })

/-- BUILD (R326, R344). -/
def execBuild (queue : Nat) (s : State) : Out :=
  s.command queue 0x0101 [(16, 17), (40, 8)] (fun c t =>
    let priv := fieldAt c.bytes 16 1
    let keys := (List.range 16).map (fun k => fieldAt c.bytes (17 + k) 1)
    let root := fieldAt c.bytes 40 8
    match t.freeCtx with
    | none => .fin 1 0 t
    | some n =>
      if 1 < priv ∨ keys.any (fun k => decide (4 ≤ k)) ∨ 2 ^ 36 ≤ root then .fin 1 0 t
      else .wait n ((t.buildContext n c.q.partition c.q.domain (priv == 1) keys).setRoot c.q.domain t.modNo root))

/-- CONTEXT_BUILT (R326). -/
def execContextBuilt (ctx : Nat) (s : State) : Out :=
  match s.ctx? ctx with
  | none => .next s
  | some c =>
    if c.state ≠ .building then .next s
    else .next ((s.modCtx ctx (fun x => { x with state := .ready })).endPendOf 0x0101 ctx 0 ctx)

/-! ### Keys (R329) -/

/-- The context a system command names in byte 16, where the queue's domain has it. -/
def State.namedCtx (s : State) (c : Cmd) : Option (Nat × Context) :=
  let n := fieldAt c.bytes 16 1
  match s.ctx? n with
  | some x => if x.domain = c.q.domain ∧ x.state ≠ .dead then some (n, x) else none
  | none => none

/-- SETKEYS (R329, R344): it completes when every core has applied the keys. -/
def execSetkeys (queue : Nat) (s : State) : Out :=
  s.command queue 0x0103 [(16, 17)] (fun c t =>
    let keys := (List.range 16).map (fun k => fieldAt c.bytes (17 + k) 1)
    match t.namedCtx c with
    | none => .fin 1 0 t
    | some (n, _) =>
      if keys.any (fun k => decide (4 ≤ k)) then .fin 1 0 t
      else
        let u := keys.zipIdx.foldl (fun (x : State) e => x.writeKey 768 n e.2 e.1) t
        if (u.ctx? n).elim true (fun x => x.keyWait.isEmpty) then .fin 0 0 u else .wait n u)

/-- A core applies a change of a context's keys; SETKEYS completes with the last. -/
def State.applyKey (s : State) (ctx : Nat) (e : Nat × Nat × Nat × Nat) : State :=
  let t := (s.modCtx ctx (fun x => { x with keyWait := x.keyWait.erase e })).killContext e.1 ctx
  if (t.ctx? ctx).elim true (fun x => x.keyWait.isEmpty) then t.endPendOf 0x0103 ctx 0 0 else t

/-- KEY_TABLE_UPDATE_APPLIED (R329): a core applies the oldest change on its way to it. -/
def execKeyTableUpdateApplied (ctx core : Nat) (s : State) : Out :=
  match (s.ctx? ctx).bind (fun x => x.keyWait.find? (fun e => e.1 == core)) with
  | none => .next s
  | some e => .next (s.applyKey ctx e)

/-- Every core has applied a change within 2 µs (R329); a SETKEYS ends with no change left on its way, also where a later one
has taken its place. -/
def State.settleKeys (s : State) : State :=
  (Tab.list s.contexts).foldl (fun t c =>
    let u := (c.2.keyWait.filter (fun e => decide (e.2.2.2 ≤ s.clock))).foldl (fun u e => u.applyKey c.1 e) t
    if c.2.keyWait = [] then u.endPendOf 0x0103 c.1 0 0 else u) s

/-! ### The drain (R327) -/

/-- Every command queue of a context closes (R345). -/
def State.closeQueues (s : State) (ctx : Nat) : State :=
  ((Tab.list s.queues).filterMap (fun e => if e.2.kind = 0 ∧ e.2.ctx = ctx then some e.1 else none)).foldl State.closeQueue s

/-- The slots of a context are cleared, and nothing waits for its fetches any more. -/
def State.clearSlots (s : State) (ctx : Nat) : State :=
  { s with
    cores := s.cores.foldl (fun m e => Cells.set CoreSt.reset m e.1 { e.2 with
      slots := e.2.slots.filter (fun x => match x.2 with
        | some b => bindCtx b.words != ctx
        | none => true) }) []
    fetches := s.fetches.filter (fun e => match e.2 with
      | some f => f.ctx != ctx
      | none => true) }

/-- DRAINING starts (R327): bolts are killed with no fault, launches and their ring records are discarded, shadows that
are OPEN, COMMITTED or FAILED are freed, and the queues close. -/
def State.startDrain (s : State) (ctx : Nat) : State :=
  match s.ctx? ctx with
  | none => s
  | some c =>
    let bs := (Tab.list s.bolts).filterMap (fun e => if e.2.ctx = ctx then some e.1 else none)
    let s1 := bs.foldl (fun t b => ((t.haltBolt b).freeBlocks b)) s
    let s2 : State := { s1 with
      bolts := s1.bolts.filter (fun e => !bs.contains e.1)
      launches := s1.launches.filter (fun e => match e.2 with
        | some l => l.ctx != ctx
        | none => true) }
    let s3 := (List.range ((Tab.list s.launches).filter (fun e => e.2.ctx == ctx)).length).foldl (fun t _ => t.fillEntry ctx) s2
    let s4 := (Tab.list c.shadows).foldl (fun t e =>
      if e.2.state = .preparing then t else (t.discard ctx c.domain e.1).freeSlotSh ctx e.1) s3
    ((s4.modCtx ctx (fun x => { x with state := .draining, destroyWait := false, spilling := none, restoring := none })).closeQueues
      ctx).clearSlots ctx

/-- Whether a request has been performed or refused: nothing of it is on its way to a home. -/
def Req.over (r : Req) : Bool := match r.stage with
  | .buffered => false
  | .outbound => false
  | .atHome => false
  | .walking => false
  | .remote _ => false
  | _ => true

/-- Whether a draining context's last effects are over. -/
def State.drained (s : State) (ctx : Nat) (c : Context) : Bool :=
  !(Tab.list c.shadows).any (fun e => e.2.state == .preparing) &&
  !(Tab.list s.reqs).any (fun e => e.2.ctx == ctx && !e.2.over) &&
  !(Tab.list s.queues).any (fun e => e.2.kind == 0 && e.2.ctx == ctx)

/-- The last steps of a drain (R327): the shadow of a publish that is over goes, the fault records close without replay, the
saved image is discarded. -/
def State.endDrain (s : State) (ctx : Nat) (c : Context) : State :=
  let s1 := (Tab.list c.shadows).foldl (fun u x => (u.discard ctx c.domain x.1).freeSlotSh ctx x.1) s
  (s1.modHomes (fun h => { h with faultRecs := h.faultRecs.filter (fun e => match e.2 with
    | some r => r.ctx != ctx
    | none => true) })).modCtx ctx (fun x => { x with state := .dead, image := [], sharedSince := none })

/-- A DEAD context, its last bytes counted, is FREE (R326, R335); what still waited on it completes with its DESTROY; a fixed queue whose context it was keeps key 0's rights (log
69). -/
def State.freeContext (s : State) (ctx : Nat) : State :=
  let s1 := s.settleMeters
  let u : State := { s1 with
    contexts := Tab.set s1.contexts ctx none
    queues := s1.queues.map (fun (e : Nat × Option Queue) => (e.1, e.2.map (fun (q : Queue) =>
      if q.ctx = ctx ∧ q.kind ≠ 0 then { q with ctx := 64 } else q)))
    reqs := s1.reqs.filter (fun r => match r.2 with
      | some x => x.ctx != ctx
      | none => true)
    shdops := s1.shdops.filter (fun o => match o.2 with
      | some x => x.ctx != ctx
      | none => true) }
  ((u.endPendOf 0x0101 ctx 0 ctx).endPendOf 0x0103 ctx 0 0).endPendOf 0x0102 ctx 0 0

/-- What is due of drains: a context that faulted before the save that its DESTROY waits for drains now; DRAINING ends in
DEAD, and DEAD in FREE, where the DESTROY completes (R326, R327). A queue of a draining context that has gone to ERROR closes
again (log 68). -/
def State.settleDrains (s : State) : State :=
  (Tab.list s.contexts).foldl (fun t e =>
    match e.2.state with
    | .faulted => if e.2.destroyWait then t.startDrain e.1 else t
    | .draining => if t.drained e.1 e.2 then t.endDrain e.1 e.2 else t.closeQueues e.1
    | .dead => t.freeContext e.1
    | _ => t) s

/-- A context is destroyed: at once, or, while it is being pre-empted, once it is saved (R327). -/
def State.destroyCtx (s : State) (ctx : Nat) : State :=
  match s.ctx? ctx with
  | none => s
  | some c =>
    if c.state = .preempting then s.modCtx ctx (fun x => { x with destroyWait := true })
    else if c.state = .draining ∨ c.state = .dead then s
    else s.startDrain ctx

/-- DESTROY (R326, R327, R344). -/
def execDestroy (queue : Nat) (s : State) : Out :=
  s.command queue 0x0102 [(16, 1)] (fun c t =>
    match t.namedCtx c with
    | none => .fin 1 0 t
    | some (n, _) => .wait n (t.destroyCtx n))

end Sys2Proof.Machine
end

