-- ==== Sys2Proof/Machine/Commands.lean ====
section
/-! DEFINITION. Machine/Commands.lean: the queue commands for launches, the event vector, roots, rings, queues, the
return-stack pool and the quote (R135, R291, R311 to R314, R317, R339, R340, R343 to R345). -/

namespace Sys2Proof.Machine

/-! ### Launches and the event vector (R311 to R317, R344) -/

/-- Bytes that a command reads for a context, or the code and VA at which the read fails. -/
def State.hostRead (s : State) (ctx va n : Nat) : Except (Nat × Nat) (List Byte × State) :=
  match s.unitRead (s.domainOf ctx) (s.genOf ctx) 0 (s.rightsVec 768 ctx 0) va n with
  | .ok b => .ok (b, s.fetched 224 (s.domainOf ctx) va n)
  | .error c => .error c

/-- The end of a command whose access failed at a VA, with its flags: later while it is held or its home has no room for its
fault record, else STATUS 1 (R296, R343). -/
def State.failedAccess (s : State) (ctx domain flags : Nat) (e : Nat × Nat) : CmdEnd :=
  match s.unitNack ctx domain e.2 e.1 flags with
  | none => .retry
  | some t => .fin 1 0 t

/-- A host submission whose record has been read: the tests in R319's order without SPAN, then R312. -/
def State.hostLaunch (s : State) (ctx : Nat) (bytes : List Byte) : CmdEnd :=
  match parseRecord bytes with
  | none => .fin 6 3 s
  | some r =>
    if ¬ s.spanOk ctx r then .fin 6 3 s
    else match s.hostRead ctx r.kernVa 64 with
    | .error e => (s.fetched 224 (s.domainOf ctx) r.kernVa 64).failedAccess ctx (s.domainOf ctx) 0 e
    | .ok (hdr, t) =>
      match t.refuse ctx r hdr with
      | .error reason => .fin 6 reason t
      | .ok kern =>
        let o := t.submit ctx false r kern bytes
        if o.1 = 2 then .fin 4 0 t else .fin 0 (if o.1 = 0 then o.2.1 else 0xFFFFFFFF) o.2.2

/-- LAUNCH_CMD (R344). DESIGN CHOICE (log 68): a context that drains or is DEAD keeps no launch (R327), and one that names it
completes with STATUS 1. -/
def execLaunchCmd (queue : Nat) (s : State) : Out :=
  s.command queue 0x0001 [(16, 8)] (fun c t =>
    let va := fieldAt c.bytes 16 8
    if va % 256 ≠ 0 ∨ 2 ^ 57 ≤ va ∨ (t.ctx? c.ctx).elim true (fun x => x.state == .draining || x.state == .dead) then .fin 1 0 t
    else match t.hostRead c.ctx va 256 with
      | .error e => (t.fetched 224 (t.domainOf c.ctx) va 256).failedAccess c.ctx (t.domainOf c.ctx) 0 e
      | .ok (b, u) => u.hostLaunch c.ctx b)

/-- EVSET (R313, R344). -/
def execEvset (queue : Nat) (s : State) : Out :=
  s.command queue 0x0002 [(16, 32)] (fun c t =>
    .fin 0 0 ((t.modCtx c.ctx (fun x => { x with ev := x.ev ||| fieldAt c.bytes 16 32 })).testStored c.ctx))

/-- EVCLEAR (R344); EV has changed, so the stored records are tested (R313). -/
def execEvclear (queue : Nat) (s : State) : Out :=
  s.command queue 0x0003 [(16, 32)] (fun c t =>
    .fin 0 0 ((t.modCtx c.ctx (fun x => { x with ev := x.ev - (x.ev &&& fieldAt c.bytes 16 32) })).testStored c.ctx))

/-- EVREAD (R344): EV is written before the completion. -/
def execEvread (queue : Nat) (s : State) : Out :=
  s.command queue 0x0004 [(16, 8)] (fun c t =>
    let va := fieldAt c.bytes 16 8
    if va % 32 ≠ 0 ∨ 2 ^ 57 ≤ va then .fin 1 0 t
    else match t.modWrite (t.domainOf c.ctx) (t.genOf c.ctx) (t.rightsVec 768 c.ctx 1) 768 0 va
        (bytesOf 32 ((t.ctx? c.ctx).elim 0 Context.ev)) with
      | .ok u => .fin 0 0 (u.unitSent 224 (t.domainOf c.ctx) va 32)
      | .error e => (t.spent va 0).failedAccess c.ctx (t.domainOf c.ctx) 1 (e, va))

/-- CANCEL (R317, R344): the spanned record that has not started is discarded. -/
def execCancel (queue : Nat) (s : State) : Out :=
  s.command queue 0x0005 [(16, 2)] (fun c t =>
    let sgen := fieldAt c.bytes 16 2
    match (Tab.list t.launches).find? (fun e => e.2.ctx == c.ctx && e.2.span && e.2.sgen == sgen && e.2.state != .admitted) with
    | none => .fin 1 0 t
    | some e => .fin 0 0 (if e.2.inStore then t.freeLaunch e.1
        else ({ t with launches := Tab.set t.launches e.1 none } : State).wakeLaunchb c.ctx))

/-! ### Roots, rings, the pool (R135, R291, R311, R344) -/

/-- SETROOT (R291, R344). -/
def execSetroot (queue : Nat) (s : State) : Out :=
  s.command queue 0x0104 [(16, 2), (24, 8)] (fun c t =>
    let m := fieldAt c.bytes 16 2
    let dfn := fieldAt c.bytes 24 8
    if 1024 ≤ m ∨ 2 ^ 36 ≤ dfn then .fin 1 0 t else .fin 0 0 (t.setRoot c.q.domain m dfn))

/-- RINGSET (R311, R344). -/
def execRingset (queue : Nat) (s : State) : Out :=
  s.command queue 0x0105 [(16, 1), (24, 9)] (fun c t =>
    let va := fieldAt c.bytes 24 8
    let l := fieldAt c.bytes 32 1
    match t.namedCtx c with
    | none => .fin 1 0 t
    | some (n, _) =>
      if l < 4 ∨ 16 < l ∨ 2 ^ 57 < va + 256 * 2 ^ l then .fin 1 0 t
      else .fin 0 0 (t.modCtx n (fun x => { x with ringVa := va, ringSize := 2 ^ l, ringTail := 0 })))

/-- RSPOOL (R135, R344). -/
def execRspool (queue : Nat) (s : State) : Out :=
  s.command queue 0x010C [(16, 1), (24, 16)] (fun c t =>
    let va := fieldAt c.bytes 24 8
    let n := fieldAt c.bytes 32 8
    match t.namedCtx c with
    | none => .fin 1 0 t
    | some (k, x) =>
      if va % 16 ≠ 0 ∨ 2 ^ 40 < n ∨ 2 ^ 57 < va + n ∨ x.blocks ≠ [] then .fin 1 0 t
      else .fin 0 0 (t.modCtx k (fun y => { y with poolVa := va, poolSize := n })))

/-! ### Queues (R340, R345) -/

/-- A ring's base is aligned to its size and to 4 KiB. -/
def ringOk (base l : Nat) : Bool :=
  decide (4 ≤ l ∧ l ≤ 16 ∧ base % Nat.max 4096 (64 * 2 ^ l) = 0 ∧ base + 64 * 2 ^ l ≤ 2 ^ 57)

/-- A queue as it opens. -/
def Queue.opened (kind ctx domain part base l prio : Nat) : Queue :=
  { kind := kind, state := .qopen, err := 0, lost := 0, ctx := ctx, domain := domain, partition := part, base := base, l := l,
    prio := prio, head := 0, tail := 0, waiting := [], marked := false, failed := none }

/-- QOPEN (R340, R344): the lowest number free in the context. -/
def execQopen (queue : Nat) (s : State) : Out :=
  s.command queue 0x0106 [(16, 3), (24, 8)] (fun c t =>
    let l := fieldAt c.bytes 17 1
    let prio := fieldAt c.bytes 18 1
    let base := fieldAt c.bytes 24 8
    match t.namedCtx c with
    | none => .fin 1 0 t
    | some (n, x) =>
      match (List.range 64).find? (fun q => (Tab.get t.queues (n * 64 + q)).isNone) with
      | none => .fin 1 0 t
      | some q =>
        if ¬ ringOk base l ∨ 7 < prio ∨ x.state = .draining then .fin 1 0 t
        else
          let new := Queue.opened 0 n x.domain x.partition base l prio
          .fin 0 q { t with queues := Tab.set t.queues (n * 64 + q) (some new) })

/-- QCLOSE (R344, R345): the queue goes to DRAINING. -/
def execQclose (queue : Nat) (s : State) : Out :=
  s.command queue 0x0107 [(16, 2)] (fun c t =>
    let q := fieldAt c.bytes 17 1
    match t.namedCtx c with
    | none => .fin 1 0 t
    | some (n, _) =>
      if 64 ≤ q ∨ (Tab.get t.queues (n * 64 + q)).isNone then .fin 1 0 t else .fin 0 0 (t.closeQueue (n * 64 + q)))

/-! ### The quote (R339) -/

/-- The settings of a partition as bytes; the layout is the model's. -/
def settingsBytes (p : PartSettings) : List Byte :=
  [p.cap, p.wcTimer, p.window, p.relaunchLimit, p.limLoom.toNat, p.limFabric.toNat, p.limPool.toNat, p.meter, p.shadowFrames].flatMap
    (bytesOf 8)

/-- What the digest of a partition covers: its quadrants, settings and distribution tables. -/
def State.partBytes (s : State) (part : Nat) : List Byte :=
  match s.part? part with
  | none => []
  | some p =>
    let hs := (Tab.get s.homes.tableHomes p.domain).getD []
    bytesOf 2 (p.quads.foldl (fun m q => m + 2 ^ q) 0) ++ settingsBytes p.settings ++
      (List.range 4096).flatMap (fun slot =>
        let o := Cells.get 0 s.homes.tableOver (p.domain * 4096 + slot)
        bytesOf 2 (0x8000 + (if o ≠ 0 then o - 1 else nth 0 hs (if hs.length = 0 then 0 else slot % hs.length))))

/-- The signed part of a quote: the nonce, the measurements with the firmware's digests among them, and the digest of a
partition where one asks. -/
def State.quoteBody (s : State) (nonce : List Byte) (part : Option Nat) : List Byte :=
  nonce ++ s.dev.bootLog.flatten ++ (match part with
    | some p => Config.shake256 (s.partBytes p)
    | none => [])
/-- A quote with its signature of 29,792 bytes. -/
def quoteOf (body : List Byte) : List Byte := body ++ (List.range 29792).map (Config.quoteSignByte body)

/-- ATTEST (R339, R408): of a system queue, or of the management port, with no partition digest. -/
def execAttest (queue : Option Nat) (nonce : List Byte) (s : State) : Out :=
  match queue with
  | some q => s.command q 0x010B [(16, 40)] (fun c t =>
      let va := fieldAt c.bytes 48 8
      if 2 ^ 57 ≤ va then .fin 1 0 t
      else
        let body := t.quoteBody ((c.bytes.drop 16).take 32) (some c.q.partition)
        let r := c.q.rights t
        let w := t.modWriteAll c.q.domain r.1 r.2.1 va 256 (quoteOf body)
        match w.2 with
        | none => .fin 0 0 (w.1.unitSent 224 c.q.domain va (quoteOf body).length)
        | some e => w.1.failedAccess c.q.ctx c.q.domain 1 e)
  | none =>
    if nonce.length ≠ 32 ∨ (s.dev.bootStep = 0 ∧ ¬ s.dev.bootFailed) then .next s
    else .next (s.answer true 0 (quoteOf (s.quoteBody nonce none)))

end Sys2Proof.Machine
end

