-- ==== Sys2Proof/Machine/Convert.lean ====
section
/-! DEFINITION. Machine/Convert.lean: CVT and CVT8 (R104 to R107). -/

namespace Sys2Proof.Machine

/-! ### CVT (R104, R105); it counts as executed with Q = 0 (R84) -/

/-- FTOI (R31, R104). -/
def execFtoi (c : BitVec 1) (g : BitVec 3) (d : BitVec 6) (a : BitVec 6) (s : State) : Out :=
  s.lanes (.ftoi c g d a) (laneF false g d (fun x t => fpToInt x x.rm (-2147483648) 2147483647 (fpv (t.rv a.toNat))))

/-- FTOIZ (R31, R104). -/
def execFtoiz (c : BitVec 1) (g : BitVec 3) (d : BitVec 6) (a : BitVec 6) (s : State) : Out :=
  s.lanes (.ftoiz c g d a) (laneF false g d (fun x t => fpToInt x 1 (-2147483648) 2147483647 (fpv (t.rv a.toNat))))

/-- FTOU (R31, R104). -/
def execFtou (c : BitVec 1) (g : BitVec 3) (d : BitVec 6) (a : BitVec 6) (s : State) : Out :=
  s.lanes (.ftou c g d a) (laneF false g d (fun x t => fpToInt x x.rm 0 4294967295 (fpv (t.rv a.toNat))))

/-- ITOF (R104). -/
def execItof (c : BitVec 1) (g : BitVec 3) (d : BitVec 6) (a : BitVec 6) (s : State) : Out :=
  s.lanes (.itof c g d a) (laneF false g d (fun x t =>
    let v := (t.rv a.toNat).toInt
    ftz32 x (Fmt.fp32.round x.rm (decide (v < 0)) v.natAbs 0 false)))

/-- UTOF (R104). -/
def execUtof (c : BitVec 1) (g : BitVec 3) (d : BitVec 6) (a : BitVec 6) (s : State) : Out :=
  s.lanes (.utof c g d a) (laneF false g d (fun x t => ftz32 x (Fmt.fp32.round x.rm false (t.rv a.toNat).toNat 0 false)))

/-- PKH (R105). -/
def execPkh (c : BitVec 1) (g : BitVec 3) (d : BitVec 6) (a : BitVec 6) (b : BitVec 6) (s : State) : Out :=
  s.lanes (.pkh c g d a b) (laneF false g d (fun x t => packHalves Fmt.fp16 x (t.rv a.toNat) (t.rb s.cur.k b.toNat)))

/-- PKB (R105). -/
def execPkb (c : BitVec 1) (g : BitVec 3) (d : BitVec 6) (a : BitVec 6) (b : BitVec 6) (s : State) : Out :=
  s.lanes (.pkb c g d a b) (laneF false g d (fun x t => packHalves Fmt.bf16 x (t.rv a.toNat) (t.rb s.cur.k b.toNat)))

/-- XTHL (R105). -/
def execXthl (c : BitVec 1) (g : BitVec 3) (d : BitVec 6) (a : BitVec 6) (s : State) : Out :=
  s.lanes (.xthl c g d a) (laneF false g d (fun x t => ftz32 x (extractHalf Fmt.fp16 x 0 (t.rv a.toNat))))

/-- XTHH (R105). -/
def execXthh (c : BitVec 1) (g : BitVec 3) (d : BitVec 6) (a : BitVec 6) (s : State) : Out :=
  s.lanes (.xthh c g d a) (laneF false g d (fun x t => ftz32 x (extractHalf Fmt.fp16 x 1 (t.rv a.toNat))))

/-- XTBL (R105). -/
def execXtbl (c : BitVec 1) (g : BitVec 3) (d : BitVec 6) (a : BitVec 6) (s : State) : Out :=
  s.lanes (.xtbl c g d a) (laneF false g d (fun x t => ftz32 x (extractHalf Fmt.bf16 x 0 (t.rv a.toNat))))

/-- XTBH (R105). -/
def execXtbh (c : BitVec 1) (g : BitVec 3) (d : BitVec 6) (a : BitVec 6) (s : State) : Out :=
  s.lanes (.xtbh c g d a) (laneF false g d (fun x t => ftz32 x (extractHalf Fmt.bf16 x 1 (t.rv a.toNat))))

/-- FRND (R104). -/
def execFrnd (c : BitVec 1) (g : BitVec 3) (d : BitVec 6) (a : BitVec 6) (s : State) : Out :=
  s.lanes (.frnd c g d a) (laneF false g d (fun x t => ftz32 x (fpRoundInt x x.rm true (fpv (t.rv a.toNat)))))

/-- FRNDZ (R104). -/
def execFrndz (c : BitVec 1) (g : BitVec 3) (d : BitVec 6) (a : BitVec 6) (s : State) : Out :=
  s.lanes (.frndz c g d a) (laneF false g d (fun x t => ftz32 x (fpRoundInt x 1 false (fpv (t.rv a.toNat)))))

/-! ### CVT8 (R106, R107) -/

/-- PK8 (R30, R106). -/
def execPk8 (c : BitVec 1) (g : BitVec 3) (d : BitVec 6) (a : BitVec 6) (k : BitVec 2) (e : BitVec 1) (s' : BitVec 1) (s : State) : Out :=
  s.lanes (.pk8 c g d a k e s') (laneF false g d (fun _ t =>
    let r := toFp8 (if e = 1 then Fmt.e5m2 else Fmt.e4m3) (s' == 1) (fpv (t.rv a.toNat))
    ⟨(insertBits (t.rv d.toNat) (8 * k.toNat) 8 r.bits).toNat, r.flags⟩))

/-- XT8 (R106). -/
def execXt8 (c : BitVec 1) (g : BitVec 3) (d : BitVec 6) (a : BitVec 6) (k : BitVec 2) (e : BitVec 1) (s : State) : Out :=
  s.lanes (.xt8 c g d a k e) (laneF false g d (fun x t =>
    ftz32 x (fromFp8 (if e = 1 then Fmt.e5m2 else Fmt.e4m3) x
      (bits (t.rv a.toNat).toNat (8 * k.toNat + 7) (8 * k.toNat)))))

/-- PK4 (R30, R107). -/
def execPk4 (c : BitVec 1) (g : BitVec 3) (d : BitVec 6) (a : BitVec 6) (k : BitVec 3) (s' : BitVec 1) (s : State) : Out :=
  s.lanes (.pk4 c g d a k s') (laneF false g d (fun _ t =>
    let r := toE2M1 (s' == 1) (fpv (t.rv a.toNat))
    ⟨(insertBits (t.rv d.toNat) (4 * k.toNat) 4 r.bits).toNat, r.flags⟩))

/-- XT4 (R107). -/
def execXt4 (c : BitVec 1) (g : BitVec 3) (d : BitVec 6) (a : BitVec 6) (k : BitVec 3) (s : State) : Out :=
  s.lanes (.xt4 c g d a k) (lane1 g d a (fun x => BitVec.ofNat 32 (fromE2M1 (bits x.toNat (4 * k.toNat + 3) (4 * k.toNat)))))

end Sys2Proof.Machine
end

