-- ==== Sys2Proof/Machine/Home.lean ====
section
/-! DEFINITION. Machine/Home.lean: a home serves what has reached it: requests, instruction fetches, watches and shadow
operations, its walks and its L2; fetch replies and back-invalidation (R281, R288, R295, R308, R309, R366, R367, R370). -/

namespace Sys2Proof.Machine

/-! ### Lost lines (R369, R370) -/

/-- A damaged dirty line is written back poisoned; UE_CHARGED goes to the owner. `place`: 1 eviction, 2 generation bump,
3 moved granule. -/
def State.chargeLoss (s : State) (place : Nat) (l : L2Line) : State :=
  match Tab.get s.homes.stage2 (s2Key l.domain l.attr.dfn) with
  | none => s
  | some s2 =>
    let va := l.line * 256
    let base := physAddr s2.frame va
    let s1 := s.modHomes (fun h => h.poisonLine base)
    let part := s.partOfDomain l.domain
    s1.raise true 0x0230 2 (homeOf s.homes l.domain va) part none part.toList
      (bytesOf 1 place ++ bytesOf 1 s2.tier ++ bytesOf 2 l.domain ++ bytesOf 2 (part.getD 0xFFFF) ++ bytesOf 2 0 ++ bytesOf 8 va)

/-- Drop an L2 line: written back if it is dirty, which finds it damaged where an error has struck it (R370). -/
def State.dropLine (s : State) (place : Nat) (l : L2Line) : State :=
  let s1 := s.modHomes (fun h => { h with l2 := h.l2.filter (fun x => !(x.domain == l.domain && x.line == l.line)) })
  if l.dirty = 0 then s1
  else
    let tier := (Tab.get s.homes.stage2 (s2Key l.domain l.attr.dfn)).elim 0 Stage2.tier
    let s2 := s1.modHomes (fun h => h.countMoved l.domain tier (64 * sectorCount l.dirty))
    if l.bad then s2.chargeLoss place l else s2

/-- Drop the L2 lines that `p` picks. -/
def State.dropLines (s : State) (place : Nat) (p : L2Line → Bool) : State :=
  (s.homes.l2.filter p).foldl (fun t l => t.dropLine place l) s

/-- Of a home's L2 set: its lines, newest first, and the translations that stand in it as victims. -/
def State.l2SetLines (s : State) (home set : Nat) : List L2Line :=
  s.homes.l2.filter (fun l => homeOf s.homes l.domain (l.line * 256) == home && Config.l2Set l.line % 1024 == set)
/-- The home of a granule's cached translation. -/
def homeOfKey (h : Homes) (key : Nat) : Nat := homeOf h (key / 2 ^ 43) (key % 2 ^ 43 * 16384)
def State.l2SetVictims (s : State) (home set : Nat) : List Nat :=
  ((Tab.list s.homes.victims).filter (fun e => e.2 == set && homeOfKey s.homes e.1 == home)).map Prod.fst

/-- Forget a cached translation. -/
def State.dropAttr (s : State) (key : Nat) : State :=
  s.modHomes (fun h => { h with attrs := Tab.set h.attrs key none, victims := Tab.set h.victims key none })

/-- Make room in the set of the newest line of a home's L2, which holds 16 ways: a translation that stands in it goes
first, else a line of the lowest retention in it; which, the spec leaves open (R178, R288; log 26). -/
def State.trimSet (s : State) (l : L2Line) : State :=
  let home := homeOf s.homes l.domain (l.line * 256)
  if (s.homes.l2.filter (fun x => homeOf s.homes x.domain (x.line * 256) == home)).length +
      (Tab.list s.homes.victims).length ≤ 16 then s
  else
    let set := Config.l2Set l.line % 1024
    let ls := s.l2SetLines home set
    match s.l2SetVictims home set with
    | v :: vs => if ls.length + vs.length + 1 ≤ 16 then s else s.dropAttr v
    | [] =>
      if ls.length ≤ 16 then s
      else
        let old := ls.filter (fun x => !(x.domain == l.domain && x.line == l.line))
        let low := old.foldl (fun m x => min m x.ret) 2
        let cands := old.filter (fun x => x.ret == low)
        match cands[Config.freeNat s.free % cands.length]? with
        | some x => ({ s with free := s.free + 1 } : State).dropLine 1 x
        | none => s

/-- A home's translation cache holds 2,048 entries: one more pushes one of them out, into a way of an L2 set that has room
and fewer than two of them, or altogether; the spec leaves open which (R288; log 26). -/
def State.trimAttrs (s : State) (home : Nat) : State :=
  let own := ((Tab.list s.homes.attrs).filter (fun e => (Tab.get s.homes.victims e.1).isNone && homeOfKey s.homes e.1 == home)).map
    Prod.fst
  if own.length ≤ 2048 then s
  else match own[Config.freeNat s.free % own.length]? with
    | none => s
    | some key =>
      let set := Config.l2Set (key % 2 ^ 43 * 64) % 1024
      let b := ({ s with free := s.free + 1 } : State).freeBool
      if b.1 ∧ (s.l2SetVictims home set).length < 2 ∧ (s.l2SetLines home set).length + (s.l2SetVictims home set).length < 16 then
        b.2.modHomes (fun h => { h with victims := Tab.set h.victims key (some set) })
      else b.2.dropAttr key

/-- Every home keeps within its L2 and its translation cache: the lines filled since this was last done make room. -/
def State.trimHomes (s : State) : State :=
  let fresh := s.homes.l2.take s.homes.filled
  let s1 := fresh.reverse.foldl State.trimSet (s.modHomes (fun h => { h with filled := 0 }))
  (fresh.map (fun l => homeOf s.homes l.domain (l.line * 256))).dedup.foldl State.trimAttrs s1

/-! ### Walks (R288) -/

/-- Start a walk at a home, where fewer than 16 are in progress. -/
def State.startWalk (s : State) (home domain va : Nat) (p : Payload) : Option State :=
  if 16 ≤ (s.homes.walks.filter (fun e => e.1.home == home)).length then none
  else some (s.modHomes (fun h => { h with
    walks := h.walks ++ [({ home := home, domain := transDomain h domain va, va := va }, p)] }))

/-- The tiers of the table frames that a walk reads, in order (R291). -/
def walkReads (h : Homes) (domain : Nat) : List Nat → Nat → List Nat
  | [], _ => []
  | idx :: rest, dfn =>
    match Tab.get h.stage2 (s2Key domain dfn) with
    | none => []
    | some e => e.tier :: (match s1Entry h domain dfn idx with
      | none => []
      | some x => if bit x 0 ∧ ¬ bit x 1 then walkReads h domain rest (bits x 51 16) else [])
/-- Those of a walk. -/
def Walk.reads (w : Walk) (h : Homes) : List Nat :=
  (Tab.get h.roots (w.domain * 1024 + moduleOf w.va)).elim []
    (walkReads h w.domain [bits w.va 46 39, bits w.va 38 30, bits w.va 29 21, bits w.va 20 14])

/-- A walk's reads of the pool take tokens: `none` while the limiter has too few (R304). -/
def State.walkTokens (s : State) (w : Walk) : Option State :=
  let n := ((w.reads s.homes).filter (· == 1)).length
  match s.partOfDomain w.domain with
  | some p => if n = 0 then some s else s.takeTokens p 97 (64 * n)
  | none => some s

/-- The bytes that a walk's reads move at the memory: of each entry 8, and no more than a sector of 64; how many, the spec leaves
open (R335; log 26). -/
def State.walkBytes (s : State) (w : Walk) : State :=
  (w.reads s.homes).foldl (fun t tier =>
    { t.modHomes (fun h => h.countMoved w.domain tier (8 + Config.freeNat t.free % 57)) with free := t.free + 1 }) s

/-- A walk ends. -/
def State.endWalk (s : State) (p : Payload) : State :=
  s.modHomes (fun h => { h with walks := h.walks.filter (fun e => e.2 != p) })

/-! ### Requests (R154, R157, R175, R186, R295) -/

/-- What a request asks of its page. -/
def ReqKind.access : ReqKind → AccKind
  | .store => .write
  | .spill => .write
  | .rst => .write
  | .atomic => .atomic
  | _ => .read

/-- Data that was sent onward marked poisoned leaves its line poisoned (R368, R369). -/
def State.poisonSent (s : State) (bad : Bool) (s2 : Stage2) (va : Nat) : State :=
  if bad then s.modHomes (fun h => h.poisonLine (physAddr s2.frame va)) else s

/-- The runs of bytes that a mask picks, each with its offset (R362). -/
def maskRuns (mask : Nat) : Nat → List Byte → List (Nat × List Byte)
  | _, [] => []
  | n, b :: bs =>
    let rest := maskRuns mask (n + 1) bs
    if ¬ bit mask n then rest
    else match rest with
      | (m, ds) :: more => if m = n + 1 then (n, b :: ds) :: more else (n, [b]) :: rest
      | [] => [(n, [b])]
/-- What a store writes: all its bytes, or those that another module's mask picks. -/
def Req.writes (r : Req) : List (Nat × List Byte) :=
  if r.core < 768 then [(0, r.data)] else maskRuns r.mask 0 r.data

/-- Perform a request that every check has passed. -/
def State.performReq (s : State) (id : Nat) (r : Req) (a : Attr) (s2 : Stage2) : State :=
  let tdom := transDomain s.homes r.domain r.va
  match r.kind.access with
  | .write =>
    let t := (s.modHomes (fun h => touchLine h tdom r.va r.size a s2 (retOf r.pol) false)).reachNow id
    ((r.writes.foldl (fun u w =>
        u.effectWrite tdom r.core r.seq (((t.req? id).bind Req.reached).getD 0) (r.va + w.1) a s2 w.2) t).poisonSent
      r.bad s2 r.va).replyWith id 0 0 a.key
  | .atomic =>
    if r.reg ≠ 63 ∧ ¬ bit r.rdRights a.key then s.replyWith id 0x100 0 0
    else
      let old := getBytes s.homes s2 r.va r.size
      ((s.effectWrite tdom r.core r.seq 0 r.va a s2 (r.atomicStep old)).poisonSent r.bad s2 r.va).replyWith id 0 (ofBytes old) a.key
  | _ =>
    let t := (s.modHomes (fun h => touchLine h tdom r.va r.size a s2 (retOf r.pol) false)).replyWith id 0 0 a.key
    if r.core < 768 then t else t.modReq id (fun x => { x with data := getBytes s.homes s2 r.va r.size })

/-- A home judges a request of a core, at its turn, and performs it, refuses it, holds it or walks for it (R295). -/
def State.serveReq (s : State) (id : Nat) (walked : Bool) : State :=
  match s.req? id with
  | none => s
  | some r =>
    let home := s.homeFor r.domain r.va
    let held := s.modReq id (fun x => { x with stage := .atHome })
    match judge s.homes r.domain r.gen r.va r.kind.access r.wrRights walked with
    | .hold => held
    | .walk => (match s.startWalk home r.domain r.va (.request id) with
      | some t => t.modReq id (fun x => { x with stage := .walking })
      | none => s)
    | .deny => s.replyWith id 0x100 0 0
    | .nack c => if r.kind = .pref then s.replyWith id c 0 0 else held.refuseReq id c
    | .page a s2 =>
      if r.kind.access.writes && s.writeHeld id r then held
      else match s.poolTokens r.ctx r.domain r.va r.size r.tokens s2 with
        | some t => t.performReq id r a s2
        | none => held

/-! ### Instruction fetches (R295, R308) -/

def State.modFetch (s : State) (id : Nat) (f : Fetch → Fetch) : State := { s with fetches := Tab.upd s.fetches id f }

/-- A fetch is answered: its reply goes to the cluster. -/
def State.answerFetch (s : State) (id : Nat) (f : Fetch) (code rec : Nat) (data : List Byte) : State :=
  (s.modFetch id (fun x => { x with stage := 3, answer := some (code, rec), data := data })).sendToCore f.core
    (s.homeFor f.domain (f.line * 64)) (f.line * 64) (.fetchReply id)

/-- A home judges a fetch. -/
def State.serveFetch (s : State) (id : Nat) (f : Fetch) (walked : Bool) : State :=
  let va := f.line * 64
  let home := s.homeFor f.domain va
  let held := s.modFetch id (fun x => { x with stage := 1 })
  match judge s.homes f.domain f.gen va .fetch 0 walked with
  | .hold => held
  | .deny => held
  | .walk => (match s.startWalk home f.domain va (.fetch id) with
    | some t => t.modFetch id (fun x => { x with stage := 2 })
    | none => s)
  | .nack c =>
    if fatalCode c then s.answerFetch id f c 0 []
    else (match s.openFault { ctx := f.ctx, domain := f.domain, va := va, code := c, flags := 2, core := coreId f.core,
                              tag := 0, skein := 0 } with
      | some r => r.2.answerFetch id f c r.1 []
      | none => held)
  | .page a s2 =>
    let tdom := transDomain s.homes f.domain va
    (s.modHomes (fun h => touchLine h tdom va 64 a s2 1 false)).answerFetch id f 0 0 (getBytes s.homes s2 va 64)

/-! ### Watches (R280, R281) -/

/-- How many entries a home's watch table holds: entries of this module's words (R280). -/
def State.watchEntries (s : State) (home : Nat) : Nat :=
  (s.cores.map (fun c => ((Tab.list c.2.watches).filter (fun e =>
    e.2.stage == 2 && s.isLocal e.2.va && s.homeFor e.2.domain e.2.va == home)).length)).sum

/-- A watch is answered: a wake packet goes to its core. -/
def State.answerWatch (s : State) (c e : Nat) (w : Watch) (code rec : Nat) (val : Word) : State :=
  (s.modWatch c e (fun x => { x with stage := 3, code := code, record := rec, val := val, moment := s.seq, stamp := s.nextId })).sendToCore c
    (s.homeFor w.domain w.va) w.va (.wake c e)

/-- A home judges a watch: answered at once where the condition holds or the table is full, else installed. -/
def State.serveWatch (s : State) (c e : Nat) (w : Watch) (walked : Bool) : State :=
  let home := s.homeFor w.domain w.va
  match judge s.homes w.domain w.gen w.va .read 0 walked with
  | .hold => s
  | .walk => (s.startWalk home w.domain w.va (.watch c e)).getD s
  | .deny => s.answerWatch c e w 0x100 0 0
  | .nack k =>
    if fatalCode k then s.answerWatch c e w k 0 0
    else (match s.openFault { ctx := w.ctx, domain := w.domain, va := w.va, code := k, flags := if c < 768 then 0 else 16, core := namedCore c,
                              tag := 0, skein := 0 } with
      | some r => r.2.answerWatch c e w k r.1 0
      | none => s)
  | .page a s2 =>
    let tdom := transDomain s.homes w.domain w.va
    let s1 := s.modHomes (fun h => touchLine h tdom w.va 4 a s2 1 false)
    if ¬ bit w.rights a.key then s1.answerWatch c e w 0x100 0 0
    else
      let x := pageWord s.homes s2 w.va
      match s1.poolTokens w.ctx w.domain w.va 4 64 s2 with
      | none => s
      | some t =>
        if watchCond w.cond x w.cmp ∨ 1024 ≤ s.watchEntries home then t.answerWatch c e w 0 0 x
        else t.modWatch c e (fun y => { y with stage := 2 })

/-- Whether the requests that a core issued before a watch, to its line, have been judged (R154). -/
def State.watchInOrder (s : State) (c : Nat) (w : Watch) : Bool :=
  !(Tab.list s.reqs).any (fun e => e.2.onLine c w.domain w.va && decide (e.2.seq < w.seq) && e.2.pendingAtHome) &&
  !(Tab.list (s.core c).watches).any (fun e => decide (e.2.seq < w.seq) && e.2.va / 256 == w.va / 256 &&
    e.2.domain == w.domain && e.2.pendingAtHome)

/-! ### HOME_REQUEST and WALK_COMPLETE -/

/-- A walk waits for some payload. -/
def State.walksFor (s : State) (p : Payload) : Bool := s.homes.walks.any (fun e => e.2 == p)

/-- HOME_REQUEST (R295): a home judges what has reached it. -/
def execHomeRequest (what : Payload) (s : State) : Out :=
  .next (match what with
    | .request id => (match s.req? id with
      | some r => if r.stage = .atHome ∧ r.kind ≠ .rst ∧ s.inOrder id r then s.serveReq id false else s
      | none => s)
    | .fetch id => (match Tab.get s.fetches id with
      | some f => if f.stage = 1 then s.serveFetch id f false else s
      | none => s)
    | .watch c e => (match Tab.get (s.core c).watches e with
      | some w => if w.stage = 1 ∧ ¬ s.walksFor what ∧ s.watchInOrder c w then s.serveWatch c e w false else s
      | none => s)
    | .shd op => s.serveShd op
    | _ => s)

/-- WALK_COMPLETE (R288): the walk's result is used by what waited on it. -/
def execWalkComplete (what : Payload) (s : State) : Out :=
  match (s.homes.walks.find? (fun e => e.2 == what)).bind (fun e => (s.walkTokens e.1).map (fun t => t.walkBytes e.1)) with
  | none => .next s
  | some s1 =>
    let t := s1.endWalk what
    .next (match what with
      | .request id => (match t.req? id with
        | some r =>
          if r.stage ≠ .walking then t
          else if s.inOrder id r then t.serveReq id true
          else t.modReq id (fun x => { x with stage := .atHome })
        | none => t)
      | .fetch id => (match Tab.get t.fetches id with
        | some f => if f.stage = 2 then t.serveFetch id f true else t
        | none => t)
      | .watch c e => (match Tab.get (t.core c).watches e with
        | some w => if w.stage = 1 then t.serveWatch c e w true else t
        | none => t)
      | _ => t)

/-! ### INSTRUCTION_FETCH_REPLY (R183, R184, R308, R309) -/

/-- Lines of a core's L1 instruction cache, 64 KiB, and of a cluster's, 512 KiB (R308). -/
def l1ILines : Nat := 1024
def clusterILines : Nat := 8192

/-- A line enters an instruction cache of a size. When it is full another leaves; which one, the spec leaves open: the choice
`n` (log 26). -/
def addILine (size n : Nat) (ls : List ILine) (l : ILine) : List ILine :=
  let old := ls.filter (fun x => !(x.domain == l.domain && x.gen == l.gen && x.line == l.line))
  (if size ≤ old.length then old.eraseIdx (n % old.length) else old) ++ [l]

/-- A line enters a cluster's instruction cache and the L1 of some of its cores, and the filter lists its granule. -/
def State.fillCode (s : State) (cluster : Nat) (cores : List Nat) (l : ILine) : State :=
  let s1 := s.modHomes (fun h =>
    let g := granKey (transDomain h l.domain (l.line * 64)) (l.line * 64)
    let f := Cells.get [] h.filter cluster
    { h with
      icache := Cells.set [] h.icache cluster (addILine clusterILines (Config.freeNat s.free) (Cells.get [] h.icache cluster) l)
      filter := Cells.set [] h.filter cluster (if f.contains g then f else f ++ [g]) })
  cores.foldl (fun t c => t.modCore c (fun x => { x with
    icache := addILine l1ILines (Config.freeNat (s.free + 1 + c % 8)) x.icache l })) { s1 with free := s.free + 9 }

/-- A fetch has failed: the strands that wait for it park on a record, or their gangs end (R183, R184, R308). -/
def State.failFetch (s : State) (f : Fetch) (code rec va : Nat) : State :=
  f.waiting.foldl (fun t w =>
    match t.strand? w.1 w.2 with
    | none => t
    | some x =>
      if x.status ≠ .ready then t
      else if fatalCode code then t.fatalNack w.1 (some w.2) x.pc code va
      else t.modStrand w.1 w.2 (fun y => { y with status := .parked (.fetch rec s.clock) })) s

/-- INSTRUCTION_FETCH_REPLY (R308): the line is filled, or the strands that fetched it park or end. What another module
answers is that module's: free values (log 25). -/
def execInstructionFetchReply (fetch : Nat) (s : State) : Out :=
  match Tab.get s.fetches fetch with
  | none => .next s
  | some f =>
    let away : Bool := !s.isLocal (f.line * 64)
    if f.stage ≠ 4 ∧ ¬ away then .next s
    else
      let data := if away then (List.range 64).map (fun j => Config.freeByte (s.free + j)) else f.data
      let s1 : State := { s with fetches := Tab.set s.fetches fetch none, free := if away then s.free + 67 else s.free }
      let s0 := if away then (s1.fabricBytes f.ctx 64).enqueue (replyChan f.cluster (f.line * 64)) 225 2 (.passed (s.partOfDomain f.domain) false) else s1
      let a : Nat × Nat := if away then (if Config.freeBool (s.free + 64) then (0, 0)
          else (1 + Config.freeNat (s.free + 65) % 9, 2 ^ 32 + Config.freeNat (s.free + 66) % 2 ^ 32))
        else f.answer.getD (0, 0)
      let va := f.line * 64
      if a.1 = 0 then
        let cores := f.core :: f.waiting.filterMap (fun w => (s.skein? w.1).bind Skein.core)
        .next (s0.fillCode f.cluster cores.dedup { domain := f.domain, gen := f.gen, line := f.line, data := data })
      else
        .next (s0.failFetch f a.1 a.2 va)

/-! ### BACK_INVALIDATE (R366) -/

/-- BACK_INVALIDATE: a pool line held in a home's L2 is written back if it is dirty, and dropped. -/
def execBackInvalidate (domain line : Nat) (s : State) : Out :=
  .next (s.dropLines 1 (fun l => l.domain == domain && l.line == line &&
    (Tab.get s.homes.stage2 (s2Key l.domain l.attr.dfn)).elim false (fun s2 => s2.tier == 1)))

end Sys2Proof.Machine
end

