-- ==== Sys2Proof/Machine/Loom.lean ====
section
/-! DEFINITION. Machine/Loom.lean: the token, flits and their replay, the rate limiters, wavelengths and the shadow, and
the loss of a comb source (R304, R305, R347 to R361). -/

namespace Sys2Proof.Machine

/-! ### Links (R347, R351) -/

def State.modLinkAt (s : State) (channel station : Nat) (f : Link → Link) : State := s.modLink (linkNo channel station) f

/-- The station link that carries the acknowledgements of another; `none` where the token line does (R351). -/
def reverseOf (channel station : Nat) : Option (Nat × Nat) :=
  if channel < 256 then
    (if station < 96 then some (256 + 2 * station + channel % 2, 96 + channel / 2)
      else if station = 224 then some (448, 96 + channel / 2) else none)
  else if channel < 448 then
    (if 96 ≤ station ∧ station < 224 then some (2 * (station - 96) + channel % 2, (channel - 256) / 2) else none)
  else if channel = 448 then some (2 * (station - 96), 224)
  else none

/-- Whether a link carries no lane. -/
def State.linkDown (s : State) (channel station : Nat) : Bool := s.liveLanes channel station == 0

/-! ### Acknowledgement (R351, R352) -/

/-- An ACK: every flit up to that SEQ leaves the replay buffer. -/
def Link.acked (l : Link) (seq : Nat) : Link :=
  match l.buffer.findIdx? (fun f => f.seq == seq) with
  | some n => { l with buffer := l.buffer.drop (n + 1) }
  | none => l

/-- Every unacknowledged flit is to be sent again, from the oldest on. -/
def Link.resendAll (l : Link) : Link := { l with buffer := l.buffer.map (fun f => { f with sent := none }) }

/-- A change of a link's wavelengths starts the count of failures in a row afresh (R352). -/
def Link.rewaved (l : Link) : Link := { l with buffer := l.buffer.map (fun f => { f with fails := 0 }) }

/-! ### Flits on the waveguide (R349, R350) -/

/-- CRC-32 of IEEE 802.3: polynomial 0x04C1_1DB7, least significant bit of each byte first (R349). -/
def crcBit (c : Word) : Word := if c.getLsbD 0 then (c >>> 1) ^^^ 0xEDB88320#32 else c >>> 1
def crcByte (c : Word) (b : Byte) : Word := (List.range 8).foldl (fun x _ => crcBit x) (c ^^^ b.setWidth 32)
def crc32 (bs : List Byte) : Word := bs.foldl crcByte 0xFFFFFFFF#32 ^^^ 0xFFFFFFFF#32

/-- A flit's header word (R349). -/
def Flit.header (f : Flit) (station : Nat) : Nat := f.type % 16 * 2 ^ 28 + station % 256 * 2 ^ 16 + f.seq % 256 * 256 + f.ack % 256
/-- A flit's 72 bytes: payload, header, CRC. -/
def Flit.body (f : Flit) (station : Nat) : List Byte := (f.bytes ++ List.replicate 64 0).take 64 ++ bytesOf 4 (f.header station)
def Flit.wire (f : Flit) (station : Nat) : List Byte := f.body station ++ bytesOf 4 (crc32 (f.body station)).toNat

/-- The live data wavelengths of a map in the order of their lanes; the shadow, 16, counts in the place of the lane that it
carries. -/
def LaneMap.waves (m : LaneMap) : List Nat :=
  (List.range 16).filterMap (fun k => if m.onShadow = some k then some 16 else if bit m.mask k then some k else none)
/-- The bit times of a flit. -/
def LaneMap.times (m : LaneMap) : Nat := (576 + m.waves.length - 1) / m.waves.length
/-- The bit of a flit that a wavelength carries at a bit time: bit i goes to bit time i div N of wavelength i mod N. -/
def LaneMap.bitAt (m : LaneMap) (wave time : Nat) : Option Nat :=
  (m.waves.findIdx? (· == wave)).bind (fun n => if time * m.waves.length + n < 576 then some (time * m.waves.length + n) else none)

/-- Bytes in which a bit has flipped. -/
def flipBit (bs : List Byte) (i : Nat) : List Byte := bs.modify (i / 8) (fun b => b ^^^ BitVec.ofNat 8 (2 ^ (i % 8)))
/-- A flit as the receiver decodes it, with the map of its hold, where some wavelengths flipped bits at some bit times. -/
def Flit.received (f : Flit) (station : Nat) (flips : List (Nat × Nat)) : List Byte :=
  (flips.filterMap (fun x => f.map.bitAt x.1 x.2)).foldl flipBit (f.wire station)
/-- The header word that the receiver decodes; `none` where it takes the flit for a CRC failure: its CRC is wrong, or its TYPE one of
4 to 15 (R349, R351). -/
def Flit.decoded (f : Flit) (station : Nat) (flips : List (Nat × Nat)) : Option Nat :=
  let r := f.received station flips
  let word := fieldAt r 64 4
  if r.drop 68 = bytesOf 4 (crc32 (r.take 68)).toNat ∧ bits word 31 28 < 4 then some word else none

/-! ### Channel faults (R357, R358) -/

/-- The partitions of a die. -/
def State.partsOfDie (s : State) (die : Nat) : List Nat :=
  (Tab.list s.parts).filterMap (fun p => if die = 0 ∨ p.2.quads.any (fun q => q / 4 == die) then some p.1 else none)

/-- The quadrant of a station, where it has one. -/
def quadOfStation (station : Nat) : Option Nat :=
  if station < 96 then some (station / 6) else if station < 224 then some (homeQuad (station - 96)) else none
/-- The quadrant of a channel's receiver; a fabric port and the host complex have none. -/
def quadOfReceiver (channel : Nat) : Option Nat :=
  if channel < 256 then some (homeQuad (channel / 2)) else if channel < 448 then some ((channel - 256) / 2 / 6) else none

/-- The partitions that a channel fault is told to. -/
def State.faultParts (s : State) (channel station : Nat) : List Nat :=
  let all := 224 ≤ station ∨ channel = 448
  (Tab.list s.parts).filterMap (fun p =>
    if all ∨ ((quadOfStation station).toList ++ (quadOfReceiver channel).toList).any (fun q => p.2.quads.contains q) then some p.1
    else none)

/-- LOOM_LOSS_OF_LIGHT (R361). -/
def State.raiseLight (s : State) (cause src die channel station striped resent delay : Nat) (dest : List Nat) : State :=
  s.raise true 0x0310 (if cause = 2 then 2 else 1) src none none dest
    (bytesOf 1 cause ++ bytesOf 1 die ++ bytesOf 2 striped ++ bytesOf 4 resent ++ bytesOf 4 delay ++ bytesOf 2 channel ++
      bytesOf 2 station)

/-- A channel fault (R358): once for a link; the link sends nothing new, and REPLACE_REQUEST follows. -/
def State.channelFault (s : State) (channel station : Nat) : State :=
  if (s.link (linkNo channel station)).fault then s
  else
    ((s.modLinkAt channel station (fun l => { l with fault := true })).raiseLight 2 (0x10000 + channel) 0xFF channel station 0 0 0
      (s.faultParts channel station)).checkHealth true

/-! ### The shadow (R354) -/

/-- Once the shadow is STANDBY, the weak wavelength that has waited longest moves to it. -/
def State.settleShadow (s : State) (channel station : Nat) : State :=
  let l := s.link (linkNo channel station)
  if s.shadowOf channel station ≠ .standby ∨ l.toShadow.isSome ∨ l.back then s
  else match l.weakWait with
    | [] => s
    | w :: rest =>
      if s.waveOf channel station w.1 = .carrying then
        s.modLinkAt channel station (fun x => { x with
          weakWait := rest, toShadow := some w, waves := Cells.set .carrying x.waves w.1 (.retrain 0) })
      else s.modLinkAt channel station (fun x => { x with weakWait := rest })

/-- Some wavelengths of a link go DARK: their lanes leave the map, that on the shadow too, which then calibrates itself, and every
unacknowledged flit is resent (R354, R356). -/
def Link.darkened (l : Link) (ks : List Nat) (clock : Nat) : Link :=
  let lent (r : Nat) : Bool := ks.contains r
  { l.resendAll.rewaved with
    weakWait := l.weakWait.filter (fun e => !lent e.1)
    toShadow := l.toShadow.filter (fun e => !lent e.1)
    back := l.back && !(l.shadow.lane?.elim false lent)
    shadow := match l.shadow with
      | .lending r => if lent r then .calibrating r clock else l.shadow
      | o => o }

/-- A wavelength goes DARK and its link restripes; a link with no lane left is down. -/
def State.waveDark (s : State) (channel station wave : Nat) : State :=
  let t := s.modLinkAt channel station (fun l => { l.darkened [wave] s.clock with waves := Cells.set .carrying l.waves wave .dark })
  (if t.linkDown channel station then t.channelFault channel station else t).checkHealth false

/-- A wavelength is found weak (R353, R354); a rotation that it interrupts resumes at the next wavelength: cause 1 window, 2 burst; the corrected bits in its last 2^42. -/
def State.foundWeak (s : State) (channel station : Nat) (w : Nat × Nat × Nat) : State :=
  let l := s.link (linkNo channel station)
  if s.waveOf channel station w.1 ≠ .carrying ∨ 16 ≤ w.1 then s
  else if l.weakWait.any (fun e => e.1 == w.1) then (if 4398 < w.2.2 then s.waveDark channel station w.1 else s)
  else
    let train (x : Link) : Link := { x with toShadow := some w, waves := Cells.set .carrying x.waves w.1 (.retrain 0) }
    let queue : State :=
      if 4398 < w.2.2 then s.waveDark channel station w.1
      else s.modLinkAt channel station (fun x => { x with weakWait := x.weakWait ++ [w] })
    match s.shadowOf channel station with
    | .standby =>
      (match l.toShadow with
        | none => if l.back then queue else s.modLinkAt channel station train
        | some (r, 0, _) => s.modLinkAt channel station (fun x => train { x with
            waves := Cells.set .carrying x.waves r .carrying, rotation := (r + 1) % 16 })
        | some _ => queue)
    | .lending r =>
      (match s.waveOf channel station r with
        | .recal _ => s.modLinkAt channel station (fun x =>
            train { x with back := true, waves := Cells.set .carrying x.waves r .carrying, rotation := (r + 1) % 16 })
        | _ => queue)
    | _ => queue

/-- The lane moves of a hold: the lane on the shadow returns, or a lane moves to the shadow (R350, R354). A shadow whose
lane makes room for a weak one does not calibrate. -/
def State.moveLanes (s : State) (channel station : Nat) : State :=
  let l := s.link (linkNo channel station)
  if l.back then
    s.modLinkAt channel station (fun x => { x.rewaved with
      back := false
      shadow := match x.shadow with
        | .lending r => if x.toShadow.isSome then .standby else .calibrating r s.clock
        | o => o })
  else match l.toShadow with
    | none => s
    | some (k, cause, bits) =>
      if s.shadowOf channel station = .dark ∨ s.waveOf channel station k = .dark then
        s.modLinkAt channel station (fun x => { x with toShadow := none })
      else
        let t := s.modLinkAt channel station (fun x => { x.rewaved with
          toShadow := none, shadow := .lending k
          waves := if cause = 0 then Cells.set .carrying x.waves k (.recal s.clock) else x.waves
          swaps := if cause = 0 then x.swaps else (x.swaps + 1) % 2 ^ 32 })
        if cause = 0 then t
        else t.raise true 0x0311 0 (0x10000 + channel) none none []
          (bytesOf 2 channel ++ bytesOf 1 station ++ bytesOf 1 k ++ bytesOf 1 cause ++ List.replicate 7 0 ++ bytesOf 8 bits)

/-! ### Rate limiters (R304, R305) -/

/-- The partition and the size in bytes of a new request; `none` where no limiter holds it. -/
def State.limited (s : State) (p : Payload) : Option (Nat × Nat) :=
  let part (ctx : Nat) : Nat := (s.ctx? ctx).elim 64 Context.partition
  match p with
  | .request id => (s.req? id).map (fun r => (part r.ctx, r.tokens))
  | .watch c e => (Tab.get (s.core c).watches e).map (fun w => (part w.ctx, 64))
  | .shd op => (Tab.get s.shdops op).map (fun o => (part o.ctx, 64))
  | .passed (some p) true => some (p, 64)
  | _ => none

/-- The limiter's point for a station's requests on a channel. -/
def limitPoint (channel station : Nat) : Option Nat :=
  if 449 ≤ channel then some 96 else if channel < 256 ∧ station < 96 then some station else none

/-- Whether a request may leave now, with its tokens taken. -/
def State.mayLeave (s : State) (channel station : Nat) (type : Nat) (p : Payload) : Option State :=
  if type ≠ 1 then some s
  else match limitPoint channel station, s.limited p with
    | some pt, some d => s.takeTokens d.1 pt d.2
    | _, _ => some s

/-! ### TOKEN_ARRIVAL (R349 to R352) -/

/-- Whether a station has something to do with its channel's token (R350): flits to send or to send again, a lane to move, or
what the token line brings it. -/
def State.wantsToken (s : State) (channel station : Nat) : Bool :=
  let l := s.link (linkNo channel station)
  l.toShadow.isSome || l.back || ((reverseOf channel station).isNone && (l.buffer != [] || l.reports != [])) ||
  (!s.linkDown channel station && (l.buffer.any (fun f => f.sent.isNone) ||
    (l.outq != [] && decide (l.buffer.length < 255) && !l.fault)))

def State.token (s : State) (channel : Nat) : Token := Cells.get Token.start s.net.tokens channel
/-- How many station numbers the token passes on its way from its holder to a station; it wraps. -/
def State.ringDistance (s : State) (channel station : Nat) : Nat := (station + 255 - (s.token channel).holder % 256) % 256
/-- Whether a station is the next to hold its channel's token: every station before it in the ring passes it on. -/
def State.tokenNext (s : State) (channel station : Nat) : Bool :=
  s.net.links.all (fun l => l.1 / 256 != channel || !s.wantsToken channel (l.1 % 256) ||
    decide (s.ringDistance channel station ≤ s.ringDistance channel (l.1 % 256)))

/-- The ACK that a station's flits carry: the last SEQ delivered on the reverse link. -/
def State.ackField (s : State) (channel station : Nat) : Nat :=
  match reverseOf channel station with
  | some r => ((s.link (linkNo r.1 r.2)).expect + 255) % 256
  | none => 0

/-- Flits to be sent again, at most `n`, from the oldest on. -/
def State.resendFlits (s : State) (channel station n : Nat) : State × Nat :=
  let l := s.link (linkNo channel station)
  let out := (l.buffer.filter (fun f => f.sent.isNone)).take n
  let ack := s.ackField channel station
  let mark (f : Flit) : Flit := { f with sent := some s.clock, ack := ack, map := s.mapOf channel station }
  (s.modLinkAt channel station (fun x => { x with
    buffer := x.buffer.map (fun f => if out.any (fun o => o.seq == f.seq) then mark f else f)
    flying := x.flying ++ out.map mark
    replays := (x.replays + out.length) % 2 ^ 32 }), n - out.length)

/-- The first item of a type that may leave, its place in the queue, and the state with its tokens taken. -/
def State.firstOf (s : State) (channel station type : Nat) : Option (Nat × Payload × State) :=
  (s.link (linkNo channel station)).outq.zipIdx.findSome? (fun e =>
    if e.1.1 = type then (s.mayLeave channel station type e.1.2).map (fun t => (e.2, e.1.2, t)) else none)

/-- Send up to `n` new flits: link control, then the exempt class, then requests; none beyond 255 unacknowledged. -/
def State.sendNew (channel station : Nat) : Nat → State → State
  | 0, s => s
  | n + 1, s =>
    let l := s.link (linkNo channel station)
    if 255 ≤ l.buffer.length then s
    else match [3, 2, 1].findSome? (fun ty => (s.firstOf channel station ty).map (fun x => (ty, x))) with
      | none => s
      | some (ty, i, p, t) =>
        let f : Flit := { seq := l.nextSeq, type := ty, payload := p, sent := some s.clock, fails := 0,
                          ack := s.ackField channel station, map := s.mapOf channel station
                          bytes := (List.range 64).map (fun j => Config.freeByte (t.free + j)) }
        State.sendNew channel station n (({ t with free := t.free + 64 } : State).modLinkAt channel station (fun x => { x with
          outq := x.outq.eraseIdx i, nextSeq := (x.nextSeq + 1) % 256, buffer := x.buffer ++ [f], flying := x.flying ++ [f] }))

/-- What the token line brings to a station: the ACK and any NAK (R351), and the weak wavelengths (R353; log 70). -/
def State.readToken (s : State) (channel station : Nat) : State :=
  if (reverseOf channel station).isSome then s
  else
    let rs := (s.link (linkNo channel station)).reports
    rs.foldl (fun t w => t.foundWeak channel station w) (s.modLinkAt channel station (fun l =>
      let x := l.acked ((l.expect + 255) % 256)
      { (if l.nak then x.resendAll else x) with nak := false, reports := [] }))

/-- The token is at a station, with its lane map (R350); the station waits no longer. -/
def State.holdToken (s : State) (channel station : Nat) : State :=
  let t := s.modLinkAt channel station (fun l => { l with since := none })
  { t with net := { t.net with
    tokens := Cells.set Token.start s.net.tokens channel { holder := station, map := s.mapOf channel station } } }

/-- How long a station has waited for the token, in hc (R373). -/
def State.tokenWait (s : State) (channel station : Nat) : Nat :=
  2 * ((s.link (linkNo channel station)).since.elim 0 (fun t => s.clock - t))

/-- Stations that have come to want the token wait from now on (R373). -/
def State.settleTokens (s : State) : State :=
  { s with net := { s.net with links := s.net.links.map (fun l =>
      (l.1, if l.2.since.isNone && s.wantsToken (l.1 / 256) (l.1 % 256) then { l.2 with since := some s.clock } else l.2)) } }

/-- TOKEN_ARRIVAL (R350): the token visits the stations in ascending order, past those that have nothing to do. A capture unit
records how long the station has waited for it (R373). -/
def execTokenArrival (channel station : Nat) (s : State) : Out :=
  if ¬ linkExists channel station ∨ ¬ s.tokenNext channel station then .next s
  else
    let s0 := if channel < 256 then s.capture (homeQuad (channel / 2)) 2 (channel / 2 % 8) (s.tokenWait channel station) else s
    let s1 := (((s0.readToken channel station).moveLanes channel station).settleShadow channel station).holdToken channel station
    if s1.linkDown channel station then .next s1
    else
      let r := s1.resendFlits channel station 8
      .next (if (s1.link (linkNo channel station)).fault then r.1 else State.sendNew channel station r.2 r.1)

/-! ### FLIT_RECEIVE and FLIT_REPLAY_TIMEOUT (R351, R352) -/

/-- Link control towards a station link's writer, where flits carry it: one entry of a kind at a time. -/
def State.sendControl (s : State) (channel station : Nat) (p : Payload) : State :=
  match reverseOf channel station with
  | none => s
  | some r => s.modLinkAt r.1 r.2 (fun l => { l with outq := l.outq.filter (fun e => e.2 != p) ++ [(3, p)] })

/-- An acknowledgement of its own for what a link has delivered, replacing one not sent yet. -/
def State.sendAck (s : State) (channel station : Nat) : State :=
  let n := linkNo channel station
  match reverseOf channel station with
  | none => s
  | some r => s.modLinkAt r.1 r.2 (fun l =>
      let others := l.outq.filter (fun e => match e.2 with
        | .ack m _ => m != n
        | _ => true)
      { l with outq := others ++ [(3, .ack n (((s.link n).expect + 255) % 256))] })

/-- The answer to another module's request leaves through the port (R362). -/
def State.answerPeer (s : State) (id : Nat) : State :=
  match s.req? id with
  | none => s
  | some r => match r.stage with
    | .replied c _ =>
      let n := if c ≠ 0 then 0 else if r.kind = .store then 0 else r.size
      (((s.partOfDomain r.domain).elim s (fun p => s.addMeter p 9 n)).dropReq id).tell (.answer (r.core - 1024) r.strand c (if c = 0 then 0 else r.result) r.key
        (if c ≠ 0 then [] else if r.kind = .atomic then bytesOf r.size r.result else if r.kind = .store then [] else r.data))
    | _ => s

/-- The wake packet of another module's watch leaves, and its entry goes (R281, R362). -/
def State.wakePeer (s : State) (c e : Nat) : State :=
  match Tab.get (s.core c).watches e with
  | none => s
  | some w =>
    if w.stage = 3 then (s.modCore c (fun x => { x with watches := Tab.set x.watches e none })).tellFor (s.partOfDomain w.domain)
      (.wake (c - 1024) w.reg w.code w.val)
    else s

/-- An access of a copy's chunk reaches a home or a port, and its data leaves for the core; data and acknowledgements arrive.
What a chunk given up had sent is ignored (R223). -/
def State.copyFlit (s : State) (channel id packet va len : Nat) : State :=
  match Tab.get s.copies id with
  | none => s
  | some cp =>
    let got : State := { s with copies := Tab.upd s.copies id (fun x => { x with waits := x.waits - 1 }) }
    if cp.packet ≠ packet then s
    else if cp.phase ≠ 1 ∨ (256 ≤ channel ∧ channel < 448) then got
    else (List.range ((len + 63) / 64)).foldl (fun t _ => t.enqueue (replyChan (clusterOf cp.core) va)
      (if channel < 256 then 96 + channel / 2 else 225) 2 (.copy id packet va len)) s

/-- What a channel's receiver does with a payload of a station. -/
def State.deliver (s : State) (channel station : Nat) (p : Payload) : State :=
  match p with
  | .request id => s.modReq id (fun r => match r.stage with
      | .outbound => if channel < 256 then { r with stage := .atHome } else r
      | _ => r)
  | .reply id =>
    if (s.req? id).elim false (fun r => decide (768 ≤ r.core)) then s.answerPeer id
    else s.modReq id (fun r => match r.stage with
      | .replied c hi => { r with stage := .returned c hi }
      | _ => r)
  | .fetch id => if channel < 256 then s.modFetch id (fun f => if f.stage = 0 then { f with stage := 1 } else f) else s
  | .fetchReply id => s.modFetch id (fun f => if f.stage = 3 then { f with stage := 4 } else f)
  | .watch c e => if channel < 256 then s.modWatch c e (fun w => if w.stage = 0 then { w with stage := 1 } else w) else s
  | .wake c e =>
    if 768 ≤ c then s.wakePeer c e
    else s.modWatch c e (fun w => if w.stage = 3 then { w with stage := 4 } else w)
  | .shd op => { s with shdops := Tab.upd s.shdops op (fun o => { o with
      arrived := o.arrived ++ [if channel < 256 then channel / 2 else 128] }) }
  | .shdReply op => { s with shdops := Tab.upd s.shdops op (fun o => if o.stage = 1 then { o with stage := 2 } else o) }
  | .nak l _ => s.modLink l Link.resendAll
  | .ack l n => s.modLink l (fun x => x.acked n)
  | .weak l w cause n => s.foundWeak (l / 256) (l % 256) (w, cause, n)
  | .copy id n va len => s.copyFlit channel id n va len
  | .passed part answered =>
    if ¬ answered ∨ 256 ≤ channel then s
    else s.enqueue (if station < 96 then 256 + 2 * station + channel % 2 else 448) (96 + channel / 2) 2 (.passed part false)

/-- A flit that failed its CRC (R351, R352): a NAK is sent; the 1,024th failure in a row is a channel fault. -/
def State.flitFailed (s : State) (channel station : Nat) (f : Flit) : State :=
  let t := s.modLinkAt channel station (fun l => { l with
    buffer := l.buffer.map (fun x => if x.seq = f.seq then { x with fails := x.fails + 1 } else x)
    nak := (reverseOf channel station).isNone })
  let u := t.sendControl channel station (.nak (linkNo channel station) (s.link (linkNo channel station)).expect)
  if (t.link (linkNo channel station)).buffer.any (fun x => x.seq == f.seq && decide (1024 ≤ x.fails)) then
    u.channelFault channel station
  else u

/-! ### Weak wavelengths (R353) -/

/-- What is left of the corrected bits within the last `n` bits received. -/
def RxWave.within (r : RxWave) (n : Nat) : Nat := (r.fixed.filter (fun p => decide (r.bits < p + n))).length

/-- A wavelength receives bits, of which the line code corrects some. -/
def RxWave.take (r : RxWave) (bits fixed : Nat) : RxWave :=
  let b := r.bits + bits
  { r with bits := b, fixed := (List.replicate fixed b ++ r.fixed).filter (fun p => decide (b < p + 2 ^ 42)) }

/-- The cause for which a wavelength is weak: 1 its last 2^42 bits, 2 a burst in 2^30 bits; both tests met is 2. -/
def RxWave.weak (r : RxWave) (berexp : Nat) : Option Nat :=
  if 16 ≤ r.within (2 ^ 30) then some 2 else if 2 ^ 42 < r.within (2 ^ 42) * 10 ^ berexp then some 1 else none

/-- The receiver reports a weak wavelength to the station in a link-control flit, one report of a wavelength at a time; on the
token line where no flit runs back (log 70). -/
def State.reportWeak (s : State) (channel station wave cause fixed : Nat) : State :=
  let n := linkNo channel station
  match reverseOf channel station with
  | none => s.modLink n (fun l => { l with reports := l.reports.filter (fun e => e.1 != wave) ++ [(wave, cause, fixed)] })
  | some r => s.modLinkAt r.1 r.2 (fun l =>
      let others := l.outq.filter (fun e => match e.2 with
        | .weak m w _ _ => m != n || w != wave
        | _ => true)
      { l with outq := others ++ [(3, .weak n wave cause fixed)] })

/-- The receiver measures the wavelengths of a flit, the shadow's among them: of each its bit times, and the bits that the line
code corrected. It reports one that is weak when it is found so, and when further bits of it are corrected. -/
def State.measure (s : State) (channel station : Nat) (m : LaneMap) (fixed : List (Nat × Nat)) : State :=
  let count (w : Nat) : Nat := ((fixed.filter (fun e => e.1 == w)).map Prod.snd).sum
  let t := s.modLinkAt channel station (fun l => { l with
    rx := m.waves.foldl (fun c w => Cells.set RxWave.fresh c w ((Cells.get RxWave.fresh c w).take m.times (count w))) l.rx })
  m.waves.foldl (fun u w =>
    let n := linkNo channel station
    let r := Cells.get RxWave.fresh (u.link n).rx w
    let weak := r.weak (bits s.dev.linkcfg.toNat 31 28)
    let v := u.modLink n (fun l => { l with rx := Cells.set RxWave.fresh l.rx w { r with told := weak.isSome } })
    match weak with
    | some cause => if r.told ∧ count w = 0 then v else v.reportWeak channel station w cause (r.within (2 ^ 42))
    | none => v) t

/-! ### FLIT_RECEIVE (R335, R349 to R353) -/

/-- The partition that a flit carries a payload for. -/
def State.payloadPart (s : State) (p : Payload) : Option Nat :=
  let of (ctx domain : Nat) : Option Nat := match s.ctx? ctx with
    | some c => some c.partition
    | none => s.partOfDomain domain
  match p with
  | .request id => (s.req? id).bind (fun r => of r.ctx r.domain)
  | .reply id => (s.req? id).bind (fun r => of r.ctx r.domain)
  | .fetch id => (Tab.get s.fetches id).bind (fun f => of f.ctx f.domain)
  | .fetchReply id => (Tab.get s.fetches id).bind (fun f => of f.ctx f.domain)
  | .watch c e => (Tab.get (s.core c).watches e).bind (fun w => of w.ctx w.domain)
  | .wake c e => (Tab.get (s.core c).watches e).bind (fun w => of w.ctx w.domain)
  | .shd op => (Tab.get s.shdops op).bind (fun o => of o.ctx (s.domainOf o.ctx))
  | .shdReply op => (Tab.get s.shdops op).bind (fun o => of o.ctx (s.domainOf o.ctx))
  | .nak _ _ => none
  | .ack _ _ => none
  | .weak _ _ _ _ => none
  | .copy id _ _ _ => (Tab.get s.copies id).bind (fun c => of c.ctx (s.domainOf c.ctx))
  | .passed part _ => part

/-- LOOM_BYTES counts a flit's payload for the partition it is carried for. -/
def State.loomBytes (s : State) (p : Payload) : State := (s.payloadPart p).elim s (fun n => s.addMeter n 8 64)

/-- A flit is delivered: the expected SEQ advances, the ACK of its header word is read, its payload reaches its receiver (R351). -/
def State.acceptFlit (s : State) (channel station word : Nat) (f : Flit) : State :=
  let s3 := s.modLinkAt channel station (fun x => { x with expect := (x.expect + 1) % 256 })
  let s4 := match reverseOf channel station with
    | some r => s3.modLinkAt r.1 r.2 (fun x => x.acked (word % 256))
    | none => s3
  (if bits word 31 28 = 3 then s4 else (s4.loomBytes f.payload).sendAck channel station).deliver channel station f.payload

/-- FLIT_RECEIVE (R351 to R353): the oldest flit on a waveguide is decoded. `flips`: the bits that arrive wrong, by wavelength
and bit time; `fixed`: how many bits the line code corrected, by wavelength. TYPE, SEQ and ACK are those that it decodes; where a
wrong flit's CRC is right by chance, its payload is taken for the one that was sent (log 70). -/
def execFlitReceive (channel station : Nat) (flips fixed : List (Nat × Nat)) (s : State) : Out :=
  match (s.link (linkNo channel station)).flying with
  | [] => .next s
  | f :: rest =>
    let s1 := s.modLinkAt channel station (fun x => { x with flying := rest })
    let s2 :=
      match f.decoded station flips with
      | none => s1.flitFailed channel station f
      | some word =>
        let t := s1.modLinkAt channel station (fun x => { x with
          buffer := x.buffer.map (fun (y : Flit) => if y.seq = f.seq then { y with fails := 0 } else y) })
        if bits word 15 8 = (s.link (linkNo channel station)).expect then t.acceptFlit channel station word f
        else t.sendAck channel station
    .next (s2.measure channel station f.map fixed)

/-- FLIT_REPLAY_TIMEOUT (R352): a flit has been unacknowledged for 2 µs. -/
def execFlitReplayTimeout (channel station : Nat) (s : State) : Out :=
  if (s.link (linkNo channel station)).buffer.any (fun f => f.sent.elim false (fun t => decide (t + 1700 ≤ s.clock))) then
    .next (s.modLinkAt channel station Link.resendAll)
  else .next s

/-! ### Rotation, retraining and the shadow's calibration (R354, R359) -/

/-- The rotation step in cc: ROTSTEP units of 8 µs. -/
def State.rotStep (s : State) : Nat := bits s.dev.linkcfg.toNat 23 16 * 6800

/-- ROTATION_STEP: the lane of the next wavelength moves to the shadow; a step's end returns it. -/
def execRotationStep (channel station : Nat) (s : State) : Out :=
  let l := s.link (linkNo channel station)
  let busy : Bool := l.toShadow.isSome || l.back || l.weakWait != [] || s.rotStep == 0 ||
    (List.range 16).any (fun k => s.waveOf channel station k == .retired) || !linkExists channel station
  if busy then .next s
  else match s.shadowOf channel station with
    | .standby =>
      if s.waveOf channel station l.rotation = .carrying then
        .next (s.modLinkAt channel station (fun x => { x with
          toShadow := some (x.rotation, 0, 0), waves := Cells.set .carrying x.waves x.rotation (.recal s.clock) }))
      else .next (s.modLinkAt channel station (fun x => { x with rotation := (x.rotation + 1) % 16 }))
    | .lending r =>
      (match s.waveOf channel station r with
        | .recal since =>
          if s.clock < since + s.rotStep then .next s
          else .next (s.modLinkAt channel station (fun x => { x with
            back := true, rotation := (r + 1) % 16, waves := Cells.set .carrying x.waves r .carrying }))
        | _ => .next s)
    | _ => .next s

/-- LOOM_LAMBDA_RETURNED (R361). -/
def State.raiseReturned (s : State) (channel station wave outcome tries : Nat) : State :=
  s.raise true 0x0312 (if outcome = 2 then 1 else 0) (0x10000 + channel) none none []
    (bytesOf 2 channel ++ bytesOf 1 station ++ bytesOf 1 wave ++ bytesOf 1 outcome ++ bytesOf 1 tries)

/-- RETRAIN_DONE (R353, R354): `fixed` bits of the last 2^34 were corrected; with at most one the retrain passes, and the tests
of the wavelength start afresh. -/
def execRetrainDone (channel station wave fixed : Nat) (s : State) : Out :=
  match s.waveOf channel station wave with
  | .retrain tries =>
    if s.shadowOf channel station ≠ .lending wave then .next s
    else
      let put (st : WaveState) (b : Bool) : State := s.modLinkAt channel station (fun x => { x with
        back := b, waves := Cells.set .carrying x.waves wave st
        rx := if b then Cells.set RxWave.fresh x.rx wave RxWave.fresh else x.rx })
      if fixed ≤ 1 then .next ((put .carrying true).raiseReturned channel station wave 1 (tries + 1))
      else if tries + 1 < bits s.dev.linkcfg.toNat 27 24 then .next (put (.retrain (tries + 1)) false)
      else .next (((put .retired false).raiseReturned channel station wave 2 (tries + 1)).checkHealth false)
  | _ => .next s

/-- SHADOW_CALIBRATION_DONE (R354): after 64 µs the shadow is STANDBY. -/
def execShadowCalibrationDone (channel station : Nat) (s : State) : Out :=
  match s.shadowOf channel station with
  | .calibrating _ since =>
    if s.clock < since + 54400 then .next s
    else .next ((s.modLinkAt channel station (fun x => { x with shadow := .standby })).settleShadow channel station)
  | _ => .next s

/-! ### Loss of a comb source (R355 to R358) -/

/-- The station links that a source feeds and that are listed, or all of them. -/
def linksOfDie (die : Nat) : List (Nat × Nat) :=
  ((List.range 226).filter (fun st => dieOf st == die)).flatMap (fun st => (channelsOf st).map (fun c => (c, st)))
def State.listedLinks (s : State) (die : Nat) : List (Nat × Nat) :=
  (s.net.links.map (fun l => (l.1 / 256, l.1 % 256))).filter (fun l => dieOf l.2 == die && linkExists l.1 l.2)

/-- LOOM_LOSS_OF_LIGHT (R356): a source is lost, detected `delay` cc later, at most 2 µs. -/
def execLoomLossOfLight (source delay : Nat) (s : State) : Out :=
  if 20 ≤ source ∨ delay = 0 ∨ 1700 < delay ∨ s.dev.darkSources.contains source then .next s
  else
    let die := source / 5
    let data : Bool := source % 5 != 4
    let listed := s.listedLinks die
    let s1 := { s with dev := { s.dev with darkSources := s.dev.darkSources ++ [source] } }
    let s2 := listed.foldl (fun t l => t.modLinkAt l.1 l.2 (fun x =>
      if data then x.darkened ((List.range 4).map (4 * (source % 5) + ·)) s.clock
      else
        let home := match x.shadow with
          | .lending k => Cells.set .carrying x.waves k .carrying
          | _ => x.waves
        let waves := match x.toShadow with
          | some (k, _, _) => Cells.set .carrying home k .carrying
          | none => home
        { x.rewaved with waves := waves, toShadow := none, back := false, shadow := .standby })) s1
    let resent := if data then (listed.map (fun l => (s.link (linkNo l.1 l.2)).buffer.length)).sum else 0
    let s3 := s2.raiseLight 1 (0xA00 + source) source 0xFFFF 0xFFFF (if data then (linksOfDie die).length else 0) resent delay
      (s.partsOfDie die)
    let down := if data ∧ [0, 1, 2, 3].all (fun k => s1.dev.darkSources.contains (5 * die + k)) then
        (linksOfDie die).filter (fun l => s3.linkDown l.1 l.2)
      else listed.filter (fun l => s3.linkDown l.1 l.2)
    let s4 := if data then listed.foldl (fun t l => t.settleShadow l.1 l.2) s3 else s3
    .next ((down.foldl (fun t l => t.channelFault l.1 l.2) s4).checkHealth false)

end Sys2Proof.Machine
end

