-- ==== Sys2Proof/Machine/Preempt.lean ====
section
/-! DEFINITION. Machine/Preempt.lean: authenticated requests, pre-emption, the halt, the save, the spill of images and
the restore (R118, R119, R140, R144, R152, R183, R214, R223, R260, R268, R269, R279, R284, R324, R332 to R334, R408). -/

namespace Sys2Proof.Machine

/-! ### Requests of the management port (R408) -/

/-- Whether the secure manager's firmware serves the port: not before bring-up's first step, nor after a failed stage. -/
def State.served (s : State) : Bool := decide (1 ≤ s.dev.bootStep) && !s.dev.bootFailed

/-- The message that the operator signs: the sequence number, then the request's code and operands (log 30). -/
def authMessage (a : Auth) (request : List Byte) : List Byte := bytesOf 8 a.seq.toNat ++ request

/-- Authenticate a request with the operator's key: the signature is that of its number and the request itself, and the number
must exceed the last one accepted. -/
def State.authentic (s : State) (a : Auth) (request : List Byte) : Bool := match s.dev.opKey with
  | some k => decide (s.dev.opSeq < a.seq.toNat) && Config.slhVerify k (authMessage a request) a.sig
  | none => false

/-- Serve a request that needs the operator's key: status 1, with no effect, where it fails authentication. `busy`: it is not
served yet. -/
def State.operator (s : State) (a : Auth) (request : List Byte) (busy : Bool) (body : State → State) : State :=
  if ¬ s.served then s
  else if ¬ s.authentic a request then s.answer true 1 []
  else if busy then s
  else body { s with dev := { s.dev with opSeq := a.seq.toNat } }

/-- A command of a source: the queue number its completion goes to, and the state with the request accepted. -/
def State.fromSource (s : State) (src : Source) (request : List Byte) (busy : Bool) (body : Nat → State → State) : State :=
  match src with
  | .operator a => s.operator a request busy (body mgmtPort)
  | .scheduler => if busy then s else body schedBox s

/-- The waiting commands of the secure manager, beside the opcodes of R344: PREEMPT, RESTORE, PARTSET, UNCARVE, CARVE and GENBUMP. -/
def opPreempt : Nat := 0x10001
def opRestore : Nat := 0x10002
def opPartset : Nat := 0x10003
def opUncarve : Nat := 0x10004
def opCarve : Nat := 0x10005
def opGenbump : Nat := 0x10006

/-- The contexts of a partition. -/
def State.ctxsOfPart (s : State) (part : Nat) : List Nat :=
  (Tab.list s.contexts).filterMap (fun e => if e.2.partition = part then some e.1 else none)

/-- Whether a partition is still busy with an earlier command or pre-emption (R324). -/
def State.partBusy (s : State) (part : Nat) : Bool := match s.part? part with
  | some p => p.preempt.isSome || p.closing || p.pending.isSome || !p.ready || s.pendOf opPartset part != [] ||
      (s.ctxsOfPart part).any (fun c => s.pendOf opRestore c != [])
  | none => false

/-- A command waits for its effect to end. -/
def State.await (s : State) (qn opcode subject : Nat) : State :=
  ({ s with pend := Tab.set s.pend s.nextId (some
    { queue := qn, tag := 0, caddr := 0, opcode := opcode, subject := subject, done := none }) } : State).fresh

/-! ### PREEMPT (R268, R324, R334) -/

def preemptOps (part : Nat) (ctx : Option Nat) : List Byte := 4 :: (bytesOf 8 part ++ ctx.elim [] (bytesOf 8))

/-- PREEMPT names a partition, or one context of it, which must be RUNNING. -/
def execPreempt (src : Source) (part : Nat) (ctx : Option Nat) (s : State) : Out :=
  .next (s.fromSource src (preemptOps part ctx) (s.partBusy part) (fun qn t =>
    match t.part? part with
    | none => t.finish qn 0 0 3 0
    | some _ =>
      match ctx with
      | some c =>
        match t.ctx? c with
        | none => t.finish qn 0 0 3 0
        | some x =>
          if x.partition ≠ part then t.finish qn 0 0 3 0
          else if x.state ≠ .running then t.finish qn 0 0 4 0
          else (t.askPreempt part [c] false).await qn opPreempt part
      | none =>
        let run := (t.ctxsOfPart part).filter (fun c => (t.ctx? c).elim false (fun x => x.state == .running))
        if run = [] then t.finish qn 0 0 0 0
        else (t.askPreempt part run false).await qn opPreempt part))

/-! ### The halt (R268) -/

/-- The skeins of some contexts that are on cores. -/
def State.skeinsOf (s : State) (ctxs : List Nat) : List (Nat × Skein) :=
  (Tab.list s.skeins).filter (fun e => ctxs.contains e.2.ctx && e.2.core.isSome)

/-- Contexts of a pre-emption that are still to be saved. -/
def State.toSave (s : State) (p : Partition) : List Nat :=
  p.preempting.filter (fun c => (s.ctx? c).elim false (fun x => x.state == .preempting))

/-- A request that the halt waits for: a load, an LDGA, a fill or a spill on its way; an atomic whose strand waits, until
8 µs have passed. -/
def Req.delaysHalt (r : Req) (abandoned : Bool) : Bool :=
  !r.stopped && (match r.kind with
    | .load => true
    | .ldga => true
    | .fill => true
    | .spill => true
    | .atomic => r.reg != 63 && !abandoned
    | _ => false)

/-- Whether a skein has reached the halted state. -/
def State.skeinHalted (s : State) (k : Nat) (sk : Skein) (abandoned : Bool) : Bool :=
  !(Tab.list s.reqs).any (fun e => e.2.skein == k && e.2.delaysHalt abandoned) &&
  !(s.core (sk.core.getD 0)).engine.any (fun o => o.skein == k) &&
  !(Tab.list sk.wefts).any (fun w => !(sk.midChain w.1 w.2).isEmpty) &&
  (abandoned || !((Tab.list sk.wefts).any (fun w => w.2.shadowWait.isSome) ||
    (Tab.list s.copies).any (fun e => e.2.skein == k && e.2.phase != 0 && !e.2.frozen)))

/-- A strand as the halt leaves it: a parked or path-waiting one is at its PC, to issue again (R152, R284). -/
def State.haltStrand (s : State) (c : CoreSt) (i : Nat) (t : Strand) : Strand :=
  match t.status with
  | .pathwait _ => { t with status := .ready }
  | .parked (.watch e) =>
    let left := ((Tab.get c.watches e).bind (fun w => (w.strands.find? (fun x => x.1 == i)).bind Prod.snd)).elim 0 (fun d =>
      Nat.max 1 (d - s.clock))
    { t with status := .ready, watchLeft := some left }
  | .parked _ => { t with status := .ready }
  | _ => t

/-- A weft as the halt leaves it: off the active set, with what remains of its timers (R140). -/
def Weft.halt (w : Weft) (clock : Nat) : Weft :=
  { w with
    activeSince := none, entries := [], yielded := [], chain := [], scrubWait := false, retireWait := none
    records := w.records.map (fun r => { r with deadline := r.deadline.map (· - clock) }) }

/-- Halt a skein. -/
def State.haltSkein (s : State) (k : Nat) (sk : Skein) : State :=
  let n := sk.core.getD 0
  let c := s.core n
  let s1 := s.modSkein k (fun x => { x with
    strands := x.strands.map (fun (t : Nat × Option Strand) => (t.1, t.2.map (s.haltStrand c t.1)))
    wefts := x.wefts.map (fun (t : Nat × Option Weft) => (t.1, t.2.map (fun u => u.halt s.clock))) })
  let s2 := s1.modCore n (fun x => { x with watches := x.watches.filter (fun e => match e.2 with
    | some w => w.skein != k
    | none => true) })
  let s3 := s2.sendWc n (fun e => e.reqs.any (fun id => (s2.req? id).elim false (fun r => r.skein == k)))
  { s3 with
    copies := s3.copies.map (fun (e : Nat × Option Copy) => (e.1, e.2.map (fun (y : Copy) =>
      if y.skein = k then { y with parked := none, phase := 0, waits := 0, packet := 0 } else y)))
    fetches := s3.fetches.map (fun (e : Nat × Option Fetch) => (e.1, e.2.map (fun (f : Fetch) =>
      { f with waiting := f.waiting.filter (fun w => w.1 != k) }))) }

/-- A record that no fault has: an abandoned LDGA waits under it for the restore. -/
def noRecord : Nat := 2 ^ 40

/-- Abandon one request: a load, fill or spill is dropped and its strand issues again at resume; an LDGA is kept, to be
sent again (R268). -/
def State.abandonReq (s : State) (id : Nat) (r : Req) : State :=
  match r.kind with
  | .ldga =>
    ({ (s.dropReq id) with reqs := Tab.set (s.dropReq id).reqs s.nextId (some { r with stage := .held 0 noRecord }) } : State).fresh
  | _ =>
    let t := if r.kind = .spill then s.modReq id (fun x => { x with strand := 1024 }) else s.dropReq id
    t.modStrand r.skein r.strand (fun x => if x.hold = some id then { x with hold := none } else x)

/-- ABANDON_TIMEOUT (R268): 8 µs after the request, loads are abandoned; atomics and shadow operations are recorded. -/
def execAbandonTimeout (part : Nat) (s : State) : Out :=
  match s.part? part with
  | none => .next s
  | some p =>
    match p.preempt with
    | none => .next s
    | some t0 =>
      if p.abandoned ∨ p.haltedAt.isSome ∨ s.clock < t0 + 6800 then .next s
      else
        let ks := (s.skeinsOf (s.toSave p)).map Prod.fst
        let rs := (Tab.list s.reqs).filter (fun e => ks.contains e.2.skein && e.2.delaysHalt true)
        .next ((rs.foldl (fun t e => t.abandonReq e.1 e.2) s).modPart part (fun x => { x with abandoned := true }))

/-! ### The save (R152, R214, R332, R334) -/

/-- Bytes of a quadrant's shadow store, and of the largest image (R332). -/
def imageStore : Nat := 50331648
def imageLimit : Nat := 44630016

/-- Bytes of a quadrant's store that images take. -/
def State.storeUsed (s : State) (q : Nat) : Nat := ((Tab.list s.contexts).map (fun e => Cells.get 0 e.2.image q)).sum

/-- Which images share a store, and since when (R332). -/
def State.noteShares (s : State) : State :=
  let shares (n : Nat) (c : Context) : Bool := c.image.any (fun e => (Tab.list s.contexts).any (fun o =>
    o.1 != n && Cells.get 0 o.2.image e.1 != 0))
  (Tab.list s.contexts).foldl (fun t e =>
    let v := if shares e.1 e.2 then some (e.2.sharedSince.getD s.clock) else none
    if v = e.2.sharedSince then t else t.modCtx e.1 (fun x => { x with sharedSince := v })) s

/-- A skein's scratch words, read through the ordinary path. -/
def State.saveScratch (s : State) (k : Nat) (sk : Skein) : State :=
  let c := sk.core.getD 0
  let r := ((s.scratch c).usedWords sk.scrBase sk.kern.scratch).foldl (fun (a : State × Cells Byte) w =>
    match a.1.scRead c (w * 16) 16 none false with
    | (t, some bs) => (t, writeBytes a.2 (w * 16 - sk.scrBase) bs)
    | (t, none) => (t, a.2)) (s, [])
  r.1.modSkein k (fun x => { x with savedScratch := r.2 })

/-- A skein leaves its core: its image is taken, its slot cleared; the core's reuse table is cleared (R73). -/
def State.saveSkein (s : State) (k : Nat) (sk : Skein) : State :=
  let c := sk.core.getD 0
  let s1 := s.saveScratch k sk
  match s1.skein? k with
  | none => s1
  | some _ =>
    let inj := if (s1.core c).abftSkein = k then some (s1.core c).abftinj else none
    (s1.modSkein k (fun x => { x with core := none, savedInj := inj })).modCore c (fun x => { x with
      abftinj := if x.abftSkein = k then 0 else x.abftinj
      reuse := []
      slots := x.slots.filter (fun e => match e.2 with
        | some b => b.skein != some k
        | none => true) })

/-- The images of a context by quadrant: each within R332's limit, of a size the spec does not state (log 26); what does
not fit the `room` that the stores had when the save began goes to HBM. Gives the image in the stores, the quadrants that did
not fit, the largest, the bytes written to HBM. -/
def State.sizeImages (s : State) (left : Cells Nat) (quads : List Nat) : (Cells Nat × Nat × Nat × Nat) × State :=
  quads.foldl (fun (a : (Cells Nat × Nat × Nat × Nat) × State) q =>
    let n := Config.freeNat a.2.free % (imageLimit + 1)
    let room := Cells.get 0 left q
    ((Cells.set 0 a.1.1 q (Nat.min n room), if room < n then a.1.2.1 ||| 2 ^ q else a.1.2.1, Nat.max a.1.2.2.1 n,
      a.1.2.2.2 + (n - room)), { a.2 with free := a.2.free + 1 })) (([], 0, 0, 0), s)

/-- Choose contexts for a restore, which the scheduler then binds (R324, R333). -/
def State.chooseRestore (s : State) (ctxs : List Nat) : State :=
  ctxs.foldl (fun t c => t.modCtx c (fun x =>
    if x.state = .saved ∨ x.state = .spilled then { x with restoring := some s.clock, spilling := none } else x)) s

/-- PREEMPT_DONE, and what follows a pre-emption (R324, R334). -/
def State.endPreempt (s : State) (part : Nat) : State :=
  match s.part? part with
  | none => s
  | some p =>
    if p.preempt = none ∨ p.haltedAt = none ∨ s.toSave p ≠ [] then s
    else
      let t0 := p.preempt.getD 0
      let h := p.haltedAt.getD 0
      let s1 := if p.savedCtxs = [] then s else
        s.raise true 0x0110 0 0 (some part) (match p.savedCtxs with
          | [c] => some c
          | _ => none) [] (bytesOf 4 (h - t0) ++ bytesOf 4 (s.clock - h) ++ bytesOf 2 p.misfit ++
          bytesOf 2 p.savedCtxs.length ++ bytesOf 8 p.largest)
      let s2 := s1.modPart part (fun x => { x with
        preempt := none, haltedAt := none, preempting := [], restoreAfter := false, abandoned := false, savedCtxs := [],
        misfit := 0, largest := 0 })
      let s3 := if p.restoreAfter then s2.chooseRestore p.savedCtxs else s2
      s3.endPendOf opPreempt part 0 0

/-- HALT_COMPLETE (R268): every core of the partition has reached the halted state. -/
def execHaltComplete (part : Nat) (s : State) : Out :=
  match s.part? part with
  | none => .next s
  | some p =>
    let ctxs := s.toSave p
    let sks := s.skeinsOf ctxs
    if p.preempt = none ∨ p.haltedAt.isSome ∨ sks.any (fun e => !s.skeinHalted e.1 e.2 p.abandoned) then .next s
    else
      let s1 := sks.foldl (fun t e => t.haltSkein e.1 e.2) s
      let s2 := ctxs.foldl (fun t c => (t.boltsOf c).foldl (fun u b =>
        u.modBolt b (fun x => if x.state = .halting then { x with state := .saved } else x)) t) s1
      .next ((s2.modPart part (fun x => { x with
        haltedAt := some s.clock
        room := x.quads.foldl (fun m q => Cells.set 0 m q (imageStore - s2.storeUsed q)) [] })).endPreempt part)

/-- CONTEXT_SAVE_COMPLETE (R332): a context of a halted pre-emption is saved. -/
def execContextSaveComplete (ctx : Nat) (s : State) : Out :=
  match (s.ctx? ctx).bind (fun c => (s.part? c.partition).map (fun p => (c, p))) with
  | none => .next s
  | some (c, p) =>
    if c.state ≠ .preempting ∨ p.haltedAt = none ∨ ¬ p.preempting.contains ctx ∨
       (s.skeinsOf [ctx]).any (fun e => s.rebuildsOn (e.2.core.getD 0) && decide (0 < e.2.kern.scratch)) then .next s
    else
      let sks := s.skeinsOf [ctx]
      let quads := (sks.map (fun e => quadOf (e.2.core.getD 0))).dedup
      let o := s.sizeImages p.room quads
      let s1 := sks.foldl (fun t e => match t.skein? e.1 with
        | some sk => t.saveSkein e.1 sk
        | none => t) o.2
      match s1.ctx? ctx with
      | none => .next s1
      | some c1 =>
        let s2 :=
          if c1.state ≠ .preempting then s1
          else
            let s3 := ((s1.modCtx ctx (fun x => { x with state := .saved, image := o.1.1, sharedSince := none })).addMeter
              c.partition 7 o.1.2.2.2).modPart c.partition (fun x => { x with
                room := o.1.1.foldl (fun m e => Cells.set 0 m e.1 (Cells.get 0 m e.1 - e.2)) x.room
                savedCtxs := x.savedCtxs ++ [ctx], misfit := x.misfit ||| o.1.2.1, largest := Nat.max x.largest o.1.2.2.1 })
            if c1.destroyWait then s3.startDrain ctx else s3
        .next ((s2.endPreempt c.partition).noteShares)

/-- IMAGE_SPILL_START (R332): a saved image, not selected for restore, has shared its store for 100 µs. -/
def execImageSpillStart (ctx : Nat) (s : State) : Out :=
  match s.ctx? ctx with
  | none => .next s
  | some c =>
    match c.sharedSince with
    | none => .next s
    | some t =>
      if c.state ≠ .saved ∨ c.restoring.isSome ∨ c.spilling.isSome ∨ s.clock < t + 85000 then .next s
      else .next (s.modCtx ctx (fun x => { x with spilling := some s.clock }))

/-- SPILL_COMPLETE (R332): the image is in HBM. -/
def execSpillComplete (ctx : Nat) (s : State) : Out :=
  match s.ctx? ctx with
  | none => .next s
  | some c =>
    if c.state ≠ .saved ∨ c.spilling = none then .next s
    else
      let n := (c.image.map Prod.snd).sum
      .next (((s.addMeter c.partition 7 n).modCtx ctx (fun x => { x with
        state := .spilled, image := [], sharedSince := none, spilling := none })).noteShares)

/-! ### The restore (R118, R290, R324, R333) -/

/-- Whether a GENBUMP of a domain is under way (R290). -/
def State.bumping (s : State) (domain : Nat) : Bool := s.pendOf opGenbump domain != []

def restoreOps (ctx : Nat) : List Byte := 5 :: bytesOf 8 ctx

/-- RESTORE (R324, R333): the context is selected; the scheduler binds its bolts. -/
def execRestore (src : Source) (ctx : Nat) (s : State) : Out :=
  let part := (s.ctx? ctx).elim 64 Context.partition
  .next (s.fromSource src (restoreOps ctx) (s.partBusy part || s.bumping (s.domainOf ctx)) (fun qn t =>
    match t.ctx? ctx with
    | none => t.finish qn 0 0 3 0
    | some c =>
      if c.state ≠ .saved ∧ c.state ≠ .spilled then t.finish qn 0 0 4 0
      else (t.chooseRestore [ctx]).await qn opRestore ctx))

/-- Whether a saved atomic or shadow operation of the context still waits for its answer (R268). -/
def State.repliesDue (s : State) (ctx : Nat) : Bool :=
  (Tab.list s.reqs).any (fun e => e.2.ctx == ctx && e.2.kind == .atomic && e.2.reg != 63 && !e.2.stopped) ||
  (Tab.list s.skeins).any (fun e => e.2.ctx == ctx && (Tab.list e.2.wefts).any (fun w => w.2.shadowWait.isSome))

/-- RESTORE_COMPLETE (R118, R266, R269, R333): the whole image is back on cores, its space is freed and the cores are
released. A context none of whose bolts was saved is READY (R326). It waits for a PARTSET of its partition, whose settings change
while no context is RUNNING (R322). -/
def execRestoreComplete (ctx : Nat) (s : State) : Out :=
  match s.ctx? ctx with
  | none => .next s
  | some c =>
    let bs := (Tab.list s.bolts).filter (fun e => e.2.ctx == ctx)
    let on := bs.filter (fun e => e.2.state == .running)
    if c.restoring = none ∨ bs.any (fun e => e.2.state == .saved) ∨ s.repliesDue ctx ∨
       (s.part? c.partition).elim false (fun p => p.pending.isSome) then .next s
    else
      let s1 := s.modCtx ctx (fun x => { x with
        state := if on.isEmpty then .ready else .running, restoring := none, image := [], sharedSince := none
        gen := Cells.get 0 s.homes.gens x.domain })
      let s2 := on.foldl (fun t e => e.2.skeins.foldl State.releaseSkein t) s1
      let s3 := (s2.endPendOf opRestore ctx 0 0).noteShares
      .next s3

/-- A RESTORE whose context has faulted or drained meanwhile ends with status 4 (R324). -/
def State.settleRestores (s : State) : State :=
  (Tab.list s.pend).foldl (fun t e =>
    if e.2.opcode = opRestore ∧ e.2.done = none ∧ (t.ctx? e.2.subject).elim true (fun c => c.restoring.isNone) then
      t.endPend e.1 4 0
    else t) s

end Sys2Proof.Machine
end

