-- ==== Sys2Proof/Machine/Pages.lean ====
section
/-! DEFINITION. Machine/Pages.lean: the commands to the homes: moves and recodings of granules, PROTECT with the cluster
filters, TINVAL, REPLAY, extents, generations, and the withdrawal of pool extents (R289, R290, R298 to R303, R309). -/

namespace Sys2Proof.Machine

/-! ### Granules (R300) -/

def granOf (domain granule : Nat) : Nat := domain * 2 ^ 43 + granule
def State.granState (s : State) (gk : Nat) : GranState := Cells.get .mapped s.homes.gran gk
def State.setGran (s : State) (gk : Nat) (g : GranState) : State :=
  s.modHomes (fun h => { h with gran := Cells.set .mapped h.gran gk g })

/-- The stage-1 result and the stage-2 entry of a granule that is present. -/
def State.present (s : State) (gk : Nat) : Option (Attr × Stage2) :=
  let domain := gk / 2 ^ 43
  match homeAttr s.homes domain (gk % 2 ^ 43 * 16384) with
  | .error _ => none
  | .ok a => (Tab.get s.homes.stage2 (s2Key domain a.dfn)).map (fun s2 => (a, s2))

/-- The cached stage-1 results and the rights in L2 lines of some granules are dropped. -/
def State.dropRights (s : State) (p : Nat → Bool) : State :=
  (s.modHomes (fun h => h.forget p)).dropLines 1
    (fun l => p (l.domain * 2 ^ 43 + l.line / 64))

/-- XREVOKING starts (R301): the translation is dropped, and every filter that lists the granule has still to
acknowledge; with none the granule stays MAPPED. -/
def State.startRevoke (s : State) (gk : Nat) : State :=
  let s1 := s.dropRights (· == gk)
  match (s.homes.filter.filter (fun e => e.2.contains gk)).map Prod.fst with
  | [] => s1
  | w => s1.setGran gk (.xrevoking w)

/-- Whether a frame is in use or set aside. -/
def State.frameUsed (s : State) (f : Nat) : Bool :=
  (Tab.list s.homes.stage2).any (fun e => e.2.frame == f) || s.homes.shadowFrames.any (fun e => e.2.contains f) ||
  s.homes.gran.any (fun e => match e.2 with
    | .moving g _ => g == f
    | _ => false) ||
  s.homes.granCmds.any (fun e => e.2.any (fun c => match c with
    | .move g _ => g == f
    | _ => false)) ||
  (Tab.list s.contexts).any (fun c => (Tab.list c.2.shadows).any (fun x => (Tab.list x.2.granules).any (fun g => g.2.frame == f)))

/-- Whether a frame lies in a pool extent that is withdrawn, or has been (R302). -/
def State.withdrawn (s : State) (f : Nat) : Bool :=
  (Tab.list s.homes.withdrawals).any (fun w => decide (w.2.frame ≤ f ∧ f < w.2.frame + w.2.count))

/-- A command of the secure manager on a granule completes (R299), with or without its effect. -/
def State.granOver (s : State) (gk : Nat) (c : GranCmd) (ok : Bool) : State :=
  s.modHomes (fun h => { h with granDone := h.granDone ++ [(gk, c, ok)] })

/-- A pool frame that a command took and does not use is free again. -/
def State.giveFrame (s : State) (f : Nat) : State :=
  if 128 * hbmFrames ≤ f ∧ ¬ s.withdrawn f then s.modHomes (fun h => { h with poolFrames := h.poolFrames ++ [f] }) else s

/-- A move starts where its frame is one of the tier, and of no extent that is being withdrawn: the secure manager names no
other, so a command that does ends with no effect (log 65). -/
def State.startMove (s : State) (gk f : Nat) (tier : Option Nat) (e : Attr × Stage2) : State :=
  let t := tier.getD e.2.tier
  if frameFits (homeOf s.homes (gk / 2 ^ 43) (gk % 2 ^ 43 * 16384)) t f ∧ ¬ s.withdrawn f then s.setGran gk (.moving f t)
  else (s.giveFrame f).granOver gk (.move f tier) false

/-- Start a command of the homes on a granule. -/
def State.startGran (s : State) (gk : Nat) (c : GranCmd) : State :=
  match c, s.present gk with
  | .protect, _ => s.startRevoke gk
  | .move f t, some e => s.startMove gk f t e
  | .recode b, some e => if b ∧ ¬ e.1.cmpOk then s.granOver gk (.recode b) false else s.setGran gk (.recoding b)
  | _, none => s

/-- Whether a granule takes a command now: it is present and MAPPED (R300). PROTECT of a page that stage 1 does not map has no
granule to wait for (log 65). -/
def State.granTakes (s : State) (gk : Nat) (c : GranCmd) : Bool :=
  s.granState gk == .mapped && ((s.present gk).isSome ||
    (c == .protect && (homeAttr s.homes (gk / 2 ^ 43) (gk % 2 ^ 43 * 16384)).toOption.isNone))

/-- A command of the homes on a granule: at once, or behind the earlier ones once the granule is MAPPED (R300). -/
def State.granCommand (s : State) (gk : Nat) (c : GranCmd) : State :=
  let q := Cells.get [] s.homes.granCmds gk
  if s.granTakes gk c ∧ q = [] then s.startGran gk c
  else s.modHomes (fun h => { h with granCmds := Cells.set [] h.granCmds gk (q ++ [c]) })

/-- Every granule that is MAPPED again takes its next command. -/
def State.settleGrans (s : State) : State :=
  s.homes.granCmds.foldl (fun t e =>
    match e.2 with
    | [] => t
    | c :: rest =>
      if t.granTakes e.1 c then
        (t.modHomes (fun h => { h with granCmds := Cells.set [] h.granCmds e.1 rest })).startGran e.1 c
      else t) s

/-- A move of the secure manager, which names a free frame. -/
def State.moveGran (s : State) (domain granule frame : Nat) (tier : Option Nat) : State :=
  let home := homeOf s.homes domain (granule * 16384)
  if s.frameUsed frame ∨ s.withdrawn frame ∨ ¬ ((tier.elim [0, 1] (fun t => [t])).any (fun t => frameFits home t frame)) then
    s.granOver (granOf domain granule) (.move frame tier) false
  else
    (s.modHomes (fun h => { h with poolFrames := h.poolFrames.filter (· != frame) })).granCommand (granOf domain granule)
      (.move frame tier)

/-- MIGRATE (R300): another frame of the granule's tier. -/
def execMigrate (domain granule frame : Nat) (s : State) : Out := .next (s.moveGran domain granule frame none)

/-- TIERMOVE (R300): a frame of the tier named. -/
def execTiermove (domain granule tier frame : Nat) (s : State) : Out := .next (s.moveGran domain granule frame (some tier))

/-- The bytes of a frame, with the marks of its poisoned lines, go to another frame. -/
def Homes.copyFrame (h : Homes) (src dst : Nat) : Homes :=
  let h1 := h.fillFrame dst (readBytes h.mem (src * 16384) 16384)
  { h1 with
    poisonLines := (List.range 64).foldl (fun m j =>
      Cells.set false m (dst * 64 + j) (Cells.get false h.poisonLines (src * 64 + j))) h1.poisonLines
    rewritten := (h.rewritten.filter (fun e => decide (src * 16384 ≤ e.1 ∧ e.1 < (src + 1) * 16384))).foldl (fun m e =>
      Cells.set false m (e.1 - src * 16384 + dst * 16384) e.2) h1.rewritten }

/-- MOVE_COMPLETE (R300): the copy is complete; FRAME and TIERNOW are written, and the old frame is free. Dirty lines of
the granule that an error has struck are found damaged when they are written back to the new frame (R370). -/
def execMoveComplete (domain granule : Nat) (s : State) : Out :=
  let gk := granOf domain granule
  match s.granState gk with
  | .moving f t =>
    .next (match s.present gk with
      | none => ((s.setGran gk .mapped).giveFrame f).granOver gk (.move f (some t)) false
      | some (a, s2) =>
        let s1 := ((s.granOver gk (.move f (some t)) true).modHomes (fun h =>
          let h1 := h.copyFrame s2.frame f
          ({ h1 with poolFrames := if s2.tier = 1 then h1.poolFrames ++ [s2.frame] else h1.poolFrames } : Homes).putStage2 domain
            a.dfn (some { s2 with frame := f, tier := t }))).setGran gk .mapped
        s1.dropLines 3 (fun l => l.domain == domain && l.line / 64 == granule && l.dirty != 0 && l.bad))
  | _ => .next s

/-- COMPRESS (R299), where the page allows it. -/
def execCompress (domain granule : Nat) (s : State) : Out := .next (s.granCommand (granOf domain granule) (.recode true))

/-- EXPAND (R299). -/
def execExpand (domain granule : Nat) (s : State) : Out := .next (s.granCommand (granOf domain granule) (.recode false))

/-- RECODING_COMPLETE (R300): every line is rewritten; CMP is written. -/
def execRecodingComplete (domain granule : Nat) (s : State) : Out :=
  let gk := granOf domain granule
  match s.granState gk with
  | .recoding b =>
    .next (match s.present gk with
      | none => (s.setGran gk .mapped).granOver gk (.recode b) false
      | some (a, s2) => ((s.granOver gk (.recode b) true).modHomes (fun h =>
          h.putStage2 domain a.dfn (some { s2 with cmp := b }))).setGran gk .mapped)
  | _ => .next s

/-! ### PROTECT and the filters (R301, R309) -/

/-- Granules of the leaf that maps a VA: 1, 128 or 65,536; 1 where no leaf does. -/
def pageGrans (h : Homes) (domain va : Nat) : Nat :=
  match Tab.get h.roots (domain * 1024 + moduleOf va) with
  | none => 1
  | some root =>
    match s1Entry h domain root (bits va 46 39) with
    | none => 1
    | some e3 =>
      match s1Entry h domain (bits e3 51 16) (bits va 38 30) with
      | none => 1
      | some e2 =>
        if bit e2 0 ∧ bit e2 1 then 65536
        else match s1Entry h domain (bits e2 51 16) (bits va 29 21) with
        | none => 1
        | some e1 => if bit e1 0 ∧ bit e1 1 then 128 else 1

/-- Whether a PROTECT of some granules still waits for one of them. -/
def State.protecting (s : State) (first count : Nat) : Bool :=
  s.homes.gran.any (fun e => decide (first ≤ e.1 ∧ e.1 < first + count) && (match e.2 with
    | .xrevoking _ => true
    | _ => false)) ||
  s.homes.granCmds.any (fun e => decide (first ≤ e.1 ∧ e.1 < first + count) && e.2.contains .protect)

/-- PROTECT (R301, R344). The subject it waits on names its granules. -/
def execProtect (queue : Nat) (s : State) : Out :=
  s.command queue 0x010A [(16, 8)] (fun c t =>
    let va := fieldAt c.bytes 16 8
    if 2 ^ 57 ≤ va then .fin 1 0 t
    else
      let n := pageGrans t.homes c.q.domain va
      let first := granOf c.q.domain (va / 16384 / n * n)
      let u := (List.range n).foldl (fun x j => x.granCommand (first + j) .protect) t
      if u.protecting first n then .wait (first * 2 ^ 17 + n) u else .fin 0 0 u)

/-- PROTECTs complete after their last granule. -/
def State.settleProtects (s : State) : State :=
  (Tab.list s.pend).foldl (fun t e =>
    if e.2.opcode = 0x010A ∧ e.2.done = none ∧ ¬ t.protecting (e.2.subject / 2 ^ 17) (e.2.subject % 2 ^ 17) then t.endPend e.1 0 0
    else t) s

/-- FILTER_INVALIDATION (R309): the filter removes every line of the granule and acknowledges. -/
def execFilterInvalidation (cluster domain granule : Nat) (s : State) : Out :=
  let gk := granOf domain granule
  match s.granState gk with
  | .xrevoking w =>
    if ¬ w.contains cluster then .next s
    else
      let away (l : ILine) : Bool := granKey (transDomain s.homes l.domain (l.line * 64)) (l.line * 64) == gk
      let keep (ls : List ILine) : List ILine := ls.filter (fun l => !away l)
      let s1 := s.modHomes (fun h => { h with
        icache := Cells.set [] h.icache cluster (keep (Cells.get [] h.icache cluster))
        filter := Cells.set [] h.filter cluster ((Cells.get [] h.filter cluster).filter (· != gk)) })
      let s2 := (clusterCores cluster).foldl (fun t c => t.modCore c (fun x => { x with icache := keep x.icache })) s1
      .next (s2.setGran gk (.xrevoking (w.map (fun c => if c = cluster then c + 256 else c))))
  | _ => .next s

/-- FILTER_ACK (R301): with the last acknowledgement the granule is MAPPED. -/
def execFilterAck (cluster domain granule : Nat) (s : State) : Out :=
  let gk := granOf domain granule
  match s.granState gk with
  | .xrevoking w =>
    if ¬ w.contains (cluster + 256) then .next s
    else
      let w' := w.filter (· != cluster + 256)
      .next (if w' = [] then (s.setGran gk .mapped).settleProtects else s.setGran gk (.xrevoking w'))
  | _ => .next s

/-! ### TINVAL and REPLAY (R298, R299) -/

/-- The walks in progress for some granules: accesses that the homes have accepted (R299). -/
def State.walksIn (s : State) (lo hi : Nat) : List Payload :=
  s.homes.walks.filterMap (fun e => if lo ≤ granKey e.1.domain e.1.va ∧ granKey e.1.domain e.1.va < hi then some e.2 else none)

/-- TINVAL (R299, R344): it completes after what the homes have accepted for the range has taken effect. -/
def execTinval (queue : Nat) (s : State) : Out :=
  s.command queue 0x0109 [(16, 16)] (fun c t =>
    let va := fieldAt c.bytes 16 8
    let n := fieldAt c.bytes 24 8
    if 2 ^ 57 < va + n then .fin 1 0 t
    else
      let lo := granOf c.q.domain (va / 16384)
      let hi := granOf c.q.domain ((va + n + 16383) / 16384)
      if n = 0 then .fin 0 0 t
      else
        let ws := t.walksIn lo hi
        let u := t.dropRights (fun gk => decide (lo ≤ gk ∧ gk < hi))
        if ws = [] then .fin 0 0 u else .waitFor ws u)

/-- TINVALs complete once the walks that they wait for have ended. -/
def State.settleTinvals (s : State) : State :=
  (Tab.list s.pend).foldl (fun t e =>
    if e.2.opcode = 0x0109 ∧ e.2.done = none ∧ ¬ e.2.waits.any t.walksFor then t.endPend e.1 0 0 else t) s

/-- Microseconds since a moment of the clock. -/
def State.microsSince (s : State) (t : Nat) : Nat := (s.clock - t) / 850

/-- A fault record closes; what is parked or held under it goes on, and every other module with a requester parked under it is
sent a release (R298, R183, R222). -/
def State.replayRecord (s : State) (id : Nat) : State :=
  let away := (Tab.get s.homes.faultRecs id).elim [] FaultRec.remotes
  let s0 := away.foldl (fun t m => t.tell (.release m id)) s
  let s1 := s0.modHomes (fun h => { h with faultRecs := Tab.set h.faultRecs id none })
  let s2 := (Tab.list s.skeins).foldl (fun t e => match e.2.core with
    | none => t
    | some c => (Tab.list e.2.strands).foldl (fun u x =>
        if x.2.parkedOn = some id then u.capture (quadOf c) 3 (c % 48) (s.microsSince x.2.parkedSince) else u) t) s1
  let s3 := (Tab.list s.copies).foldl (fun t e =>
    if e.2.parked = some id then
      { t.capture (quadOf e.2.core) 3 (e.2.core % 48) (s.microsSince e.2.parkedAt) with
        copies := Tab.upd t.copies e.1 (fun y => { y with parked := none }) }
    else t) (s2.releaseParked id)
  (Tab.list s.reqs).foldl (fun t e => match e.2.stage with
    | .held _ rec =>
      if rec = id then
        if ((t.skein? e.2.skein).bind Skein.core).isSome then
          (t.capture (quadOf e.2.core) 3 (e.2.core % 48) (s.microsSince e.2.nackAt)).resend e.1
        else t.modReq e.1 (fun r => { r with stage := .held 0 noRecord })
      else t
    | _ => t) s3

/-- REPLAY (R298): of the domain's system queue, for its stage-1 records; or of the secure manager, and the release that
comes from another module for a record of that module. -/
def execReplay (queue : Option Nat) (id : Nat) (s : State) : Out :=
  match queue with
  | some q => s.command q 0x0108 [(16, 4)] (fun c t =>
      let n := fieldAt c.bytes 16 4
      match Tab.get t.homes.faultRecs n with
      | some r => .fin 0 0 (if r.domain = c.q.domain ∧ ¬ r.toSm then t.replayRecord n else t)
      | none => .fin 0 0 t)
  | none =>
    .next (if 2 ^ 32 ≤ id then (if id < 2 ^ 40 then s.replayRecord id else s)
      else match Tab.get s.homes.faultRecs id with
        | some r => if r.toSm then s.replayRecord id else s
        | none => s)

/-! ### Extents and generations (R289, R290) -/

/-- EXTENT_GRANT (R289). -/
def execExtentGrant (extent owner : Nat) (shared : Bool) (s : State) : Out :=
  if 65536 ≤ extent ∨ 65536 ≤ owner then .next s
  else .next (s.modHomes (fun h => { h with
    ownership := Tab.set h.ownership extent (some { withdrawing := false, shared := shared, domain := owner }) }))

/-- EXTENT_WITHDRAW (R289): the secure manager marks the extent WITHDRAWING, and then takes it back. -/
def execExtentWithdraw (extent : Nat) (s : State) : Out :=
  .next (match Tab.get s.homes.ownership extent with
    | none => s
    | some e => s.modHomes (fun h => { h with
        ownership := Tab.set h.ownership extent (if e.withdrawing then none else some { e with withdrawing := true }) }))

/-- A command of the secure manager itself: its completion goes to no queue. -/
def ownCommand : Nat := 2 ^ 32 + 2

/-- The RUNNING contexts of a domain. -/
def State.runningOf (s : State) (domain : Nat) : List Nat :=
  (Tab.list s.contexts).filterMap (fun e => if e.2.domain = domain ∧ e.2.state = .running then some e.1 else none)

/-- GENBUMP (R290): every RUNNING context of the domain is pre-empted; the bump waits until none runs. -/
def execGenbump (domain : Nat) (s : State) : Out :=
  let part := s.partOfDomain domain
  if part.elim false s.partBusy ∨ s.bumping domain ∨ 65536 ≤ domain then .next s
  else .next ((part.elim s (fun p => s.askPreempt p (s.runningOf domain) false)).await ownCommand opGenbump domain)

/-- The bump (R290): the generation changes, dirty lines are written back, every cached line and translation of the domain goes,
and its contexts carry the new value, which kills their load entries (R72). -/
def State.applyBump (s : State) (domain : Nat) : State :=
  let g := (Cells.get 0 s.homes.gens domain + 1) % 4096
  let s1 := (s.modHomes (fun h =>
    ({ h with gens := Cells.set 0 h.gens domain g } : Homes).forget (fun key => key / 2 ^ 43 == domain))).dropLines 2 (fun l => l.domain == domain)
  let ctxs := (Tab.list s.contexts).filterMap (fun e => if e.2.domain = domain then some e.1 else none)
  let keep (ls : List ILine) : List ILine := ls.filter (fun l => l.domain != domain)
  let s0 : State := { s1 with
    l1 := s1.l1.foldl (fun m e => Cells.set [] m e.1 (e.2.filter (fun l => l.domain != domain))) []
    cores := s1.cores.foldl (fun m e => Cells.set CoreSt.reset m e.1 { e.2 with icache := keep e.2.icache }) []
    homes := { s1.homes with icache := s1.homes.icache.foldl (fun m e => Cells.set [] m e.1 (keep e.2)) [] } }
  let s2 := ctxs.foldl (fun t c => t.modCtx c (fun x => { x with gen := g })) s0
  s2.cores.foldl (fun t e => ctxs.foldl (fun u c => u.killContext e.1 c) t) s2

/-- Bumps whose domain no longer runs are made; a context that has begun to run meanwhile is pre-empted too. -/
def State.settleBumps (s : State) : State :=
  (Tab.list s.pend).foldl (fun t e =>
    if e.2.opcode ≠ opGenbump ∨ e.2.done.isSome then t
    else
      let d := e.2.subject
      let live := (Tab.list t.contexts).filter (fun c => c.2.domain == d && (decide (c.2.state = .running ∨ c.2.state = .preempting) ||
        c.2.restoring.isSome))
      if live = [] then (t.applyBump d).endPend e.1 0 0
      else match t.partOfDomain d with
        | some p => if t.partBusy p then t else t.askPreempt p (t.runningOf d) false
        | none => t) s

/-! ### Pool extents (R302, R303) -/

/-- Moves that the withdrawal of an extent stops: from a frame of it, whose entry is gone, or to one. The granule leaves
MOVING and the move has no effect (DESIGN CHOICE, log 65). -/
def State.stopMoves (s : State) (keys : List Nat) (inside : Nat → Bool) : State :=
  s.homes.gran.foldl (fun t e => match e.2 with
    | .moving f _ =>
      if inside f ∨ (s.present e.1).elim false (fun x => keys.contains (s2Key (e.1 / 2 ^ 43) x.1.dfn)) then
        ((t.setGran e.1 .mapped).giveFrame f).granOver e.1 (.move f none) false
      else t
    | _ => t) s

/-- POOL_EXTENT_WITHDRAWAL (R302): every stage-2 entry that maps a frame of the extent is made not present. -/
def execPoolExtentWithdrawal (id base frame count : Nat) (s : State) : Out :=
  if (Tab.get s.homes.withdrawals id).isSome then .next s
  else
    let inside (f : Nat) : Bool := decide (frame ≤ f ∧ f < frame + count)
    let gone := (Tab.list s.homes.stage2).filter (fun e => e.2.tier == 1 && inside e.2.frame)
    let keys := gone.map Prod.fst
    let onIt (l : L2Line) : Bool := keys.contains (s2Key l.domain l.attr.dfn)
    let dirty := (s.homes.l2.filter (fun l => onIt l && l.dirty != 0)).length
    let maps (domain va : Nat) : Bool := match s.present (granKey (transDomain s.homes domain va) va) with
      | some e => keys.contains (s2Key (transDomain s.homes domain va) e.1.dfn)
      | none => false
    let reqs := (Tab.list s.reqs).filterMap (fun e => match e.2.stage with
      | .replied 0 _ => if e.2.kind.access.reads && s.isLocal e.2.va && maps e.2.domain e.2.va then some (Payload.request e.1) else none
      | _ => none)
    let fets := (Tab.list s.fetches).filterMap (fun e =>
      if e.2.stage == 3 && (e.2.answer == some (0, 0) && maps e.2.domain (e.2.line * 64)) then some (Payload.fetch e.1) else none)
    let wats := s.cores.flatMap (fun c => (Tab.list c.2.watches).filterMap (fun (e : Nat × Watch) =>
      if e.2.stage = 3 ∧ e.2.code = 0 ∧ s.isLocal e.2.va ∧ maps e.2.domain e.2.va then some (Payload.watch c.1 e.1) else none))
    let w : Withdrawal := {
      base := base, frame := frame, count := count, since := s.clock, granules := gone.length, dirty := dirty,
      parts := (keys.filterMap (fun k => s.partOfDomain (k / 2 ^ 36))).dedup, inflight := reqs ++ fets ++ wats, released := false }
    .next ((s.stopMoves keys inside).modHomes (fun h => keys.foldl (fun m k => m.putStage2 (k / 2 ^ 36) (k % 2 ^ 36) none)
      ({ h with
        l2 := h.l2.filter (fun l => !onIt l)
        poolFrames := h.poolFrames.filter (fun f => !inside f)
        withdrawals := Tab.set h.withdrawals id (some w) } : Homes)))

/-- POOL_INFLIGHT_TIMEOUT (R302, R303): 1 ms later, requests still in flight complete with POISON, data of write-backs is
lost, and POOL_EXTENT_RELEASED is raised. The extent stays withdrawn: no frame of it is used again. How many write-backs were in flight the spec leaves open (log 26). -/
def execPoolInflightTimeout (id : Nat) (s : State) : Out :=
  match Tab.get s.homes.withdrawals id with
  | none => .next s
  | some w =>
    if s.clock < w.since + 850000 ∨ w.released then .next s
    else
      let late := w.inflight.filter (fun p => match p with
        | .request r => (match (s.req? r).map Req.stage with
          | some (.replied 0 _) => true
          | _ => false)
        | .fetch f => (Tab.get s.fetches f).elim false (fun x => x.stage == 3)
        | .watch c e => (Tab.get (s.core c).watches e).elim false (fun x => x.stage == 3 && x.code == 0)
        | _ => false)
      let s1 := late.foldl (fun t p => match p with
        | .request r => t.modReq r (fun x => { x with stage := .replied 7 s.seq })
        | .fetch f => t.modFetch f (fun x => { x with answer := some (7, 0) })
        | .watch c e => t.modWatch c e (fun x => { x with code := 7 })
        | _ => t) s
      let lost := Config.freeNat s.free % (w.dirty + 1)
      let s2 := { s1 with free := s1.free + 1 }
      .next ((s2.modHomes (fun h => { h with withdrawals := Tab.set h.withdrawals id (some { w with inflight := [], released := true }) })).raise true 0x0330 1 0xC00 none none
        w.parts (bytesOf 4 id ++ bytesOf 8 w.base ++ bytesOf 4 w.granules ++ bytesOf 4 late.length ++ bytesOf 4 lost))

end Sys2Proof.Machine
end

