-- ==== Sys2Proof/Machine/Fabric.lean ====
section
/-! DEFINITION. Machine/Fabric.lean: the fabric ports: training, lanes, going down and coming back (R362 to R365). -/

namespace Sys2Proof.Machine

def State.port (s : State) (p : Nat) : Port := Cells.get Port.reset s.net.ports p
def State.modPort (s : State) (p : Nat) (f : Port → Port) : State :=
  { s with net := { s.net with ports := Cells.set Port.reset s.net.ports p (f (s.port p)) } }

/-- FABRIC_LANE_SWAP (R365): causes 1 weak lane swapped, 2 lane lost, 3 lane handed back, 4 port down, 5 port up. -/
def State.raiseLane (s : State) (port lane cause poisoned : Nat) (dest : List Nat) : State :=
  s.raise true 0x0320 (if cause = 4 then 2 else 0) (0xB00 + port) none none dest
    (bytesOf 1 port ++ bytesOf 1 lane ++ bytesOf 1 cause ++ bytesOf 1 (if (s.port port).extended then 1 else 0) ++ bytesOf 4 poisoned)

/-- The ports that work, in ascending order. -/
def State.workingPorts (s : State) : List Nat := (List.range 64).filter (fun p => (s.port p).up)
/-- The port that an entry names. -/
def State.entryPort (s : State) (e : Nat) : Nat := (Tab.get s.net.portMap e).getD e
/-- Name a port in an entry. -/
def State.setEntry (s : State) (e p : Nat) : State :=
  { s with net := { s.net with portMap := Tab.set s.net.portMap e (if p = e then none else some p) } }
/-- A port goes down (R364): its entries are re-pointed to the working ports in turn, and held while the old port still
has requests. `lane`: the lane that failed. -/
def State.downPort (s : State) (port lane : Nat) : State :=
  let s1 := s.modPort port (fun p => { p with up := false, downSince := some s.clock, trained := false, shadowLane := none, calibrating := none, weakWait := [] })
  let named := (List.range 64).filter (fun e => s1.entryPort e == port)
  let ws := s1.workingPorts
  let s2 := if ws = [] then s1 else named.zipIdx.foldl (fun t e =>
    let u := t.setEntry e.1 (nth port ws (e.2 % ws.length))
    if s1.onPort port then { u with net := { u.net with portHold := u.net.portHold ++ [e.1 + 64 * port] } } else u) s1
  (s2.raiseLane port lane 4 0 []).checkHealth false

/-- Whether the module's bring-up has come to the training of its ports (R409). -/
def State.portsTrain (s : State) : Bool := decide (2 ≤ s.dev.bootStep) && !s.dev.bootFailed

/-- PORT_TRAINING (R363, R409): the extended rate where the switch offers it too; a failure takes the port down. A port's first
training brings it up (R365). -/
def execPortTraining (port : Nat) (offer ok : Bool) (s : State) : Out :=
  let p := s.port port
  if 64 ≤ port ∨ p.up ∨ ¬ s.portsTrain then .next s
  else if ¬ ok then .next (if p.downSince.isSome then s.modPort port (fun x => { x with trained := false }) else s.downPort port 0)
  else
    let s1 := s.modPort port (fun x => { Port.reset with
      up := x.downSince.isNone, extended := offer, downSince := x.downSince, trained := x.downSince.isSome })
    .next (if p.downSince.isNone then s1.raiseLane port 0 5 0 [] else s1)

/-- PORT_DOWN (R364). -/
def execPortDown (port : Nat) (s : State) : Out :=
  if 64 ≤ port ∨ ¬ (s.port port).up then .next s else .next (s.downPort port 0)

/-- A lane moves to the shadow lane (R354, R363). -/
def State.swapLane (s : State) (port lane : Nat) : State :=
  (s.modPort port (fun x => { x with shadowLane := some lane, tries := 0 })).raiseLane port lane 1 0 []

/-- A shadow lane that has calibrated itself for 64 µs takes the weak lane that has waited longest (R354, R363). -/
def State.settleLanes (s : State) : State :=
  s.net.ports.foldl (fun t e =>
    if e.2.calibrating.elim true (fun t0 => decide (s.clock < t0 + 54400)) then t
    else
      let u := t.modPort e.1 (fun x => { x with calibrating := none, weakWait := x.weakWait.drop 1 })
      match e.2.weakWait with
      | lane :: _ => u.swapLane e.1 lane
      | [] => u) s

/-- What has been answered is in flight no more; entries whose own port works again return to it once no request of theirs is
(R364); what is kept leaves; shadow lanes become free. -/
def State.settlePorts (s : State) : State :=
  let s1 := (({ s with net := { s.net with through := s.net.through.filter s.farOut } } : State).releasePorts).settleLanes
  (Tab.list s1.net.portMap).foldl (fun t e =>
    if (t.port e.1).up ∧ ¬ t.entryBusy e.1 ∧ ¬ t.net.portHold.any (fun h => h % 64 == e.1) then t.setEntry e.1 e.1 else t) s1

/-- PORT_UP (R364): a port that has trained again returns. -/
def execPortUp (port : Nat) (s : State) : Out :=
  let p := s.port port
  if p.downSince.isNone ∨ ¬ p.trained then .next s
  else .next ((s.modPort port (fun x => { x with up := true, downSince := none, trained := false })).settlePorts.raiseLane port 0 5 0 [])

/-- The partition that something in flight belongs to. -/
def State.farPart (s : State) (e : FarItem) : Option Nat := s.payloadPart e.payload

/-- What is in flight completes with POISON (R364): a watch, a fetch and a copy that reads end as POISON ends them; what a copy
writes is lost. DESIGN CHOICE (log 79): so is a shadow operation's request, which nothing then answers. -/
def State.farPoison (s : State) (e : FarItem) : State :=
  match e.payload with
  | .watch c w => s.endWatch c w (fun _ => true) 7 0 0 s.seq s.nextId
  | .fetch id => (Tab.get s.fetches id).elim s (fun f =>
      ({ s with fetches := Tab.set s.fetches id none } : State).failFetch f 7 0 (f.line * 64))
  | .copy id _ va _ => (Tab.get s.copies id).elim s (fun cp =>
      if srcGlobal cp.kind ∧ ¬ s.isLocal cp.src then s.fatalNack cp.skein none 0 7 va
      else ({ s with copies := Tab.upd s.copies id (fun x => { x with
        done := cp.done + cp.chunk, phase := 0, waits := 0, packet := s.nextId }) } : State).fresh)
  | .shd id => { s with shdops := Tab.upd s.shdops id (fun o => { o with arrived := o.arrived.filter (· != 128) }) }
  | _ => s

/-- FABRIC_RESPONSE_TIMEOUT (R364): 1 ms after the port went down, its requests complete with POISON; the data of writes
is lost. -/
def execFabricResponseTimeout (port : Nat) (s : State) : Out :=
  match (s.port port).downSince with
  | none => .next s
  | some t0 =>
    let late := (Tab.list s.reqs).filter (fun r => r.2.stage == .remote port)
    let other := s.net.through.filter (fun e => e.port == port && s.farOut e)
    if s.clock < t0 + 850000 ∨ (late = [] ∧ other = []) then .next s
    else
      let s1 := late.foldl (fun t r => t.modReq r.1 (fun x => { x with
        stage := .returned (if x.kind.access.reads then 7 else 0) s.seq, result := 0 })) s
      let s2 := other.foldl (fun t e => if t.farOut e then t.farPoison e else t) { s1 with net := { s1.net with
        through := s1.net.through.filter (fun e => e.port != port) } }
      let parts := (late.filterMap (fun r => (s.ctx? r.2.ctx).map Context.partition) ++ other.filterMap s.farPart).dedup
      .next ((s2.releasePorts).raiseLane port 0 4 (late.length + other.length) parts)

/-- Whether the shadow lane carries a lane for good, lends itself, calibrates itself, or is lost (R354, R363). -/
def Port.busy (p : Port) : Bool := p.shadowLane.isSome || p.calibrating.isSome || p.lost != []

/-- A lane fails (R364, R365): the first one lost at the extended rate rides on the shadow lane; a second one, or any at the
standard rate, takes the port down. -/
def State.loseLane (s : State) (port lane : Nat) : State :=
  let p := s.port port
  if ¬ p.extended ∨ p.lost ≠ [] then s.downPort port lane
  else (s.modPort port (fun x => { x with
    lost := [lane], shadowLane := if lane = 4 then none else some lane, calibrating := none,
    weakWait := x.weakWait.filter (· != lane) })).raiseLane port lane 2 0 []

/-- FABRIC_LANE_WEAK (R363): what a receiver has measured of a lane, by R353's tests. A weak lane moves to the shadow lane where that
is free, else it waits; one above 10^-9 meanwhile fails. Of the lane that is on the shadow lane it is the result of its retraining
(R354): with at most one corrected bit it is handed back, and after RETRIES failures it stays. -/
def execFabricLaneWeak (port : Nat) (report : LaneReport) (s : State) : Out :=
  let p := s.port port
  let lane := report.lane
  if 64 ≤ port ∨ ¬ p.up ∨ ¬ p.extended ∨ 4 ≤ lane ∨ p.lost.contains lane then .next s
  else if p.shadowLane = some lane then
    .next (if bits s.dev.linkcfg.toNat 27 24 ≤ p.tries then s
      else if report.fixed ≤ 1 then (s.modPort port (fun x => { x with
        shadowLane := none, tries := 0, calibrating := some s.clock, rx := Cells.set RxWave.fresh x.rx lane RxWave.fresh })).raiseLane
          port lane 3 0 []
      else s.modPort port (fun x => { x with tries := x.tries + 1 }))
  else
    let r := (Cells.get RxWave.fresh p.rx lane).take report.bits report.fixed
    let s1 := s.modPort port (fun x => { x with rx := Cells.set RxWave.fresh x.rx lane r })
    .next (if (r.weak (bits s.dev.linkcfg.toNat 31 28)).isNone then s1
      else if ¬ p.busy then s1.swapLane port lane
      else if 4398 < r.within (2 ^ 42) then s1.loseLane port lane
      else s1.modPort port (fun x => { x with weakWait := x.weakWait.filter (· != lane) ++ [lane] }))

/-- FABRIC_LANE_LOST (R364, R365). -/
def execFabricLaneLost (port lane : Nat) (s : State) : Out :=
  let p := s.port port
  .next (if ¬ p.up ∨ 5 ≤ lane ∨ (¬ p.extended ∧ lane = 4) ∨ p.lost.contains lane then s else s.loseLane port lane)

end Sys2Proof.Machine
end

