-- ==== Sys2Proof/Machine/Partition.lean ====
section
/-! DEFINITION. Machine/Partition.lean: CARVE, UNCARVE and PARTSET, and the metering of partitions (R287, R321 to R324,
R335 to R337). -/

namespace Sys2Proof.Machine

/-! ### Limits of the operands (R305, R322, R324) -/

/-- The limiter word as it is kept: bits 15 to 8 read zero (R305). -/
def limWord (w : Word) : Word := w &&& 0xFFFF00FF
def settingsNorm (p : PartSettings) : PartSettings :=
  { p with limLoom := limWord p.limLoom, limFabric := limWord p.limFabric, limPool := limWord p.limPool }
/-- The ranges of R322. -/
def settingsOk (p : PartSettings) : Bool :=
  decide (p.cap ≤ 5 ∧ 1 ≤ p.wcTimer ∧ p.wcTimer ≤ 64 ∧ 2 ^ 20 ≤ p.window ∧ p.window ≤ 2 ^ 34 ∧ p.relaunchLimit ≤ 15 ∧
    1 ≤ p.meter ∧ p.meter ≤ 600 ∧ p.shadowFrames ≤ 65536)

/-- The extents of ranges. -/
def extentsOf (rs : List (Nat × Nat)) : List Nat := rs.flatMap (fun r => (List.range r.2).map (r.1 + ·))
def rangesOk (rs : List (Nat × Nat)) : Bool := decide (rs.length ≤ 64) && rs.all (fun r => decide (r.1 + r.2 ≤ 65536))
/-- Whether some extent is granted to another domain. -/
def State.foreign (s : State) (domain : Nat) (rs : List (Nat × Nat)) : Bool :=
  (extentsOf rs).any (fun e => match Tab.get s.homes.ownership e with
    | some o => o.shared || o.domain != domain
    | none => false)

def carveQuads (a : CarveArgs) : List Nat := (List.range 16).filter (fun q => bit a.quadMask q)
/-- Whether the operands of a CARVE are within limits. -/
def carveOk (a : CarveArgs) : Bool :=
  decide (1 ≤ a.quadMask ∧ a.quadMask < 65536 ∧ a.domain < 65536 ∧ a.keys.length = 16) && a.keys.all (fun k => decide (k < 4)) &&
  settingsOk a.settings && a.roots.all (fun r => decide (r.1 < 1024 ∧ r.2 < 2 ^ 36)) && ringOk a.sys.base a.sys.l &&
  ringOk a.fault.base a.fault.l && ringOk a.event.base a.event.l && rangesOk a.extents

/-! ### Scrubbing (R214, R323) -/

/-- The home slices of some quadrants, in ascending order. -/
def homesOf (quads : List Nat) : List Nat := (List.range 128).filter (fun h => quads.contains (homeQuad h))

/-- A core as scrubbing leaves it: no data; bank state, counts and damage to the banks stay with it (R214). -/
def CoreSt.scrubbed (c : CoreSt) : CoreSt :=
  { CoreSt.reset with
    quads := c.quads, offline := c.offline, issueSeq := c.issueSeq
    scratch := { c.scratch with data := [], sel := [], queue := [], eccData := [], eccSel := [], poison := [] } }

/-- Frames that other partitions, their shadows or the pool hold. -/
def State.keptFrames (s : State) (quads : List Nat) (domain : Nat) : List Nat :=
  (Tab.list s.homes.stage2).filterMap (fun e => if e.1 / 2 ^ 36 = domain then none else some e.2.frame) ++
  s.homes.shadowFrames.flatMap (fun e => if (homesOf quads).contains e.1 then [] else e.2) ++ s.homes.poolFrames

/-- The quadrants are cleared: frames, caches, watch tables with the entries of other modules, scratchpads, tiles and registers
(step 2 of R323). -/
def State.scrubQuads (s : State) (quads : List Nat) (domain : Nat) : State :=
  let inside (core : Nat) : Bool := quads.contains (quadOf core)
  let kept := s.keptFrames quads domain
  let h := s.homes
  let gone (k : Nat) : Bool := k == domain
  { s with
    cores := s.cores.foldl (fun m e => Cells.set CoreSt.reset m e.1 (
      if inside e.1 ∧ e.1 < 768 then e.2.scrubbed
      else if e.1 < 768 then e.2
      else { e.2 with watches := e.2.watches.filter (fun w => w.2.all (fun x =>
        !(homesOf quads).contains (s.homeFor x.domain x.va))) })) []
    l1 := s.l1.filter (fun e => !(decide (e.1 < 768) && inside e.1))
    fetches := s.fetches.filter (fun e => e.2.elim true (fun f => !inside f.core))
    homes := ({ h with
      mem := h.mem.filter (fun e => kept.contains (e.1 / 16384))
      poisonLines := h.poisonLines.filter (fun e => kept.contains (e.1 / 64))
      rewritten := h.rewritten.filter (fun e => kept.contains (e.1 / 16384))
      hist := h.hist.filter (fun e => !gone (e.1 / 2 ^ 57))
      stage2 := h.stage2.filter (fun e => !gone (e.1 / 2 ^ 36))
      gran := h.gran.filter (fun e => !gone (e.1 / 2 ^ 43))
      granCmds := h.granCmds.filter (fun e => !gone (e.1 / 2 ^ 43))
      pubGen := h.pubGen.filter (fun e => !gone (e.1 / 2 ^ 43))
      roots := h.roots.filter (fun e => !gone (e.1 / 1024))
      l2 := h.l2.filter (fun l => !gone l.domain)
      walks := h.walks.filter (fun w => !gone w.1.domain)
      icache := h.icache.filter (fun e => !quads.contains (e.1 / 6))
      filter := h.filter.filter (fun e => !quads.contains (e.1 / 6)) } : Homes).forget (fun key => gone (key / 2 ^ 43)) }

/-! ### CARVE (R321, R323, R324) -/

/-- The shadow frames that the secure manager sets aside for a home: its own choice of frames (log 40). -/
def shadowFramesFor (home n : Nat) : List Nat :=
  (List.range n).map (fun j => (home + 1) * hbmFrames - 1 - j)

/-- A partition as it is carved; its scrub writes every HBM frame, which HBM_BYTES counts (R323, R335). -/
def Partition.carvedAt (a : CarveArgs) (clock : Nat) : Partition :=
  { ready := false, quads := carveQuads a, domain := a.domain, settings := settingsNorm a.settings, carved := clock,
    meters := Cells.set 0 [] 7 ((homesOf (carveQuads a)).length * hbmFrames * 16384),
    interval := 0, intervalStart := clock, prevLeaf := [], preempt := none, haltedAt := none, preempting := [],
    restoreAfter := false, abandoned := false, savedCtxs := [], misfit := 0, largest := 0, room := [],
    limiters := [], closing := false, counted := false, pending := none }

/-- The status of a CARVE that is refused. -/
def State.carveStatus (s : State) (a : CarveArgs) : Nat :=
  let ps := Tab.list s.parts
  if ¬ carveOk a ∨ s.freeCtx = none then 1
  else if ps.any (fun p => (carveQuads a).any (fun q => p.2.quads.contains q)) then 2
  else if ps.any (fun p => p.2.domain == a.domain) then 5
  else if s.foreign a.domain a.extents then 6
  else 0

/-- Steps 1 and 2 of R323, with the first context loading and the fixed queues still closed. -/
def State.carve (s : State) (part ctx : Nat) (a : CarveArgs) : State :=
  let hs := homesOf (carveQuads a)
  let s1 := s.scrubQuads (carveQuads a) a.domain
  let s2 : State := { s1 with
    parts := Tab.set s1.parts part (some (Partition.carvedAt a s1.clock))
    homes := { s1.homes with
      ownership := (extentsOf a.extents).foldl (fun m e =>
        Tab.set m e (some { withdrawing := false, shared := false, domain := a.domain })) s1.homes.ownership
      tableHomes := Tab.set s1.homes.tableHomes a.domain (some hs)
      tableOver := s1.homes.tableOver.filter (fun e => e.1 / 4096 != a.domain)
      shadowFrames := hs.foldl (fun m h => Cells.set [] m h (shadowFramesFor h a.settings.shadowFrames)) s1.homes.shadowFrames } }
  let s3 := a.roots.foldl (fun t r => t.setRoot a.domain r.1 r.2) (s2.buildContext ctx part a.domain a.priv a.keys)
  let q (kind : Nat) (r : RingSpec) : Queue :=
    { Queue.opened kind ctx a.domain part r.base r.l 0 with state := .closed }
  { s3 with queues := Tab.set (Tab.set (Tab.set s3.queues (fixedQueue part 1) (some (q 1 a.sys))) (fixedQueue part 2)
      (some (q 2 a.fault))) (fixedQueue part 3) (some (q 3 a.event)) }

/-- The operands of the partition commands as bytes: each number in 8, each list with its length first (log 30). -/
def numBytes (ns : List Nat) : List Byte := ns.flatMap (bytesOf 8)
def rangeBytes (rs : List (Nat × Nat)) : List Byte := numBytes (rs.length :: rs.flatMap (fun r => [r.1, r.2]))
def uncarveOps (part : Nat) : List Byte := 2 :: numBytes [part]
def partsetOps (part : Nat) (settings : PartSettings) (grant withdraw : List (Nat × Nat)) : List Byte :=
  3 :: (numBytes [part] ++ settingsBytes settings ++ rangeBytes grant ++ rangeBytes withdraw)
def carveOps (a : CarveArgs) : List Byte :=
  1 :: (numBytes [a.quadMask, a.domain] ++ settingsBytes a.settings ++ numBytes ((if a.priv then 1 else 0) :: a.keys.length :: a.keys) ++
    rangeBytes a.roots ++ numBytes [a.sys.base, a.sys.l, a.fault.base, a.fault.l, a.event.base, a.event.l] ++ rangeBytes a.extents)

/-- CARVE (R323, R324): it completes when the partition is READY. -/
def execCarve (auth : Auth) (args : CarveArgs) (s : State) : Out :=
  .next (s.operator auth (carveOps args) (decide (s.dev.bootStep ≠ 6)) (fun t =>
      let st := t.carveStatus args
      match (List.range 16).find? (fun p => (t.part? p).isNone), t.freeCtx with
      | some p, some c => if st ≠ 0 then t.answer true st (bytesOf 8 0) else (t.carve p c args).await mgmtPort opCarve p
      | _, _ => t.answer true (if st = 0 then 1 else st) (bytesOf 8 0)))

/-- PARTITION_READY (R323): the fixed queues open, the first context is READY, and CARVE completes with the number. -/
def execPartitionReady (part : Nat) (s : State) : Out :=
  match s.part? part with
  | none => .next s
  | some p =>
    if p.ready then .next s
    else
      let s1 := s.modPart part (fun x => { x with ready := true })
      let s2 := [1, 2, 3].foldl (fun t k => t.modQueue (fixedQueue part k) (fun q => { q with state := .qopen })) s1
      let s3 := (s2.ctxsOfPart part).foldl (fun t c => t.modCtx c (fun x =>
        if x.state = .building then { x with state := .ready } else x)) s2
      .next (s3.endPendOf opCarve part 0 part)

/-! ### Meters (R335 to R337) -/

/-- A partition's leaf (R336). -/
def Partition.leaf (p : Partition) (part clock : Nat) : List Byte :=
  bytesOf 8 (p.interval + 1) ++ bytesOf 8 clock ++ bytesOf 2 part ++ bytesOf 2 p.domain ++ bytesOf 4 0 ++
    (List.range 11).flatMap (fun i => bytesOf 8 (Cells.get 0 p.meters i)) ++
    (if p.interval = 0 then Config.shake256 (bytesOf 2 part ++ bytesOf 2 p.domain ++ bytesOf 8 p.carved)
      else Config.shake256 (0 :: p.prevLeaf))

/-- The hash of a leaf position: 32 zero bytes where no partition has formed a leaf. -/
def State.leafHash (s : State) (part : Nat) : List Byte :=
  match s.part? part with
  | some p => if p.interval = 0 then List.replicate 32 0 else Config.shake256 (0 :: p.prevLeaf)
  | none => List.replicate 32 0

/-- One level of the Merkle tree. -/
def merkle : Nat → List (List Byte) → List Byte
  | 0, hs => hs.headD []
  | n + 1, hs => merkle n ((pieces2 hs).map (fun p => Config.shake256 (1 :: (p.1 ++ p.2))))
where
  /-- Neighbours in pairs. -/
  pieces2 : List (List Byte) → List (List Byte × List Byte)
    | a :: b :: t => (a, b) :: pieces2 t
    | _ => []

/-- An interval of a partition closes: its leaf, the signed root and USAGE_RECORD. -/
def State.closeInterval (s : State) (part : Nat) : State :=
  match s.part? part with
  | none => s
  | some p =>
    let leaf := p.leaf part s.clock
    let s1 := s.modPart part (fun x => { x with
      interval := p.interval + 1, intervalStart := s.clock, prevLeaf := leaf })
    let root := merkle 4 ((List.range 16).map s1.leafHash)
    let seq := s1.dev.recSeq
    let body := root ++ bytesOf 8 s.clock ++ bytesOf 2 s.modNo ++ bytesOf 8 seq
    let leaves := (Tab.list s1.parts).flatMap (fun e => e.2.prevLeaf)
    let s2 := { s1 with dev := { s1.dev with recSeq := seq + 1, ring := s1.dev.ring ++ [(true, body ++ usageSignature s.dev.usageKey body ++ leaves)] } }
    s2.raise false 0x0500 0 0 (some part) none [part] (bytesOf 8 (p.interval + 1) ++ bytesOf 4 seq ++ s1.leafHash part)

/-- METER_INTERVAL_END (R336, R337). -/
def execMeterIntervalEnd (part : Nat) (s : State) : Out :=
  match s.part? part with
  | none => .next s
  | some p => if s.clock < p.intervalStart + p.settings.meter * 85000000 ∨ ¬ p.ready then .next s else .next (s.closeInterval part)

/-! ### UNCARVE (R324) -/

/-- UNCARVE: every context is destroyed; the rest follows when none is left. -/
def execUncarve (auth : Auth) (part : Nat) (s : State) : Out :=
  .next (s.operator auth (uncarveOps part) (s.partBusy part) (fun t =>
    match t.part? part with
    | none => t.answer true 3 (bytesOf 8 0)
    | some _ =>
      let u := (t.modPart part (fun x => { x with closing := true })).await mgmtPort opUncarve part
      (u.ctxsOfPart part).foldl State.destroyCtx u))

/-- The fixed queues of a partition. -/
def State.fixedLeft (s : State) (part : Nat) : List Nat :=
  ([1, 2, 3].map (fixedQueue part)).filter (fun q => (Tab.get s.queues q).isSome)

/-- A partition whose contexts and queues are gone ends: its extents, tables and quadrants go. -/
def State.dissolve (s : State) (part : Nat) (p : Partition) : State :=
  let s3 := s.scrubQuads p.quads p.domain
  let s4 : State := { s3 with
    parts := Tab.set s3.parts part none
    homes := { s3.homes with
      ownership := s3.homes.ownership.filter (fun e => e.2.elim true (fun o => o.shared || o.domain != p.domain))
      tableHomes := Tab.set s3.homes.tableHomes p.domain none
      tableOver := s3.homes.tableOver.filter (fun e => e.1 / 4096 != p.domain)
      shadowFrames := s3.homes.shadowFrames.filter (fun e => !(homesOf p.quads).contains e.1) } }
  s4.endPendOf opUncarve part 0 0

/-- Partitions being dissolved, in order: a context built meanwhile is destroyed too; their last context is FREE, the closing interval is counted and signed, the fixed
queues close, and the rest follows (R324). -/
def State.settleUncarve (s : State) : State :=
  (Tab.list s.parts).foldl (fun t e =>
    if ¬ e.2.closing then t
    else if t.ctxsOfPart e.1 ≠ [] then (t.ctxsOfPart e.1).foldl State.destroyCtx t
    else
      let u := if e.2.counted then t else (t.closeInterval e.1).modPart e.1 (fun p => { p with counted := true })
      let v := (u.fixedLeft e.1).foldl State.closeQueue u
      if v.fixedLeft e.1 = [] then v.dissolve e.1 e.2 else v) s

/-! ### PARTSET (R114, R324) -/

/-- Whether every skein bound or saved in a partition, and every launch stored there, keeps a core with an eligible
width under a cap. -/
def State.capFits (s : State) (part : Nat) (p : Partition) (cap : Nat) : Bool :=
  let ctxs := s.ctxsOfPart part
  let lanes := ((p.clusters.flatMap clusterCores).filter (fun c => !(s.core c).offline)).map (fun c => (s.core c).lanes)
  let some' (n v : Nat) : Bool := lanes.any (fun l => eligible l cap n v != [])
  (Tab.list s.skeins).all (fun e => !ctxs.contains e.2.ctx || some' e.2.nstrand e.2.wslots) &&
  (Tab.list s.launches).all (fun e => !ctxs.contains e.2.ctx ||
    some' e.2.kern.strands (slotsFor e.2.kern.strands e.2.kern.minCode))

/-- Whether an extent still belongs to a domain alone. -/
def State.ownedBy (s : State) (domain e : Nat) : Bool :=
  (Tab.get s.homes.ownership e).elim false (fun o => !o.shared && o.domain == domain)

/-- A PARTSET whose contexts are saved: its extents to withdraw are WITHDRAWING, until the EXTENT command has taken them back; then
the settings and the extents to grant are written (R289, R299, R322, R324). -/
def State.applyPending (s : State) (part : Nat) (p : Partition) : State :=
  match p.pending with
  | none => s
  | some (settings, grant, withdraw) =>
    let left := (extentsOf withdraw).filter (s.ownedBy p.domain)
    if left ≠ [] then s.modHomes (fun h => { h with
      ownership := left.foldl (fun m e => Tab.upd m e (fun o => { o with withdrawing := true })) h.ownership })
    else (s.modHomes (fun h => { h with
      ownership := (extentsOf grant).foldl (fun m e =>
        Tab.set m e (some { withdrawing := false, shared := false, domain := p.domain })) h.ownership })).modPart part (fun x =>
        { x with settings := settings, pending := none })

/-- PARTSETs under way: what they write once no context of the partition runs; they complete once the contexts that they
pre-empted are restored or gone. -/
def State.settlePartset (s : State) : State :=
  (Tab.list s.parts).foldl (fun t e =>
    let here := ((t.ctxsOfPart e.1).filterMap t.ctx?)
    if e.2.preempt.isSome then t
    else if e.2.pending.isSome then
      (if here.any (fun x => x.state == .running || x.state == .preempting) then t else t.applyPending e.1 e.2)
    else if here.any (fun x => x.restoring.isSome) then t
    else t.endPendOf opPartset e.1 0 0) s

/-- PARTSET: the RUNNING contexts are pre-empted, the settings and extents written, and the contexts restored. -/
def execPartset (auth : Auth) (part : Nat) (settings : PartSettings) (grant withdraw : List (Nat × Nat)) (s : State) : Out :=
  .next (s.operator auth (partsetOps part settings grant withdraw) (s.partBusy part) (fun t =>
    match t.part? part with
    | none => t.answer true 3 (bytesOf 8 0)
    | some p =>
      if ¬ settingsOk settings ∨ ¬ rangesOk grant ∨ ¬ rangesOk withdraw ∨ ¬ t.capFits part p settings.cap then t.answer true 1 (bytesOf 8 0)
      else if t.foreign p.domain grant then t.answer true 6 (bytesOf 8 0)
      else
        let u := t.modPart part (fun x => { x with pending := some (settingsNorm settings, grant, withdraw) })
        let run := (u.ctxsOfPart part).filter (fun c => (u.ctx? c).elim false (fun x => x.state == .running))
        (u.askPreempt part run true).await mgmtPort opPartset part))

end Sys2Proof.Machine
end

