-- ==== Sys2Proof/Machine/Device.lean ====
section
/-! DEFINITION. Machine/Device.lean: registers of the host complex, capture units, host-core violations, power, the
management port, bring-up and reset (R305, R322, R359, R360, R371 to R377, R405, R408 to R410). -/

namespace Sys2Proof.Machine

/-! ### Registers and capture units (R305, R359, R360, R371, R373, R375) -/

/-- LINKCFG as a write leaves it (R359). -/
def linkcfgOf (w : Word) : Word :=
  let ber := Nat.min 15 (Nat.max 9 (bits w.toNat 31 28))
  let retries := Nat.max 1 (bits w.toNat 27 24)
  BitVec.ofNat 32 (ber * 2 ^ 28 + retries * 2 ^ 24 + bits w.toNat 23 16 * 2 ^ 16)

/-- REGISTER_WRITE: LINKCFG, LSEL, HEALTHTH, or a rate limiter of a partition none of whose contexts is RUNNING (R322). -/
def execRegisterWrite (reg : MmioReg) (value : Word) (s : State) : Out :=
  .next (match reg with
    | .linkcfg => { s with dev := { s.dev with linkcfg := linkcfgOf value } }
    | .lsel => { s with dev := { s.dev with lsel := value &&& 0x03FF00FF } }
    | .healthth => ({ s with dev := { s.dev with healthth := value } } : State).checkHealth false
    | .limiter part point =>
      if (s.ctxsOfPart part).any (fun c => (s.ctx? c).elim false (fun x => x.state == .running)) then s
      else
        let w := limWord value
        s.modPart part (fun p => { p with settings :=
          match point with
          | 0 => { p.settings with limLoom := w }
          | 1 => { p.settings with limFabric := w }
          | 2 => { p.settings with limPool := w }
          | _ => p.settings }))

/-- Whether a write to a quadrant's capture units may be made: by the secure manager, or by a host core of the domain whose
partition holds the quadrant (R373). -/
def State.captureMay (s : State) (w : HostWrite) (quad : Nat) : Bool :=
  w.host.isNone || (Tab.list s.parts).any (fun p => p.2.quads.contains quad && s.hostMay w p.2.domain)

/-- CAPCFG_WRITE (R373): a write clears what the unit has recorded. -/
def execCapcfgWrite (quad unit : Nat) (value : HostWrite) (s : State) : Out :=
  if 16 ≤ quad ∨ 32 ≤ unit ∨ ¬ s.captureMay value quad then .next s
  else
    let new : Capture := { cfg := value.value &&& 0x8F0000FF, min := 0xFFFFFFFF, max := 0, bins := [] }
    .next { s with captures := Cells.set Capture.reset s.captures (quad * 32 + unit) new }

/-- Requests waiting at a home. -/
def State.homeDepth (s : State) (home : Nat) : Nat :=
  ((Tab.list s.reqs).filter (fun r => r.2.stage == .atHome && s.homeFor r.2.domain r.2.va == home)).length +
  ((Tab.list s.fetches).filter (fun f => f.2.stage == 1 && s.homeFor f.2.domain (f.2.line * 64) == home)).length +
  (s.cores.map (fun c => ((Tab.list c.2.watches).filter (fun w => w.2.stage == 1 && s.homeFor w.2.domain w.2.va == home)).length)).sum

/-- The cc between two samples of a source: 64 hc and 1,024 hc (R373). -/
def samplePeriod (src : Nat) : Nat := if src = 1 then 32 else 512

/-- CAPTURE_SAMPLE (R373): the depth of a home's queue, or the occupancy of its watch table. -/
def execCaptureSample (quad unit : Nat) (s : State) : Out :=
  let c := Cells.get Capture.reset s.captures (quad * 32 + unit)
  let src := bits c.cfg.toNat 27 24
  let target := c.cfg.toNat % 256
  if 32 ≤ unit ∨ ¬ c.cfg.getLsbD 31 ∨ (src ≠ 1 ∧ src ≠ 4) ∨ c.sampled.any (fun t => decide (s.clock < t + samplePeriod src)) then
    .next s
  else
    let homes := (List.range 8).filterMap (fun j => if target = 255 ∨ target = j then some (quad * 8 + j) else none)
    let value (h : Nat) : Nat := if src = 1 then s.homeDepth h else s.watchEntries h
    let new : Capture := { homes.foldl (fun x h => x.record (value h)) c with sampled := some s.clock }
    .next { s with captures := Cells.set Capture.reset s.captures (quad * 32 + unit) new }

/-- HOST_MMIO_VIOLATION (R371): the host-core context, of a domain whose partition here is `access.part`, is frozen. -/
def execHostMmioViolation (host : Nat) (access : HostAccess) (s : State) : Out :=
  if 32 ≤ host ∨ s.dev.frozenHosts.contains host then .next s
  else .next (({ s with dev := { s.dev with frozenHosts := s.dev.frozenHosts ++ [host] } } : State).raise true 0x0400 3 (0xD00 + host)
    none none access.part.toList (bytesOf 1 3 ++ bytesOf 1 3 ++ bytesOf 2 0xFFFF ++ bytesOf 8 access.addr ++ bytesOf 4 host ++ bytesOf 2 0xFFFF))

/-! ### Power (R405) -/

/-- POWER_OVER_LIMIT: the draw, in units of 0.125 W; above LIMIT the controller withholds cycles, which changes timing
only. -/
def execPowerOverLimit (draw : Nat) (s : State) : Out :=
  .next { s with dev := { s.dev with draw := Nat.min 0xFFFF draw, withhold := decide (s.dev.limit * 8 < draw) } }

def pwrcapOps (write : Option Word) : List Byte := 6 :: write.elim [] (fun w => bytesOf 4 w.toNat)

/-- PWRCAP: LIMIT is kept between 1,000 and 4,400; the register is returned. -/
def execPwrcap (auth : Auth) (write : Option Word) (s : State) : Out :=
  .next (s.operator auth (pwrcapOps write) false (fun t =>
    let u := match write with
      | some w => { t with dev := { t.dev with limit := Nat.min 4400 (Nat.max 1000 (bits w.toNat 31 16)) } }
      | none => t
    u.answer true 0 (bytesOf 4 (u.dev.limit * 65536 + u.dev.draw))))

/-! ### The management port (R408) -/

/-- READRING: the signed records of the ring. -/
def execReadring (s : State) : Out :=
  if s.dev.bootStep = 0 ∧ ¬ s.dev.bootFailed then .next s
  else .next (s.answer true 0 ((s.dev.ring.filter (fun r => r.1)).flatMap Prod.snd))

def opkeyOps (key : List Byte) : List Byte := 8 :: key

/-- SETOPKEY: signed with the key it replaces; the first key, once, in a boot with PROVISION asserted. -/
def execSetopkey (auth : Auth) (key : List Byte) (s : State) : Out :=
  let put (t : State) : State :=
    if key.length ≠ 64 then t.answer true 1 []
    else { t with dev := { t.dev with opKey := some key } }.answer true 0 []
  match s.dev.opKey with
  | some _ => .next (s.operator auth (opkeyOps key) false put)
  | none =>
    if ¬ s.served then .next s
    else if s.dev.provision ∧ ¬ s.dev.provisionUsed ∧ key.length = 64 then
      .next (put { s with dev := { s.dev with provisionUsed := true } })
    else .next (s.answer true 1 [])

/-! ### Reset and bring-up (R6, R407, R409, R410) -/

/-- The state that a reset leaves: what is non-volatile, the record ring, and the model's own counters remain. -/
def State.restart (s : State) : State :=
  { State.reset with
    seq := s.seq, free := s.free, nextId := s.nextId, schedule := s.schedule, modNo := s.modNo
    dev := { Device.reset with
      opKey := s.dev.opKey, opSeq := s.dev.opSeq, recSeq := s.dev.recSeq, ring := s.dev.ring, passed := s.dev.passed,
      replace := s.dev.replace, answers := s.dev.answers, darkSources := s.dev.darkSources } }

def resetOps : List Byte := [7]

/-- RESET (R410): every partition's interval closes early, its record is signed, and then the module resets. During bring-up there
is no partition, and no record. -/
def execReset (auth : Auth) (s : State) : Out :=
  .next (s.operator auth resetOps false (fun t =>
    ((((Tab.list t.parts).map Prod.fst).foldl State.closeInterval t).answer true 0 []).restart))

/-- A bank that fails the self-test starts DEGRADED; a second one in its group takes the core offline (R201, R204, R205).
Banks 32 to 39 are the selvage banks. DESIGN CHOICE (log 62): no event of R206 is raised for it, since no partition exists and
no host is served yet; it counts in SPCNT. -/
def CoreSt.failBank (c : CoreSt) (bank : Nat) : CoreSt :=
  let g := if bank < 32 then bank / 4 else bank - 32
  let b := c.scratch.group g
  if b.retired = 0 then
    { c with scratch := { c.scratch.setGroup g { b with retired := if bank < 32 then bank % 4 + 1 else 5 } with
      retired := c.scratch.retired + 1 } }
  else { c with offline := true, scratch := c.scratch.setGroup g { b with offline := true } }

/-- A fresh usage key, and its certificate, which the identity key signs (R338). -/
def State.newUsageKey (s : State) : State :=
  { s with free := s.free + 1, dev := { s.dev with usageKey := s.free, cert := quoteOf (Config.usagePublic s.free) } }

/-- RESET_RELEASE (R409): bring-up begins. The first stage is measured, its digest and the digest of the operator's key logged;
where its signature fails, bring-up stops. It makes the boot's usage key (R338). -/
def execResetRelease (boot : BootArgs) (s : State) : Out :=
  match boot.stages with
  | [] => .next s
  | (digest, ok) :: _ =>
    if s.dev.bootStep ≠ 0 ∨ s.dev.bootFailed ∨ boot.stages.length ≠ 5 then .next s
    else
      let dark := (List.range 20).filter (fun n => boot.dark.contains n)
      let s1 := { s with
        clock := 0
        dev := { s.dev with
          provision := boot.provision, provisionUsed := false, bootLog := [digest], darkSources := dark, darkAtReset := dark } }
      if ¬ ok then .next { s1 with dev := { s1.dev with bootFailed := true } }
      else
        let s2 := s1.newUsageKey
        .next { s2 with dev := { s2.dev with
          bootStep := 1, boot := some boot
          bootLog := s2.dev.bootLog ++ s2.dev.opKey.toList.map Config.shake256 } }

/-- The clock at which each step after the first begins: 5, 60, 140, 150 and 400 ms from the release of reset (R409; log 38). -/
def bootClock (step : Nat) : Nat := 850000 * nth 0 [0, 0, 5, 60, 140, 150, 400] step

/-- What a step of bring-up finds (R409): the links that are dark, once they train; the lane quads and banks that fail their
self-test. -/
def State.bootTests (s : State) (boot : BootArgs) (step : Nat) : State :=
  if step = 2 then
    let dies := (List.range 4).filter (fun d => [0, 1, 2, 3].all (fun k => s.dev.darkSources.contains (5 * d + k)))
    (dies.flatMap linksOfDie).foldl (fun t l => t.channelFault l.1 l.2) s
  else if step = 3 then
    let s1 := boot.quads.foldl (fun t e => t.modCore e.1 (fun c => { c with quads := Nat.min 4 e.2 })) s
    boot.banks.foldl (fun t e => if 40 ≤ e.2 then t else t.modCore e.1 (fun c => c.failBank e.2)) s1
  else s

/-- The last step of bring-up: the health record is signed, and the module accepts CARVE (R376, R377, R409). -/
def State.bootDone (s : State) : State :=
  let counts := s.healthCounts
  let past := passedMask counts (healthLimits s.dev.healthth)
  ({ s with dev := { s.dev with
    bootStep := 6, boot := none
    recSeq := s.dev.recSeq + 1, ring := s.dev.ring ++ [(true, s.healthRecord counts past)]
    passed := if past = 0 then 0 else s.dev.passed, replace := s.dev.replace && past != 0 } } : State).checkHealth false

/-- Bring-up goes one step further where its time has come: the stage is measured first, and one whose signature fails stops
it (R409). -/
def State.bootOn (s : State) : State :=
  match s.dev.boot with
  | none => s
  | some boot =>
    let step := s.dev.bootStep + 1
    if s.dev.bootFailed ∨ s.clock < bootClock step then s
    else if step = 6 then s.bootDone
    else match boot.stages[step - 1]? with
      | none => s
      | some (digest, ok) =>
        let t : State := { s with dev := { s.dev with bootLog := s.dev.bootLog ++ [digest] } }
        if ok then ({ t with dev := { t.dev with bootStep := step } } : State).bootTests boot step
        else { t with dev := { t.dev with bootFailed := true, boot := none } }

/-- Bring-up goes on as far as its time has come. -/
def State.settleBoot (s : State) : State := (List.range 5).foldl (fun t _ => t.bootOn) s

end Sys2Proof.Machine
end

