-- ==== Sys2Proof/Machine/Fence.lean ====
section
/-! DEFINITION. Machine/Fence.lean: FENCE (R160 to R162, R168, R191). -/

namespace Sys2Proof.Machine

/-- A fence: nothing where no guard is true, else once for its weft. -/
def State.fenceWord (s : State) (i : Instr) (g : BitVec 3) (rel : Option Nat) (acq : Bool) : Out :=
  s.word i (fun sk u =>
    let act := u.acting g
    let ms := sk.members u.cur.weft
    let done : State → Attempt := fun v => (true, v.passBy)
    let tail : State → Attempt := fun v => if acq then v.acquiring act ms done else done v
    if act = [] then (true, u.passBy)
    else match rel with
      | some scope => u.releasing act ms (some u.cur.weft) scope tail
      | none => tail u)

/-- FENCE.rel (R160). -/
def execFenceRel (c : BitVec 1) (g : BitVec 3) (x : BitVec 3) (s : State) : Out :=
  s.fenceWord (.fenceRel c g x) g (some x.toNat) false
/-- FENCE.acq (R161). -/
def execFenceAcq (c : BitVec 1) (g : BitVec 3) (x : BitVec 3) (s : State) : Out :=
  s.fenceWord (.fenceAcq c g x) g none true
/-- FENCE.phase (R162). -/
def execFencePhase (c : BitVec 1) (g : BitVec 3) (x : BitVec 3) (s : State) : Out :=
  s.fenceWord (.fencePhase c g x) g (some x.toNat) true
/-- FENCE.drain (R168). -/
def execFenceDrain (c : BitVec 1) (g : BitVec 3) (s : State) : Out :=
  s.fenceWord (.fenceDrain c g) g (some 4) false

end Sys2Proof.Machine
end

