-- ==== Sys2Proof/Machine/Fp.lean ====
section
/-! DEFINITION. Machine/Fp.lean: FALU, FFMA, FSPEC and HALF (R98 to R103). -/

namespace Sys2Proof.Machine

/-! ### FALU (R99) -/

/-- FADD (R99). -/
def execFadd (c : BitVec 1) (g : BitVec 3) (d : BitVec 6) (a : BitVec 6) (b : BitVec 6) (q : BitVec 1) (s : State) : Out :=
  s.lanes (.fadd c g d a b q) (laneF2 s.cur.k q g d a b Fmt.fp32.add)

/-- FSUB (R99). -/
def execFsub (c : BitVec 1) (g : BitVec 3) (d : BitVec 6) (a : BitVec 6) (b : BitVec 6) (q : BitVec 1) (s : State) : Out :=
  s.lanes (.fsub c g d a b q) (laneF2 s.cur.k q g d a b Fmt.fp32.sub)

/-- FMUL (R99). -/
def execFmul (c : BitVec 1) (g : BitVec 3) (d : BitVec 6) (a : BitVec 6) (b : BitVec 6) (q : BitVec 1) (s : State) : Out :=
  s.lanes (.fmul c g d a b q) (laneF2 s.cur.k q g d a b Fmt.fp32.mul)

/-- FDIV (R99). -/
def execFdiv (c : BitVec 1) (g : BitVec 3) (d : BitVec 6) (a : BitVec 6) (b : BitVec 6) (q : BitVec 1) (s : State) : Out :=
  s.lanes (.fdiv c g d a b q) (laneF2 s.cur.k q g d a b Fmt.fp32.div)

/-- FMIN (R28, R99). -/
def execFmin (c : BitVec 1) (g : BitVec 3) (d : BitVec 6) (a : BitVec 6) (b : BitVec 6) (q : BitVec 1) (s : State) : Out :=
  s.lanes (.fmin c g d a b q) (laneF (q == 1) g d (fun x t =>
    Fmt.fp32.minMax x false (t.rv a.toNat).toNat (t.rb s.cur.k b.toNat).toNat))

/-- FMAX (R28, R99). -/
def execFmax (c : BitVec 1) (g : BitVec 3) (d : BitVec 6) (a : BitVec 6) (b : BitVec 6) (q : BitVec 1) (s : State) : Out :=
  s.lanes (.fmax c g d a b q) (laneF (q == 1) g d (fun x t =>
    Fmt.fp32.minMax x true (t.rv a.toNat).toNat (t.rb s.cur.k b.toNat).toNat))

/-- FCOPYSIGN (R99). -/
def execFcopysign (c : BitVec 1) (g : BitVec 3) (d : BitVec 6) (a : BitVec 6) (b : BitVec 6) (q : BitVec 1) (s : State) : Out :=
  s.lanes (.fcopysign c g d a b q) (lane2 s.cur.k g d a b (fun x y => (x &&& 0x7FFFFFFF) ||| (y &&& 0x80000000)))

/-- FSCALE (R99). -/
def execFscale (c : BitVec 1) (g : BitVec 3) (d : BitVec 6) (a : BitVec 6) (b : BitVec 6) (q : BitVec 1) (s : State) : Out :=
  s.lanes (.fscale c g d a b q) (laneF (q == 1) g d (fun x t =>
    ftz32 x (Fmt.fp32.fscale x (fpv (t.rv a.toNat)) (t.rb s.cur.k b.toNat).toInt)))

/-! ### FFMA (R100) -/

/-- FMA (R100). -/
def execFma (c : BitVec 1) (g : BitVec 3) (d : BitVec 6) (a : BitVec 6) (b : BitVec 6) (q : BitVec 1) (s : State) : Out :=
  s.lanes (.fma c g d a b q) (laneF (q == 1) g d (fun x t =>
    ftz32 x (Fmt.fp32.fma x false false (fpv (t.rv a.toNat)) (fpv (t.rb s.cur.k b.toNat)) (fpv (t.rv d.toNat)))))

/-- FMS (R100). -/
def execFms (c : BitVec 1) (g : BitVec 3) (d : BitVec 6) (a : BitVec 6) (b : BitVec 6) (q : BitVec 1) (s : State) : Out :=
  s.lanes (.fms c g d a b q) (laneF (q == 1) g d (fun x t =>
    ftz32 x (Fmt.fp32.fma x false true (fpv (t.rv a.toNat)) (fpv (t.rb s.cur.k b.toNat)) (fpv (t.rv d.toNat)))))

/-- FNMA (R100). -/
def execFnma (c : BitVec 1) (g : BitVec 3) (d : BitVec 6) (a : BitVec 6) (b : BitVec 6) (q : BitVec 1) (s : State) : Out :=
  s.lanes (.fnma c g d a b q) (laneF (q == 1) g d (fun x t =>
    ftz32 x (Fmt.fp32.fma x true false (fpv (t.rv a.toNat)) (fpv (t.rb s.cur.k b.toNat)) (fpv (t.rv d.toNat)))))

/-- FNMS (R100). -/
def execFnms (c : BitVec 1) (g : BitVec 3) (d : BitVec 6) (a : BitVec 6) (b : BitVec 6) (q : BitVec 1) (s : State) : Out :=
  s.lanes (.fnms c g d a b q) (laneF (q == 1) g d (fun x t =>
    ftz32 x (Fmt.fp32.fma x true true (fpv (t.rv a.toNat)) (fpv (t.rb s.cur.k b.toNat)) (fpv (t.rv d.toNat)))))

/-! ### FSPEC (R101, R102) -/

/-- RCP (R101, R102). -/
def execRcp (c : BitVec 1) (g : BitVec 3) (d : BitVec 6) (a : BitVec 6) (q : BitVec 1) (s : State) : Out :=
  s.lanes (.rcp c g d a q) (laneF (q == 1) g d (fun x t => ftz32 x (fspecRcp x (t.rv a.toNat))))

/-- RSQ (R101, R102). -/
def execRsq (c : BitVec 1) (g : BitVec 3) (d : BitVec 6) (a : BitVec 6) (q : BitVec 1) (s : State) : Out :=
  s.lanes (.rsq c g d a q) (laneF (q == 1) g d (fun x t => ftz32 x (fspecRsq x (t.rv a.toNat))))

/-- SQRT (R101, R102). -/
def execSqrt (c : BitVec 1) (g : BitVec 3) (d : BitVec 6) (a : BitVec 6) (q : BitVec 1) (s : State) : Out :=
  s.lanes (.sqrt c g d a q) (laneF (q == 1) g d (fun x t => ftz32 x (Fmt.fp32.sqrt x (fpv (t.rv a.toNat)))))

/-- EXP2 (R101, R102). -/
def execExp2 (c : BitVec 1) (g : BitVec 3) (d : BitVec 6) (a : BitVec 6) (q : BitVec 1) (s : State) : Out :=
  s.lanes (.exp2 c g d a q) (laneF (q == 1) g d (fun x t => ftz32 x (fspecExp2 x (t.rv a.toNat))))

/-- LOG2 (R101, R102). -/
def execLog2 (c : BitVec 1) (g : BitVec 3) (d : BitVec 6) (a : BitVec 6) (q : BitVec 1) (s : State) : Out :=
  s.lanes (.log2 c g d a q) (laneF (q == 1) g d (fun x t => ftz32 x (fspecLog2 x (t.rv a.toNat))))

/-- SINPI (R101, R102). -/
def execSinpi (c : BitVec 1) (g : BitVec 3) (d : BitVec 6) (a : BitVec 6) (q : BitVec 1) (s : State) : Out :=
  s.lanes (.sinpi c g d a q) (laneF (q == 1) g d (fun x t => ftz32 x (fspecSin false x (t.rv a.toNat))))

/-- COSPI (R101, R102). -/
def execCospi (c : BitVec 1) (g : BitVec 3) (d : BitVec 6) (a : BitVec 6) (q : BitVec 1) (s : State) : Out :=
  s.lanes (.cospi c g d a q) (laneF (q == 1) g d (fun x t => ftz32 x (fspecSin true x (t.rv a.toNat))))

/-- TANH (R101, R102). -/
def execTanh (c : BitVec 1) (g : BitVec 3) (d : BitVec 6) (a : BitVec 6) (q : BitVec 1) (s : State) : Out :=
  s.lanes (.tanh c g d a q) (laneF (q == 1) g d (fun x t => ftz32 x (fspecTanh x (t.rv a.toNat))))

/-! ### HALF (R103) -/

/-- HADD (R103). -/
def execHadd (c : BitVec 1) (g : BitVec 3) (d : BitVec 6) (a : BitVec 6) (b : BitVec 6) (q : BitVec 1) (t : BitVec 1) (s : State) : Out :=
  s.lanes (.hadd c g d a b q t) (laneF (q == 1) g d (fun x w =>
    halfOp (t == 1) 0 x (w.rv a.toNat) (w.rb s.cur.k b.toNat) (w.rv d.toNat)))

/-- HSUB (R103). -/
def execHsub (c : BitVec 1) (g : BitVec 3) (d : BitVec 6) (a : BitVec 6) (b : BitVec 6) (q : BitVec 1) (t : BitVec 1) (s : State) : Out :=
  s.lanes (.hsub c g d a b q t) (laneF (q == 1) g d (fun x w =>
    halfOp (t == 1) 1 x (w.rv a.toNat) (w.rb s.cur.k b.toNat) (w.rv d.toNat)))

/-- HMUL (R103). -/
def execHmul (c : BitVec 1) (g : BitVec 3) (d : BitVec 6) (a : BitVec 6) (b : BitVec 6) (q : BitVec 1) (t : BitVec 1) (s : State) : Out :=
  s.lanes (.hmul c g d a b q t) (laneF (q == 1) g d (fun x w =>
    halfOp (t == 1) 2 x (w.rv a.toNat) (w.rb s.cur.k b.toNat) (w.rv d.toNat)))

/-- HFMA (R103). -/
def execHfma (c : BitVec 1) (g : BitVec 3) (d : BitVec 6) (a : BitVec 6) (b : BitVec 6) (q : BitVec 1) (t : BitVec 1) (s : State) : Out :=
  s.lanes (.hfma c g d a b q t) (laneF (q == 1) g d (fun x w =>
    halfOp (t == 1) 3 x (w.rv a.toNat) (w.rb s.cur.k b.toNat) (w.rv d.toNat)))

end Sys2Proof.Machine
end

