-- ==== Sys2Proof/Machine/Imm.lean ====
section
/-! DEFINITION. Machine/Imm.lean: the immediate forms (R91 to R93). -/

namespace Sys2Proof.Machine

/-! ### Immediate forms (R91 to R93) -/

/-- ADDI (R91). -/
def execAddi (c : BitVec 1) (g : BitVec 3) (d : BitVec 6) (a : BitVec 6) (i : BitVec 10) (s : State) : Out :=
  s.lanes (.addi c g d a i) (lane1 g d a (· + sext10 i))

/-- ANDI (R91). -/
def execAndi (c : BitVec 1) (g : BitVec 3) (d : BitVec 6) (a : BitVec 6) (i : BitVec 10) (s : State) : Out :=
  s.lanes (.andi c g d a i) (lane1 g d a (· &&& zext10 i))

/-- ORI (R91). -/
def execOri (c : BitVec 1) (g : BitVec 3) (d : BitVec 6) (a : BitVec 6) (i : BitVec 10) (s : State) : Out :=
  s.lanes (.ori c g d a i) (lane1 g d a (· ||| zext10 i))

/-- XORI (R91). -/
def execXori (c : BitVec 1) (g : BitVec 3) (d : BitVec 6) (a : BitVec 6) (i : BitVec 10) (s : State) : Out :=
  s.lanes (.xori c g d a i) (lane1 g d a (· ^^^ zext10 i))

/-- SHLI (R92). -/
def execShli (c : BitVec 1) (g : BitVec 3) (d : BitVec 6) (a : BitVec 6) (n : BitVec 5) (s : State) : Out :=
  s.lanes (.shli c g d a n) (lane1 g d a (· <<< n.toNat))

/-- SHRI (R92). -/
def execShri (c : BitVec 1) (g : BitVec 3) (d : BitVec 6) (a : BitVec 6) (n : BitVec 5) (s : State) : Out :=
  s.lanes (.shri c g d a n) (lane1 g d a (· >>> n.toNat))

/-- SARI (R92). -/
def execSari (c : BitVec 1) (g : BitVec 3) (d : BitVec 6) (a : BitVec 6) (n : BitVec 5) (s : State) : Out :=
  s.lanes (.sari c g d a n) (lane1 g d a (fun x => x.sshiftRight n.toNat))

/-- ROLI (R92). -/
def execRoli (c : BitVec 1) (g : BitVec 3) (d : BitVec 6) (a : BitVec 6) (n : BitVec 5) (s : State) : Out :=
  s.lanes (.roli c g d a n) (lane1 g d a (fun x => intRoli x n))

/-- MOVI (R93). -/
def execMovi (c : BitVec 1) (g : BitVec 3) (d : BitVec 6) (i : BitVec 16) (s : State) : Out :=
  s.lanes (.movi c g d i) (fun _ _ => guarded g (fun t => .ok (t.wv d.toNat (i.signExtend 32))))

/-- MOVHI (R93). -/
def execMovhi (c : BitVec 1) (g : BitVec 3) (d : BitVec 6) (i : BitVec 16) (s : State) : Out :=
  s.lanes (.movhi c g d i) (fun _ _ => guarded g (fun t => .ok (t.wv d.toNat (intMovhi (t.rv d.toNat) i))))

end Sys2Proof.Machine
end

