-- ==== Sys2Proof/Machine/Index.lean ====
section
/-! DEFINITION. Machine/Index.lean: moves and index registers (R108 to R110). -/

namespace Sys2Proof.Machine

/-! ### MOVX and NIDX (R108 to R110) -/

/-- MOV (R108). -/
def execMov (c : BitVec 1) (g : BitVec 3) (d : BitVec 6) (a : BitVec 6) (s : State) : Out :=
  s.lanes (.mov c g d a) (lane1 g d a (fun x => x))

/-- RDX in one strand (R64, R109). -/
def rdxLane (g : BitVec 3) (d : VReg) (n : BitVec 2) (o : BitVec 6) : Skein → Nat → Strand → LaneOut :=
  fun sk _ => guarded g (fun t =>
    let e := indexReg sk.kern t n o
    if e.2 then .ok (t.wv d.toNat (t.rv e.1.toNat)) else .trap t 0x04 (BitVec.ofInt 32 e.1))

/-- WRX in one strand (R64, R109). -/
def wrxLane (g : BitVec 3) (d : VReg) (n : BitVec 2) (o : BitVec 6) : Skein → Nat → Strand → LaneOut :=
  fun sk _ => guarded g (fun t =>
    let e := indexReg sk.kern t n o
    if e.2 then .ok (t.wv e.1.toNat (t.rv d.toNat)) else .trap t 0x04 (BitVec.ofInt 32 e.1))

/-- RDX (R64, R109). -/
def execRdx (c : BitVec 1) (g : BitVec 3) (d : BitVec 6) (n : BitVec 2) (o : BitVec 6) (s : State) : Out :=
  s.word (.rdx c g d n o) (fun sk t =>
    t.waiting (t.acting g) (ldgaOn t.cur.skein (t.acting g) (reachedRegs sk t.issueSet g n o)) (fun u =>
      (true, u.retire sk (.rdx c g d n o) [d.toNat] (u.laneOuts (rdxLane g d n o sk)))))

/-- WRX (R64, R109). -/
def execWrx (c : BitVec 1) (g : BitVec 3) (d : BitVec 6) (n : BitVec 2) (o : BitVec 6) (s : State) : Out :=
  s.word (.wrx c g d n o) (fun sk t =>
    t.waiting (t.acting g) (ldgaOn t.cur.skein (t.acting g) (reachedRegs sk t.issueSet g n o)) (fun u =>
      (true, u.retire sk (.wrx c g d n o) (reachedRegs sk u.issueSet g n o) (u.laneOuts (wrxLane g d n o sk)))))

/-- NSET (R110). -/
def execNset (c : BitVec 1) (g : BitVec 3) (n : BitVec 2) (a : BitVec 6) (s : State) : Out :=
  s.lanes (.nset c g n a) (fun _ _ => guarded g (fun t => .ok (t.wn n.toNat ((t.rv a.toNat).setWidth 20))))

/-- NGET (R110). -/
def execNget (c : BitVec 1) (g : BitVec 3) (d : BitVec 6) (n : BitVec 2) (s : State) : Out :=
  s.lanes (.nget c g d n) (fun _ _ => guarded g (fun t => .ok (t.wv d.toNat ((t.rn n.toNat).setWidth 32))))

/-- NADV (R110). -/
def execNadv (c : BitVec 1) (g : BitVec 3) (n : BitVec 2) (a : BitVec 6) (s : State) : Out :=
  s.lanes (.nadv c g n a) (fun _ _ => guarded g (fun t =>
    let x := (t.rn n.toNat).toNat
    .ok (t.wn n.toNat (BitVec.ofNat 20 (x / 256 * 256 + (x + (t.rv a.toNat).toNat) % 256)))))

/-- NCLR (R110). -/
def execNclr (c : BitVec 1) (g : BitVec 3) (n : BitVec 2) (s : State) : Out :=
  s.lanes (.nclr c g n) (fun _ _ => guarded g (fun t => .ok (t.wn n.toNat 0)))

end Sys2Proof.Machine
end

