-- ==== Sys2Proof/Machine/Int.lean ====
section
/-! DEFINITION. Machine/Int.lean: NOP, INT.A and INT.B (R86 to R88). -/

namespace Sys2Proof.Machine

/-- NOP (R86): no effect, no issue slot, no count. -/
def execNop (s : State) : Out :=
  .next (s.modStrands s.cur.skein s.cur.strands (fun _ t => t.advance))

/-! ### INT.A (R87) -/

/-- ADD (R87). -/
def execAdd (c : BitVec 1) (g : BitVec 3) (d : BitVec 6) (a : BitVec 6) (b : BitVec 6) (s : State) : Out :=
  s.lanes (.add c g d a b) (lane2 s.cur.k g d a b (· + ·))

/-- SUB (R87). -/
def execSub (c : BitVec 1) (g : BitVec 3) (d : BitVec 6) (a : BitVec 6) (b : BitVec 6) (s : State) : Out :=
  s.lanes (.sub c g d a b) (lane2 s.cur.k g d a b (· - ·))

/-- MUL (R87). -/
def execMul (c : BitVec 1) (g : BitVec 3) (d : BitVec 6) (a : BitVec 6) (b : BitVec 6) (s : State) : Out :=
  s.lanes (.mul c g d a b) (lane2 s.cur.k g d a b (· * ·))

/-- MULH (R87). -/
def execMulh (c : BitVec 1) (g : BitVec 3) (d : BitVec 6) (a : BitVec 6) (b : BitVec 6) (s : State) : Out :=
  s.lanes (.mulh c g d a b) (lane2 s.cur.k g d a b intMulh)

/-- MULHU (R87). -/
def execMulhu (c : BitVec 1) (g : BitVec 3) (d : BitVec 6) (a : BitVec 6) (b : BitVec 6) (s : State) : Out :=
  s.lanes (.mulhu c g d a b) (lane2 s.cur.k g d a b intMulhu)

/-- AND (R87). -/
def execAnd (c : BitVec 1) (g : BitVec 3) (d : BitVec 6) (a : BitVec 6) (b : BitVec 6) (s : State) : Out :=
  s.lanes (.and c g d a b) (lane2 s.cur.k g d a b (· &&& ·))

/-- OR (R87). -/
def execOr (c : BitVec 1) (g : BitVec 3) (d : BitVec 6) (a : BitVec 6) (b : BitVec 6) (s : State) : Out :=
  s.lanes (.or c g d a b) (lane2 s.cur.k g d a b (· ||| ·))

/-- XOR (R87). -/
def execXor (c : BitVec 1) (g : BitVec 3) (d : BitVec 6) (a : BitVec 6) (b : BitVec 6) (s : State) : Out :=
  s.lanes (.xor c g d a b) (lane2 s.cur.k g d a b (· ^^^ ·))

/-- ANDN (R87). -/
def execAndn (c : BitVec 1) (g : BitVec 3) (d : BitVec 6) (a : BitVec 6) (b : BitVec 6) (s : State) : Out :=
  s.lanes (.andn c g d a b) (lane2 s.cur.k g d a b (fun x y => x &&& ~~~y))

/-- SHL (R87). -/
def execShl (c : BitVec 1) (g : BitVec 3) (d : BitVec 6) (a : BitVec 6) (b : BitVec 6) (s : State) : Out :=
  s.lanes (.shl c g d a b) (lane2 s.cur.k g d a b intShl)

/-- SHR (R87). -/
def execShr (c : BitVec 1) (g : BitVec 3) (d : BitVec 6) (a : BitVec 6) (b : BitVec 6) (s : State) : Out :=
  s.lanes (.shr c g d a b) (lane2 s.cur.k g d a b intShr)

/-- SAR (R87). -/
def execSar (c : BitVec 1) (g : BitVec 3) (d : BitVec 6) (a : BitVec 6) (b : BitVec 6) (s : State) : Out :=
  s.lanes (.sar c g d a b) (lane2 s.cur.k g d a b intSar)

/-- MIN (R87). -/
def execMin (c : BitVec 1) (g : BitVec 3) (d : BitVec 6) (a : BitVec 6) (b : BitVec 6) (s : State) : Out :=
  s.lanes (.min c g d a b) (lane2 s.cur.k g d a b intMin)

/-- MAX (R87). -/
def execMax (c : BitVec 1) (g : BitVec 3) (d : BitVec 6) (a : BitVec 6) (b : BitVec 6) (s : State) : Out :=
  s.lanes (.max c g d a b) (lane2 s.cur.k g d a b intMax)

/-- MINU (R87). -/
def execMinu (c : BitVec 1) (g : BitVec 3) (d : BitVec 6) (a : BitVec 6) (b : BitVec 6) (s : State) : Out :=
  s.lanes (.minu c g d a b) (lane2 s.cur.k g d a b intMinu)

/-- MAXU (R87). -/
def execMaxu (c : BitVec 1) (g : BitVec 3) (d : BitVec 6) (a : BitVec 6) (b : BitVec 6) (s : State) : Out :=
  s.lanes (.maxu c g d a b) (lane2 s.cur.k g d a b intMaxu)

/-! ### INT.B (R88) -/

/-- ADDSAT (R88). -/
def execAddsat (c : BitVec 1) (g : BitVec 3) (d : BitVec 6) (a : BitVec 6) (b : BitVec 6) (s : State) : Out :=
  s.lanes (.addsat c g d a b) (lane2 s.cur.k g d a b intAddsat)

/-- SUBSAT (R88). -/
def execSubsat (c : BitVec 1) (g : BitVec 3) (d : BitVec 6) (a : BitVec 6) (b : BitVec 6) (s : State) : Out :=
  s.lanes (.subsat c g d a b) (lane2 s.cur.k g d a b intSubsat)

/-- ADDSATU (R88). -/
def execAddsatu (c : BitVec 1) (g : BitVec 3) (d : BitVec 6) (a : BitVec 6) (b : BitVec 6) (s : State) : Out :=
  s.lanes (.addsatu c g d a b) (lane2 s.cur.k g d a b intAddsatu)

/-- SUBSATU (R88). -/
def execSubsatu (c : BitVec 1) (g : BitVec 3) (d : BitVec 6) (a : BitVec 6) (b : BitVec 6) (s : State) : Out :=
  s.lanes (.subsatu c g d a b) (lane2 s.cur.k g d a b intSubsatu)

/-- DIV (R88). -/
def execDiv (c : BitVec 1) (g : BitVec 3) (d : BitVec 6) (a : BitVec 6) (b : BitVec 6) (s : State) : Out :=
  s.lanes (.div c g d a b) (lane2 s.cur.k g d a b intDiv)

/-- DIVU (R88). -/
def execDivu (c : BitVec 1) (g : BitVec 3) (d : BitVec 6) (a : BitVec 6) (b : BitVec 6) (s : State) : Out :=
  s.lanes (.divu c g d a b) (lane2 s.cur.k g d a b intDivu)

/-- REM (R88). -/
def execRem (c : BitVec 1) (g : BitVec 3) (d : BitVec 6) (a : BitVec 6) (b : BitVec 6) (s : State) : Out :=
  s.lanes (.rem c g d a b) (lane2 s.cur.k g d a b intRem)

/-- REMU (R88). -/
def execRemu (c : BitVec 1) (g : BitVec 3) (d : BitVec 6) (a : BitVec 6) (b : BitVec 6) (s : State) : Out :=
  s.lanes (.remu c g d a b) (lane2 s.cur.k g d a b intRemu)

/-- ABSDIFF (R88). -/
def execAbsdiff (c : BitVec 1) (g : BitVec 3) (d : BitVec 6) (a : BitVec 6) (b : BitVec 6) (s : State) : Out :=
  s.lanes (.absdiff c g d a b) (lane2 s.cur.k g d a b intAbsdiff)

/-- POPC (R88). -/
def execPopc (c : BitVec 1) (g : BitVec 3) (d : BitVec 6) (a : BitVec 6) (s : State) : Out :=
  s.lanes (.popc c g d a) (lane1 g d a intPopc)

/-- CLZ (R88). -/
def execClz (c : BitVec 1) (g : BitVec 3) (d : BitVec 6) (a : BitVec 6) (s : State) : Out :=
  s.lanes (.clz c g d a) (lane1 g d a intClz)

/-- CTZ (R88). -/
def execCtz (c : BitVec 1) (g : BitVec 3) (d : BitVec 6) (a : BitVec 6) (s : State) : Out :=
  s.lanes (.ctz c g d a) (lane1 g d a intCtz)

/-- BREV (R88). -/
def execBrev (c : BitVec 1) (g : BitVec 3) (d : BitVec 6) (a : BitVec 6) (s : State) : Out :=
  s.lanes (.brev c g d a) (lane1 g d a intBrev)

/-- ABS (R88). -/
def execAbs (c : BitVec 1) (g : BitVec 3) (d : BitVec 6) (a : BitVec 6) (s : State) : Out :=
  s.lanes (.abs c g d a) (lane1 g d a intAbs)

/-- NEG (R88). -/
def execNeg (c : BitVec 1) (g : BitVec 3) (d : BitVec 6) (a : BitVec 6) (s : State) : Out :=
  s.lanes (.neg c g d a) (lane1 g d a (fun x => 0 - x))

end Sys2Proof.Machine
end

