-- ==== Sys2Proof/Machine/Pred.lean ====
section
/-! DEFINITION. Machine/Pred.lean: comparisons, selection and predicates (R94 to R97). -/

namespace Sys2Proof.Machine

/-! ### Comparisons, selection, predicates (R94 to R97) -/

/-- ICMP (R94). -/
def execIcmp (c : BitVec 1) (g : BitVec 3) (p : BitVec 3) (k : BitVec 3) (a : BitVec 6) (b : BitVec 6) (f : BitVec 4) (s : State) : Out :=
  s.lanes (.icmp c g p k a b f) (laneQ g p (fun t =>
    combine k.toNat (t.rpr p.toNat) (icmpCond f.toNat (t.rv a.toNat) (t.rb s.cur.k b.toNat))))

/-- FCMP (R95). -/
def execFcmp (c : BitVec 1) (g : BitVec 3) (p : BitVec 3) (k : BitVec 3) (a : BitVec 6) (b : BitVec 6) (q : BitVec 1) (f : BitVec 3) (s : State) : Out :=
  s.lanes (.fcmp c g p k a b q f) (fun _ _ => guarded g (fun t =>
    let r := fcmpCond f.toNat (t.rv a.toNat) (t.rb s.cur.k b.toNat)
    fpDone (q == 1) (p.toNat * 8 + k.toNat) r.2 (t.wpr p.toNat (combine k.toNat (t.rpr p.toNat) r.1)) t))

/-- SEL (R96). -/
def execSel (c : BitVec 1) (s' : BitVec 3) (d : BitVec 6) (a : BitVec 6) (b : BitVec 6) (s : State) : Out :=
  s.lanes (.sel c s' d a b) (fun _ _ t =>
    .ok (t.wv d.toNat (if t.rpr s'.toNat then t.rv a.toNat else t.rb s.cur.k b.toNat)))

/-- PAND (R97). -/
def execPand (c : BitVec 1) (g : BitVec 3) (d : BitVec 3) (a : BitVec 3) (b : BitVec 3) (s : State) : Out :=
  s.lanes (.pand c g d a b) (laneQ g d (fun t => t.rpr a.toNat && t.rpr b.toNat))

/-- POR (R97). -/
def execPor (c : BitVec 1) (g : BitVec 3) (d : BitVec 3) (a : BitVec 3) (b : BitVec 3) (s : State) : Out :=
  s.lanes (.por c g d a b) (laneQ g d (fun t => t.rpr a.toNat || t.rpr b.toNat))

/-- PXOR (R97). -/
def execPxor (c : BitVec 1) (g : BitVec 3) (d : BitVec 3) (a : BitVec 3) (b : BitVec 3) (s : State) : Out :=
  s.lanes (.pxor c g d a b) (laneQ g d (fun t => t.rpr a.toNat ^^ t.rpr b.toNat))

/-- PANDN (R97). -/
def execPandn (c : BitVec 1) (g : BitVec 3) (d : BitVec 3) (a : BitVec 3) (b : BitVec 3) (s : State) : Out :=
  s.lanes (.pandn c g d a b) (laneQ g d (fun t => t.rpr a.toNat && !t.rpr b.toNat))

/-- PNOT (R97). -/
def execPnot (c : BitVec 1) (g : BitVec 3) (d : BitVec 3) (a : BitVec 3) (s : State) : Out :=
  s.lanes (.pnot c g d a) (laneQ g d (fun t => !t.rpr a.toNat))

/-- PMOV (R97). -/
def execPmov (c : BitVec 1) (g : BitVec 3) (d : BitVec 3) (a : BitVec 3) (s : State) : Out :=
  s.lanes (.pmov c g d a) (laneQ g d (fun t => t.rpr a.toNat))

/-- VTOP (R97). -/
def execVtop (c : BitVec 1) (g : BitVec 3) (d : BitVec 3) (a : BitVec 6) (s : State) : Out :=
  s.lanes (.vtop c g d a) (laneQ g d (fun t => t.rv a.toNat != 0))

/-- PTOV (R97). -/
def execPtov (c : BitVec 1) (g : BitVec 3) (d : BitVec 6) (a : BitVec 3) (s : State) : Out :=
  s.lanes (.ptov c g d a) (fun _ _ => guarded g (fun t => .ok (t.wv d.toNat (if t.rpr a.toNat then 1 else 0))))

end Sys2Proof.Machine
end

