-- ==== Sys2Proof/Machine/Tile.lean ====
section
/-! DEFINITION. Machine/Tile.lean: the accumulator tiles, the matrix engine, its exact sums and checksums, and the TILE
instructions (R235 to R260). -/

namespace Sys2Proof.Machine

/-! ### Operands (R241 to R245) -/

/-- Pieces of `n` elements. -/
def pieces {α : Type} (n : Nat) : Nat → List α → List (List α)
  | 0, _ => []
  | fuel + 1, l => if l.isEmpty then [] else l.take n :: pieces n fuel (l.drop n)

/-- The rows of a matrix become its columns. -/
def columns {α : Type} (n : Nat) (rows : List (List α)) (d : α) : List (List α) :=
  (List.range n).map (fun j => rows.map (fun r => nth d r j))

/-- The raw elements of a run of bytes: 16-bit, 8-bit or nibbles (R243). -/
def rawElems (f : Nat) (bs : List Byte) : List Nat :=
  if f ≤ 1 then (pieces 2 (bs.length) bs).map ofBytes
  else if f = 4 ∨ f = 6 then bs.flatMap (fun b => [b.toNat % 16, b.toNat / 16])
  else bs.map BitVec.toNat

/-- The scale pairs (S, X) of a run of bytes (R244). -/
def scalePairs (bs : List Byte) : List (Nat × Nat) :=
  (pieces 2 bs.length bs).map (fun p => ((nth 0 p 0).toNat, (nth 0 p 1).toNat))

/-- A NaN that raises nothing: R247 gives NV to signalling BF16 and FP16 NaN elements alone, against R27's words (log 43). -/
def FpVal.silent : FpVal → FpVal
  | .nan s fr w _ p => .nan s fr w false p
  | x => x

/-- One element of a format that carries no scale (R246). -/
def decodeElem (c : FpCtx) (f x : Nat) : FpVal :=
  match f with
  | 0 => Fmt.bf16.operand c x
  | 1 => Fmt.fp16.operand c x
  | 2 => (Fmt.e4m3.decode x).silent
  | 3 => (Fmt.e5m2.decode x).silent
  | 5 => .fin (decide (signed 8 x < 0)) (signed 8 x).natAbs 0
  | _ => .fin (decide (signed 4 x < 0)) (signed 4 x).natAbs 0

/-- A row's or a column's elements, with the scale pairs of its blocks. -/
def decodeLine (c : FpCtx) (f : Nat) (codes : List Nat) (ps : List (Nat × Nat)) : List FpVal :=
  if f = 4 then
    ((pieces 32 codes.length codes).zip ps).flatMap (fun b => b.1.map (fun x => decodeE2M1X x b.2.1 b.2.2))
  else codes.map (decodeElem c f)

/-- The dense K of a format (R241). -/
def mtxK (f : Nat) : Nat := if f ≤ 1 then 64 else if f = 4 ∨ f = 6 then 256 else 128

/-- A row of A: its elements with their logical k, ascending stored position. -/
abbrev ARow := List (Nat × FpVal)

/-- The rows of A (R243 to R245). -/
def rowsOfA (c : FpCtx) (mmas : Bool) (f : Nat) (bs : List Byte) : List ARow :=
  let k := mtxK f
  let lines := pieces k 64 (rawElems f (bs.take 8192))
  let scale := if f = 4 then 1024 else 0
  let ps := pieces (k / 32) 64 (scalePairs ((bs.drop 8192).take scale))
  let vals := (List.range 64).map (fun i => decodeLine c f (nth [] lines i) (nth [] ps i))
  if mmas then
    let meta' := pieces (k / 2) 64 (rawElems 4 (bs.drop (8192 + scale)))
    (List.range 64).map (fun i => (nth [] vals i).zipIdx.map (fun e =>
      let nib := nth 0 (nth [] meta' i) (e.2 / 2)
      (4 * (e.2 / 2) + (if e.2 % 2 = 0 then nib % 4 else nib / 4 % 4), e.1)))
  else vals.map (fun r => r.zipIdx.map (fun e => (e.2, e.1)))

/-- The columns of B (R243, R244); `k` is the logical K. -/
def colsOfB (c : FpCtx) (trans : Bool) (f k : Nat) (bs : List Byte) : List (List FpVal) :=
  let data := if f ≤ 1 then 128 * k else if f = 4 ∨ f = 6 then 32 * k else 64 * k
  let codes := rawElems f (bs.take data)
  let cols := if trans then pieces k 64 codes else columns 64 (pieces 64 k codes) 0
  let ps := pieces (k / 32) 64 (scalePairs (bs.drop data))
  (List.range 64).map (fun n => decodeLine c f (nth [] cols n) (nth [] ps n))

/-! ### Accumulation (R246 to R248) -/

/-- One product of a chunk: k, a, b. -/
abbrev Prod3 := Nat × FpVal × FpVal

/-- Whether a value is an exact −0. -/
def FpVal.negZero : FpVal → Bool
  | .fin s m _ => s && m == 0
  | _ => false

/-- A chunk's exact sum, rounded once (R246, R247). DESIGN CHOICE (log 43): of the NaN elements at one k the order is that of the
products: the first stored element of A, then B, then the second stored element of A, then B. -/
def chunkSum (c : FpCtx) (ps : List Prod3) : FpOut :=
  let prods := ps.map (fun p => mulVal p.2.1 p.2.2)
  let pos := prods.any (· == some (.inf false))
  let neg := prods.any (· == some (.inf true))
  let invalid := prods.any (fun p => p.isNone) || (pos && neg)
  let nan := ps.any (fun p => p.2.1.isNan || p.2.2.isNan)
  if nan || invalid then
    Fmt.fp32.nanOut c ((sortBy (fun (x y : Prod3) => decide (x.1 ≤ y.1)) ps).flatMap (fun p => [p.2.1, p.2.2])) invalid
  else if pos then ⟨Fmt.fp32.inf, 0⟩
  else if neg then ⟨Fmt.fp32.pack true Fmt.fp32.inf, 0⟩
  else
    let sum : Int := (prods.map (fun p => match p with
      | some v => units300 v
      | none => 0)).sum
    if sum = 0 then
      ⟨if prods.all (fun p => match p with
        | some v => v.negZero
        | none => false) then 0x80000000 else 0, 0⟩
    else Fmt.fp32.round 0 (decide (sum < 0)) sum.natAbs (-300) false

/-- One element of an FP tile: each chunk's sum is added in ascending k (R246). -/
def accumulateFp (c : FpCtx) (a : List ARow) (b : List (List FpVal)) (x : Word) : Word × FpFlags :=
  ((a.zip b)).foldl (fun (acc : Word × FpFlags) ch =>
    let s := chunkSum c (ch.1.map (fun e => (e.1, e.2, nth (.fin false 0 0) ch.2 (e.1 % 32))))
    let r := Fmt.fp32.add c (fpv acc.1) (Fmt.fp32.decode s.bits)
    (BitVec.ofNat 32 r.bits, acc.2 ||| s.flags ||| r.flags)) (x, 0)

/-- One element of an INT tile and whether it saturated (R248). -/
def accumulateInt (a : ARow) (b : List FpVal) (x : Word) : Word × Bool :=
  let v (y : FpVal) : Int := match y with
    | .fin s m _ => if s then -(m : Int) else (m : Int)
    | _ => 0
  let t : Int := x.toInt + (a.map (fun e => v e.2 * v (nth (.fin false 0 0) b e.1))).sum
  (clampS32 t, decide (t < -2147483648 ∨ 2147483647 < t))

/-! ### Exact sums (R252, R253) -/

abbrev Sum? := Option Int
def sumAdd : Sum? → Sum? → Sum?
  | some a, some b => some (a + b)
  | _, _ => none
def sumMul : Sum? → Sum? → Sum?
  | some a, some b => some (a * b)
  | _, _ => none
def sumAll (l : List Sum?) : Sum? := l.foldl sumAdd (some 0)
def sumAbs (x : Sum?) : Sum? := x.map (fun v => (v.natAbs : Int))

/-- A value in units of `2^q`, where it is finite. -/
def inUnits (q : Int) : FpVal → Sum?
  | .fin s m e => some (unitsAt s m e q)
  | _ => none

/-- The dense row of A: the sum of the stored elements at each k (R245). -/
def denseRow (q : Int) (k : Nat) (mmas : Bool) (r : ARow) : List Sum? :=
  if mmas then
    (pieces 2 r.length r).flatMap (fun g => (List.range 4).map (fun p =>
      sumAll ((g.filter (fun e => e.1 % 4 == p)).map (fun e => inUnits q e.2)))) |>.take k
  else r.map (fun e => inUnits q e.2)

/-- The dot product of two lists of sums. -/
def sumDot (a b : List Sum?) : Sum? := sumAll ((a.zip b).map (fun p => sumMul p.1 p.2))

/-- Add to a table of 64 sums. -/
def addSums (old : Cells Sum?) (inc : List Sum?) : Cells Sum? :=
  inc.zipIdx.foldl (fun m e => Cells.set (some 0) m e.2 (sumAdd (Cells.get (some 0) m e.2) e.1)) old

/-- ChecksumUpdate (R253). -/
def Tile.checksums (t : Tile) (q : Int) (k : Nat) (mmas : Bool) (a : List ARow) (b : List (List FpVal)) : Tile :=
  let da := a.map (denseRow q k mmas)
  let db := b.map (fun col => col.map (inUnits q))
  let sumB := (List.range k).map (fun j => sumAll (db.map (fun col => nth (some 0) col j)))
  let magB := (List.range k).map (fun j => sumAll (db.map (fun col => sumAbs (nth (some 0) col j))))
  let sumA := (List.range k).map (fun j => sumAll (da.map (fun r => nth (some 0) r j)))
  let magA := (List.range k).map (fun j => sumAll (da.map (fun r => sumAbs (nth (some 0) r j))))
  { t with
    rsum := addSums t.rsum (da.map (fun r => sumDot r sumB))
    rmag := addSums t.rmag (da.map (fun r => sumDot (r.map sumAbs) magB))
    csum := addSums t.csum (db.map (fun col => sumDot sumA col))
    cmag := addSums t.cmag (db.map (fun col => sumDot magA (col.map sumAbs))) }

/-! ### Tiles (R237, R238, R254) -/

def Tile.elem (t : Tile) (i n : Nat) : Word := Cells.get 0 t.elems (64 * i + n)
def Tile.isInt (t : Tile) : Bool := t.status.getLsbD 9
def Tile.typed (t : Tile) : Bool := t.status.getLsbD 10
/-- The elements of a tile as exact numbers: units of `2^-300` for an FP tile, of 1 for an INT tile. -/
def Tile.exact (t : Tile) (i n : Nat) : Sum? :=
  if t.isInt then some (t.elem i n).toInt else inUnits (-300) (fpv (t.elem i n))
def Tile.row (t : Tile) (i : Nat) : List Sum? := (List.range 64).map (fun n => t.exact i n)
def Tile.col (t : Tile) (n : Nat) : List Sum? := (List.range 64).map (fun i => t.exact i n)

/-- The sums that the elements alone give (R257). -/
def Tile.rebuildSums (t : Tile) : Tile :=
  { t with
    rsum := addSums [] ((List.range 64).map (fun i => sumAll (t.row i)))
    rmag := addSums [] ((List.range 64).map (fun i => sumAll ((t.row i).map sumAbs)))
    csum := addSums [] ((List.range 64).map (fun n => sumAll (t.col n)))
    cmag := addSums [] ((List.range 64).map (fun n => sumAll ((t.col n).map sumAbs))) }

/-- Set or clear the INT and TYPESET bits. -/
def Tile.setType (t : Tile) (int : Bool) : Tile :=
  { t with status := (t.status &&& 0xFFFFF9FF#32) ||| 0x400#32 ||| (if int then 0x200#32 else 0#32) }

/-- The tile takes the type of an MMA (R237). -/
def Tile.retype (t : Tile) (int : Bool) : Tile :=
  if t.typed ∧ t.isInt ≠ int then (t.setType int).rebuildSums else t.setType int

/-- A whole MMA, MMAT or MMAS into a tile: elements, flags, checksums (R246, R248, R253). -/
def Tile.mma (t0 : Tile) (c : FpCtx) (kind af bf : Nat) (abytes bbytes : List Byte) : Tile :=
  let int := decide (5 ≤ af)
  let t := t0.retype int
  let mmas := kind == 2
  let k := if mmas then 2 * mtxK bf else mtxK bf
  let a := rowsOfA c mmas af abytes
  let b := colsOfB c (kind == 1) bf k bbytes
  let summed :=
    if int then
      a.zipIdx.foldl (fun (acc : Cells Word × Word) r => b.zipIdx.foldl (fun (acc : Cells Word × Word) col =>
        let x := accumulateInt r.1 col.1 (t.elem r.2 col.2)
        (Cells.set 0 acc.1 (64 * r.2 + col.2) x.1, if x.2 then acc.2 ||| 0x100#32 else acc.2)) acc) (t.elems, t.status)
    else
      let ca := a.map (fun r => pieces (if mmas then 16 else 32) r.length r)
      let cb := b.map (fun col => pieces 32 col.length col)
      ca.zipIdx.foldl (fun (acc : Cells Word × Word) r => cb.zipIdx.foldl (fun (acc : Cells Word × Word) col =>
        let x := accumulateFp c r.1 col.1 (t.elem r.2 col.2)
        (Cells.set 0 acc.1 (64 * r.2 + col.2) x.1, acc.2 ||| x.2.setWidth 32)) acc) (t.elems, t.status)
  ({ t with elems := summed.1, status := summed.2 }).checksums (if int then 0 else -150) k mmas a b

/-- Whether a row, or a column, mismatches: its sum, its checksum, its magnitude, and its flagged elements (R254). -/
def mismatch (int : Bool) (tol : Nat) (sum chk mag : Sum?) (flagged : Bool) : Bool :=
  flagged || (match sum, chk, mag with
    | some s, some c, some m => decide ((if int then 0 else m) < ((s - c).natAbs : Int) * (if int then 1 else 2 ^ tol))
    | _, _, _ => false)

/-- The mismatching rows and columns. -/
def Tile.badRows (t : Tile) (tol : Nat) : List Nat :=
  (List.range 64).filter (fun i => mismatch t.isInt tol (sumAll (t.row i)) (Cells.get (some 0) t.rsum i)
    (Cells.get (some 0) t.rmag i) ((List.range 64).any (fun n => Cells.get false t.flags (64 * i + n))))
def Tile.badCols (t : Tile) (tol : Nat) : List Nat :=
  (List.range 64).filter (fun n => mismatch t.isInt tol (sumAll (t.col n)) (Cells.get (some 0) t.csum n)
    (Cells.get (some 0) t.cmag n) ((List.range 64).any (fun i => Cells.get false t.flags (64 * i + n))))

/-- The corrected element, where it is repairable (R254). -/
def Tile.repair (t : Tile) (i n : Nat) : Option Word :=
  let rest := (List.range 64).filter (fun m => m != n)
  let others := sumAll (rest.map (fun m => t.exact i m))
  match sumAdd (Cells.get (some 0) t.rsum i) (others.map (fun v => -v)) with
  | none => none
  | some v =>
    if t.isInt then some (BitVec.ofInt 32 v)
    else if rest.any (fun m => Cells.get false t.flags (64 * i + m)) then none
    else
      let r := (Fmt.fp32.round 0 (decide (v < 0)) v.natAbs (-300) false).bits
      if r % 2 ^ 31 < 0x7F800000 then some (BitVec.ofNat 32 r) else none

/-! ### The engine's operations (R249, R254 to R259) -/

def Skein.tile (sk : Skein) (t : Nat) : Tile := Cells.get Tile.zero sk.tiles t
def State.putTile (s : State) (k t : Nat) (x : Tile) : State :=
  s.modSkein k (fun sk => { sk with tiles := Cells.set Tile.zero sk.tiles t x })

/-- The tolerance of a skein's context (R256). -/
def State.tolexp (s : State) (sk : Skein) : Nat := match s.ctx? sk.ctx with
  | some c => c.tolexp
  | none => 16

/-- A tile event (R255). -/
def State.raiseTile (s : State) (sk : Skein) (code sev : Nat) (body : List Byte) : State :=
  let part := match s.ctx? sk.ctx with
    | some c => c.partition
    | none => 0
  s.raise true code sev (coreId (sk.core.getD 0)) (some part) (some sk.ctx) [part] body

/-- Check(t) (R254): whether the operation goes on, and the state. -/
def State.checkTile (s : State) (k tn : Nat) : Bool × State :=
  match s.skein? k with
  | none => (false, s)
  | some sk =>
    let t := sk.tile tn
    if t.isInt ∧ t.status.getLsbD 8 then (true, s)
    else
      let tol := s.tolexp sk
      let rows := t.badRows tol
      let cols := t.badCols tol
      let flagged (i n : Nat) : Bool := Cells.get false t.flags (64 * i + n)
      let fail : Bool × State :=
        let seen := rows.any (fun i => (List.range 64).any (flagged i)) || cols.any (fun n => (List.range 64).any (fun i => flagged i n))
        let s1 := s.raiseTile sk 0x0221 2
          (bytesOf 1 tn ++ bytesOf 1 rows.length ++ bytesOf 1 cols.length ++ bytesOf 1 (if seen then 2 else 1))
        (false, s1.gangFault sk.bolt 0x41
          { src := coreId (sk.core.getD 0), strand := 0xFFFF, pc := 0, skeinIx := sk.index, info := 0 })
      match rows, cols with
      | [], [] => (true, s)
      | [i], [n] =>
        (match t.repair i n with
          | none => fail
          | some x =>
            let t' : Tile := { t with
              elems := Cells.set 0 t.elems (64 * i + n) x
              status := t.status ||| 0x800#32
              count := min 0xFFFFFFFF (t.count + 1)
              flags := Cells.set false t.flags (64 * i + n) false }
            (true, ((s.putTile k tn t').count k 8 1).raiseTile sk 0x0220 0
              (bytesOf 1 tn ++ bytesOf 1 i ++ bytesOf 1 n ++ bytesOf 1 (if flagged i n then 2 else 1) ++
                bytesOf 4 (t.elem i n).toNat ++ bytesOf 4 x.toNat)))
      | _, _ => fail

/-- A tile's elements in a drain format, with the flags (R258). -/
def Tile.drain (t : Tile) (c : FpCtx) (f : Nat) : List Byte × FpFlags :=
  let vals : List (Nat × FpVal) := (List.range 4096).map (fun j =>
    let w := Cells.get 0 t.elems j
    (w.toNat, if t.isInt then .fin (decide (w.toInt < 0)) w.toInt.natAbs 0 else fpv w))
  let each (n : Nat) (g : FpVal → FpOut) : List Byte × FpFlags :=
    vals.foldr (fun v acc =>
      let o := g v.2
      (bytesOf n o.bits ++ acc.1, acc.2 ||| o.flags)) ([], 0)
  match f with
  | 0 => (vals.flatMap (fun v => bytesOf 4 v.1), 0)
  | 1 => each 2 (Fmt.bf16.convert c)
  | 2 => each 2 (Fmt.fp16.convert c)
  | 3 => each 1 (toFp8 Fmt.e4m3 true)
  | 4 => each 1 (toFp8 Fmt.e5m2 true)
  | _ =>
    let blocks := (pieces 32 128 (vals.map Prod.snd)).map encodeE2M1X
    (blocks.flatMap (fun b => (pieces 2 16 b.codes).map (fun p => BitVec.ofNat 8 (nth 0 p 0 + 16 * nth 0 p 1))) ++
      blocks.flatMap (fun b => bytesOf 1 b.scale ++ bytesOf 1 b.escape),
     blocks.foldl (fun fl b => fl ||| b.flags) 0)

/-- A tile of 16,384 bytes read as FP32 (R257). -/
def Tile.load (bs : List Byte) : Tile :=
  let elems := (pieces 4 4096 bs).zipIdx.foldl (fun m e => Cells.set 0 m e.2 (BitVec.ofNat 32 (ofBytes e.1))) []
  ({ Tile.zero with elems := elems, status := 0x400#32 }).rebuildSums

/-- Inject the error that ABFTINJ arms for a skein's tile (R256). -/
def State.inject (s : State) (c k tn : Nat) : State :=
  let w := (s.core c).abftinj.toNat
  if bit w 31 ∧ bits w 29 26 = tn ∧ (s.core c).abftSkein = k then
    let ix := 64 * bits w 25 20 + bits w 19 14
    let s1 := s.modCore c (fun x => { x with abftinj := x.abftinj &&& 0x7FFFFFFF#32 })
    match s1.skein? k with
    | none => s1
    | some sk =>
      let t := sk.tile tn
      s1.putTile k tn { t with elems := Cells.set 0 t.elems ix (Cells.get 0 t.elems ix ^^^ BitVec.ofNat 32 (2 ^ bits w 13 9)) }
  else s

/-- Where the scale pairs of an E2M1X operand of some bytes stand: offset and bytes (R241, R244, R245). -/
def scalePlace (f len : Nat) : Nat × Nat := if f ≠ 4 then (len, 0) else if len = 18432 then (16384, 2048) else (8192, 1024)

/-- Read an operand range; the scale pairs are never served by reconstruction for a conflict (R242). -/
def State.readRange (s : State) (k : Nat) (x : Span) (f : Nat) : State × Option (List Byte) :=
  let p := scalePlace f x.len
  let part (lo n : Nat) : Span := { x with lo := x.lo + lo, len := n }
  let a := s.readSpan k (part 0 p.1)
  let b := if p.2 = 0 then (a.1, some []) else a.1.takeSpan k (part p.1 p.2) false
  let c := if x.len ≤ p.1 + p.2 then (b.1, some []) else b.1.readSpan k (part (p.1 + p.2) (x.len - p.1 - p.2))
  (c.1, match a.2, b.2, c.2 with
    | some u, some v, some w => some (u ++ v ++ w)
    | _, _, _ => none)

/-- An operand's bytes: of the read that it shares with other cores, or of its own. -/
def State.readOperand (s : State) (k : Nat) (x : Span) (f : Nat) (shared : Option MergedRead) : State × Option (List Byte) :=
  match shared with
  | some r => ((s.count k 3 r.recon).count k 4 r.stale, r.bytes)
  | none => s.readRange k x f

/-- An engine operation takes effect. -/
def State.runEngine (s : State) (c : Nat) (o : EngineOp) : State :=
  match s.skein? o.skein with
  | none => s
  | some sk =>
    let k := o.skein
    let ctx : FpCtx := { rm := 0, ftz := false, lvl2 := decide (sk.kern.level = 2) }
    match o.kind, o.reads with
    | 3, _ => s.putTile k o.tile Tile.zero
    | 6, _ => (s.checkTile k o.tile).2
    | 4, x :: _ =>
      (match s.readOperand k x 0 none with
        | (t, some bs) => t.putTile k o.tile (Tile.load bs)
        | (t, none) => t)
    | 5, _ =>
      (match s.checkTile k o.tile, o.writes with
        | (true, t), x :: _ =>
          (match t.skein? k with
            | none => t
            | some sk1 =>
              let tl := sk1.tile o.tile
              let d := tl.drain ctx o.af
              t.writeSpan x (d.1 ++ bytesOf 4 (tl.status.toNat + d.2.toNat * 65536) ++ bytesOf 4 tl.count ++
                List.replicate 8 0) sk.ctx)
        | (_, t), _ => t)
    | _, xa :: xb :: _ =>
      (match s.readOperand k xa o.af o.readA with
        | (t, none) => t
        | (t, some ab) =>
          (match t.readOperand k xb o.bf o.readB with
            | (u, none) => u
            | (u, some bb) => (u.putTile k o.tile ((sk.tile o.tile).mma ctx o.kind o.af o.bf ab bb)).inject c k o.tile))
    | _, _ => s

/-! ### Issue (R239, R240, R249, R250) -/

/-- IssueMtx: the checks, the waits for the scoreboard and the queue, and the operation's entry. DESIGN CHOICE (log 59): strands
that a key denial of an LDGA has taken out of the issue set leave it short of the weft's live strands, so that the others trap
MASK_PARTIAL. -/
def State.engineWord (s : State) (i : Instr) (kind : Nat) (t : BitVec 4) (regs : List VReg) (af bf : Nat) : Out :=
  s.word i (fun sk u =>
    let k := u.cur.skein
    let is := u.cur.strands
    let c := sk.core.getD 0
    if is.length ≠ (sk.liveOf u.cur.weft).length then (true, u.unalone.trapAll is 0x07 0)
    else match u.nonUniform k is (regs.map BitVec.toNat) with
    | some r => (true, u.unalone.trapAll is 0x08 (BitVec.ofNat 32 r))
    | none =>
      let lens : List Nat := if kind ≤ 2 then [(mtxBytes (kind == 2) af).1, (mtxBytes (kind == 2) bf).2]
        else if kind = 4 then [16384] else if kind = 5 then [drainBytes af] else []
      let spans := (regs.zip lens).map (fun e =>
        u.checkScratch sk (((u.uniform? k is e.1.toNat).getD 0).toNat : Int) e.2 256)
      match spans.findSome? (fun x => match x with
        | .error e => some e
        | .ok _ => none) with
      | some e => (true, u.unalone.trapAll is e.1 e.2)
      | none =>
        let at' := spans.filterMap (fun x => match x with
          | .ok y => some y
          | .error _ => none)
        let a := nth { core := c, lo := 0, len := 0 } at' 0
        let b := nth { core := c, lo := 0, len := 0 } at' 1
        if 4 ≤ ((u.core c).engine.filter (fun o => o.started.isNone)).length then (false, u.alone)
        else if at'.any (fun x => x.core == c && u.copyRange c x) then (false, u.unalone)
        else
          let win (j : Nat) : Bool := decide (2 ^ 31 ≤ ((u.uniform? k is (nth (0 : VReg) regs j).toNat).getD 0).toNat)
          let o : EngineOp := {
            skein := k, weft := u.cur.weft, kind := kind, tile := t.toNat, aCore := a.core, aAddr := a.lo,
            bCore := b.core, bAddr := b.lo, af := af, bf := bf, seq := u.seq, issued := u.clock, started := none,
            readA := none, readB := none, winA := win 0, winB := win 1 }
          let u1 := u.modCore c (fun x => { x with engine := x.engine ++ [o] })
          let u2 := if kind = 5 ∧ a.core = c then u1.killScratch c a.lo a.len else u1
          (true, u2.unalone.passBy))

/-- MMA (R246, R248). -/
def execMma (c : BitVec 1) (t : BitVec 4) (a : BitVec 6) (b : BitVec 6) (x : BitVec 3) (y : BitVec 3) (s : State) : Out :=
  s.engineWord (.mma c t a b x y) 0 t [a, b] x.toNat y.toNat
/-- MMAT: B stored transposed (R243). -/
def execMmat (c : BitVec 1) (t : BitVec 4) (a : BitVec 6) (b : BitVec 6) (x : BitVec 3) (y : BitVec 3) (s : State) : Out :=
  s.engineWord (.mmat c t a b x y) 1 t [a, b] x.toNat y.toNat
/-- MMAS: A compressed 2:4 (R245). -/
def execMmas (c : BitVec 1) (t : BitVec 4) (a : BitVec 6) (b : BitVec 6) (x : BitVec 3) (y : BitVec 3) (s : State) : Out :=
  s.engineWord (.mmas c t a b x y) 2 t [a, b] x.toNat y.toNat
/-- MZERO (R257). -/
def execMzero (c : BitVec 1) (t : BitVec 4) (s : State) : Out := s.engineWord (.mzero c t) 3 t [] 0 0
/-- MLOAD (R257). -/
def execMload (c : BitVec 1) (t : BitVec 4) (a : BitVec 6) (s : State) : Out := s.engineWord (.mload c t a) 4 t [a] 0 0
/-- MDRAIN (R257, R258). -/
def execMdrain (c : BitVec 1) (t : BitVec 4) (a : BitVec 6) (f : BitVec 3) (s : State) : Out :=
  s.engineWord (.mdrain c t a f) 5 t [a] f.toNat 0
/-- MCHK (R257). -/
def execMchk (c : BitVec 1) (t : BitVec 4) (s : State) : Out := s.engineWord (.mchk c t) 6 t [] 0 0

/-! ### The engine's events (R249, R251) -/

/-- The A and B reads of an MMA that go through the bolt window. -/
def EngineOp.peerReads (o : EngineOp) : List (Bool × Span) :=
  if o.kind ≤ 2 then (match o.reads with
    | [a, b] => (if o.winA then [(false, a)] else []) ++ (if o.winB then [(true, b)] else [])
    | _ => [])
  else []

/-- The read of an operand that an operation shares, if it does; and whether it has begun. -/
def EngineOp.shared (o : EngineOp) (isB : Bool) : Option MergedRead := if isB then o.readB else o.readA
def EngineOp.begun (o : EngineOp) (isB : Bool) : Bool := if isB then o.begunB else o.begunA
/-- When the first request of an operand's read came. -/
def EngineOp.first (o : EngineOp) (isB : Bool) : Nat := ((o.shared isB).map MergedRead.first).getD (o.started.getD 0)

/-- An operand range of a core's operation in progress is served by a shared read; the first sharing counts it in PMC_MERGE. -/
def State.share (s : State) (c : Nat) (isB : Bool) (r : MergedRead) : State :=
  match (s.core c).engine with
  | o :: rest =>
    let t := s.modCore c (fun x => { x with
      engine := (if isB then { o with readB := some r } else { o with readA := some r }) :: rest })
    if (o.shared isB).isSome then t else t.count o.skein 7 1
  | [] => s

/-- The operand reads of other cores' operations in progress that ask for the same peer range, that have not begun, and whose
first request came at most 64 cc ago: core, operand, when the first came (R251). -/
def State.sameReads (s : State) (c : Nat) (x : Span) : List (Nat × Bool × Nat) :=
  s.cores.flatMap (fun e => if e.1 = c then [] else match e.2.engine with
    | o :: _ =>
      if o.started.isNone then []
      else o.peerReads.filterMap (fun p =>
        if p.2 = x ∧ ¬ o.begun p.1 ∧ s.clock ≤ o.first p.1 + 64 then some (e.1, p.1, o.first p.1) else none)
    | [] => [])

/-- A peer's range is read from now on: requests for it that came first at a clock are joined by no other. -/
def State.beginReads (s : State) (x : Span) (first : Nat) : State :=
  { s with cores := s.cores.map (fun e => (e.1, { e.2 with engine := match e.2.engine with
    | o :: rest => (o.peerReads.filter (fun p => p.2 == x && o.first p.1 == first)).foldl (fun (q : EngineOp) p =>
        if p.1 then { q with begunB := true } else { q with begunA := true }) o :: rest
    | [] => [] })) }

/-- One read of a peer's range for several operations: it is performed now, at the last request it serves so far, and counts
alike for every skein (R165, R200, R251). -/
def State.sharedRead (s : State) (k : Nat) (x : Span) (f first : Nat) : State × MergedRead :=
  let pmc (t : State) (n : Nat) : Nat := (t.skein? k).elim 0 (fun sk => Cells.get 0 sk.pmc n)
  let o := s.readRange k x f
  let grown (n : Nat) : Nat := (pmc o.1 n + 4294967296 - pmc s n) % 4294967296
  (o.1.modSkein k (fun sk => { sk with pmc := ((s.skein? k).elim sk.pmc Skein.pmc) }),
   { first := first, bytes := o.2, recon := grown 3, stale := grown 4 })

/-- An operation that starts joins the equal peer reads that wait for the owning core. Whether that core has begun to read the
range before is free (R193, log 26); once it has, none joins. -/
def State.joinReads (s : State) (core : Nat) (o : EngineOp) (p : Bool × Span) : State :=
  match s.sameReads core p.2 with
  | [] => s
  | e :: more =>
    let b := s.freeBool
    if b.1 then b.2.beginReads p.2 e.2.2
    else
      let r := b.2.sharedRead o.skein p.2 (if p.1 then o.bf else o.af) e.2.2
      ((e :: more).foldl (fun u x => u.share x.1 x.2.1 r.2) r.1).share core p.1 r.2

/-- The meter of a multiply's format (R335). -/
def macMeter (f : Nat) : Nat := if f = 0 then 1 else if f = 1 then 2 else if f ≤ 3 then 3 else if f = 5 then 4 else if f = 6 then 5 else 6

/-- A multiply that starts its reads is metered: 64 × 64 × K, or half the logical K for MMAS (R335). -/
def State.meterMac (s : State) (o : EngineOp) : State :=
  match (s.skein? o.skein).bind (fun sk => s.ctx? sk.ctx) with
  | some c => if o.kind ≤ 2 then s.addMeter c.partition (macMeter o.af) (4096 * mtxK o.af) else s
  | none => s

/-- ENGINE_OP_START (R249, R251, R335): equal peer reads within 64 cc are served by one read. A rebuild of a group that it
reads holds it in place (R200). -/
def execEngineOpStart (core : Nat) (s : State) : Out :=
  match (s.core core).engine with
  | o :: rest =>
    if o.started.isSome ∨ o.reads.any (fun x => s.spanHeld x) then .next s
    else
      let s1 := (s.modCore core (fun x => { x with engine := { o with started := some s.clock } :: rest })).meterMac o
      .next (o.peerReads.foldl (fun t p => t.joinReads core o p) s1)
  | [] => .next s

/-- ENGINE_OP_DONE (R249): its banks not held by a rebuild, the operation takes effect and leaves the queue. A read that it shares
has begun by now (R251). -/
def execEngineOpDone (core : Nat) (s : State) : Out :=
  match (s.core core).engine with
  | o :: rest =>
    let own := (if o.readA.isSome then [] else o.reads.take 1) ++ (if o.readB.isSome then [] else o.reads.drop 1)
    if o.started.isNone ∨ (own ++ o.writes).any (fun x => s.spanHeld x) then .next s
    else .next ((o.peerReads.foldl (fun t p => t.beginReads p.2 (o.first p.1))
      (s.modCore core (fun x => { x with engine := rest }))).runEngine core o)
  | [] => .next s

end Sys2Proof.Machine
end

