-- ==== Sys2Proof/Machine/Wide.lean ====
section
/-! DEFINITION. Machine/Wide.lean: 64-bit and address arithmetic (R89, R90). -/

namespace Sys2Proof.Machine

/-! ### INT.W (R89) and ADD64I (R90) -/

/-- ADD64 (R89). -/
def execAdd64 (c : BitVec 1) (g : BitVec 3) (d : BitVec 6) (a : BitVec 6) (b : BitVec 6) (s : State) : Out :=
  s.lanes (.add64 c g d a b) (lanePPP s.cur.k g d a b (· + ·))

/-- SUB64 (R89). -/
def execSub64 (c : BitVec 1) (g : BitVec 3) (d : BitVec 6) (a : BitVec 6) (b : BitVec 6) (s : State) : Out :=
  s.lanes (.sub64 c g d a b) (lanePPP s.cur.k g d a b (· - ·))

/-- AND64 (R89). -/
def execAnd64 (c : BitVec 1) (g : BitVec 3) (d : BitVec 6) (a : BitVec 6) (b : BitVec 6) (s : State) : Out :=
  s.lanes (.and64 c g d a b) (lanePPP s.cur.k g d a b (· &&& ·))

/-- OR64 (R89). -/
def execOr64 (c : BitVec 1) (g : BitVec 3) (d : BitVec 6) (a : BitVec 6) (b : BitVec 6) (s : State) : Out :=
  s.lanes (.or64 c g d a b) (lanePPP s.cur.k g d a b (· ||| ·))

/-- XOR64 (R89). -/
def execXor64 (c : BitVec 1) (g : BitVec 3) (d : BitVec 6) (a : BitVec 6) (b : BitVec 6) (s : State) : Out :=
  s.lanes (.xor64 c g d a b) (lanePPP s.cur.k g d a b (· ^^^ ·))

/-- SHL64 (R89). -/
def execShl64 (c : BitVec 1) (g : BitVec 3) (d : BitVec 6) (a : BitVec 6) (b : BitVec 6) (s : State) : Out :=
  s.lanes (.shl64 c g d a b) (lanePPV s.cur.k g d a b wShl)

/-- SHR64 (R89). -/
def execShr64 (c : BitVec 1) (g : BitVec 3) (d : BitVec 6) (a : BitVec 6) (b : BitVec 6) (s : State) : Out :=
  s.lanes (.shr64 c g d a b) (lanePPV s.cur.k g d a b wShr)

/-- SAR64 (R89). -/
def execSar64 (c : BitVec 1) (g : BitVec 3) (d : BitVec 6) (a : BitVec 6) (b : BitVec 6) (s : State) : Out :=
  s.lanes (.sar64 c g d a b) (lanePPV s.cur.k g d a b wSar)

/-- ADDW (R89). -/
def execAddw (c : BitVec 1) (g : BitVec 3) (d : BitVec 6) (a : BitVec 6) (b : BitVec 6) (s : State) : Out :=
  s.lanes (.addw c g d a b) (lanePPV s.cur.k g d a b (wLea 1))

/-- ADDWS (R89). -/
def execAddws (c : BitVec 1) (g : BitVec 3) (d : BitVec 6) (a : BitVec 6) (b : BitVec 6) (s : State) : Out :=
  s.lanes (.addws c g d a b) (lanePPV s.cur.k g d a b wAddws)

/-- LEA2 (R89). -/
def execLea2 (c : BitVec 1) (g : BitVec 3) (d : BitVec 6) (a : BitVec 6) (b : BitVec 6) (s : State) : Out :=
  s.lanes (.lea2 c g d a b) (lanePPV s.cur.k g d a b (wLea 2))

/-- LEA4 (R89). -/
def execLea4 (c : BitVec 1) (g : BitVec 3) (d : BitVec 6) (a : BitVec 6) (b : BitVec 6) (s : State) : Out :=
  s.lanes (.lea4 c g d a b) (lanePPV s.cur.k g d a b (wLea 4))

/-- LEA8 (R89). -/
def execLea8 (c : BitVec 1) (g : BitVec 3) (d : BitVec 6) (a : BitVec 6) (b : BitVec 6) (s : State) : Out :=
  s.lanes (.lea8 c g d a b) (lanePPV s.cur.k g d a b (wLea 8))

/-- LEA16 (R89). -/
def execLea16 (c : BitVec 1) (g : BitVec 3) (d : BitVec 6) (a : BitVec 6) (b : BitVec 6) (s : State) : Out :=
  s.lanes (.lea16 c g d a b) (lanePPV s.cur.k g d a b (wLea 16))

/-- MULW (R89). -/
def execMulw (c : BitVec 1) (g : BitVec 3) (d : BitVec 6) (a : BitVec 6) (b : BitVec 6) (s : State) : Out :=
  s.lanes (.mulw c g d a b) (lanePVV s.cur.k g d a b wMul)

/-- MULWU (R89). -/
def execMulwu (c : BitVec 1) (g : BitVec 3) (d : BitVec 6) (a : BitVec 6) (b : BitVec 6) (s : State) : Out :=
  s.lanes (.mulwu c g d a b) (lanePVV s.cur.k g d a b wMulu)

/-- ADD64I (R90). -/
def execAdd64i (c : BitVec 1) (g : BitVec 3) (d : BitVec 6) (a : BitVec 6) (i : BitVec 10) (s : State) : Out :=
  s.lanes (.add64i c g d a i) (fun _ _ => guarded g (fun t => .ok (t.wp d.toNat (t.rp a.toNat + i.signExtend 64))))

end Sys2Proof.Machine
end

