-- ==== Sys2Proof/Machine/Dispatch.lean ====
section
/-! DEFINITION. Machine/Dispatch.lean: one arm per row of the opcode table. -/

namespace Sys2Proof.Machine

def exec (i : Instr) (s : State) : Host.Outcome State Fault Refusal :=
  match i with
  | .nop => Sys2Proof.Machine.execNop s
  | .add c g d a b => Sys2Proof.Machine.execAdd c g d a b s
  | .sub c g d a b => Sys2Proof.Machine.execSub c g d a b s
  | .mul c g d a b => Sys2Proof.Machine.execMul c g d a b s
  | .mulh c g d a b => Sys2Proof.Machine.execMulh c g d a b s
  | .mulhu c g d a b => Sys2Proof.Machine.execMulhu c g d a b s
  | .and c g d a b => Sys2Proof.Machine.execAnd c g d a b s
  | .or c g d a b => Sys2Proof.Machine.execOr c g d a b s
  | .xor c g d a b => Sys2Proof.Machine.execXor c g d a b s
  | .andn c g d a b => Sys2Proof.Machine.execAndn c g d a b s
  | .shl c g d a b => Sys2Proof.Machine.execShl c g d a b s
  | .shr c g d a b => Sys2Proof.Machine.execShr c g d a b s
  | .sar c g d a b => Sys2Proof.Machine.execSar c g d a b s
  | .min c g d a b => Sys2Proof.Machine.execMin c g d a b s
  | .max c g d a b => Sys2Proof.Machine.execMax c g d a b s
  | .minu c g d a b => Sys2Proof.Machine.execMinu c g d a b s
  | .maxu c g d a b => Sys2Proof.Machine.execMaxu c g d a b s
  | .addsat c g d a b => Sys2Proof.Machine.execAddsat c g d a b s
  | .subsat c g d a b => Sys2Proof.Machine.execSubsat c g d a b s
  | .addsatu c g d a b => Sys2Proof.Machine.execAddsatu c g d a b s
  | .subsatu c g d a b => Sys2Proof.Machine.execSubsatu c g d a b s
  | .div c g d a b => Sys2Proof.Machine.execDiv c g d a b s
  | .divu c g d a b => Sys2Proof.Machine.execDivu c g d a b s
  | .rem c g d a b => Sys2Proof.Machine.execRem c g d a b s
  | .remu c g d a b => Sys2Proof.Machine.execRemu c g d a b s
  | .popc c g d a => Sys2Proof.Machine.execPopc c g d a s
  | .clz c g d a => Sys2Proof.Machine.execClz c g d a s
  | .ctz c g d a => Sys2Proof.Machine.execCtz c g d a s
  | .brev c g d a => Sys2Proof.Machine.execBrev c g d a s
  | .abs c g d a => Sys2Proof.Machine.execAbs c g d a s
  | .neg c g d a => Sys2Proof.Machine.execNeg c g d a s
  | .absdiff c g d a b => Sys2Proof.Machine.execAbsdiff c g d a b s
  | .add64 c g d a b => Sys2Proof.Machine.execAdd64 c g d a b s
  | .sub64 c g d a b => Sys2Proof.Machine.execSub64 c g d a b s
  | .shl64 c g d a b => Sys2Proof.Machine.execShl64 c g d a b s
  | .shr64 c g d a b => Sys2Proof.Machine.execShr64 c g d a b s
  | .sar64 c g d a b => Sys2Proof.Machine.execSar64 c g d a b s
  | .mulw c g d a b => Sys2Proof.Machine.execMulw c g d a b s
  | .mulwu c g d a b => Sys2Proof.Machine.execMulwu c g d a b s
  | .and64 c g d a b => Sys2Proof.Machine.execAnd64 c g d a b s
  | .or64 c g d a b => Sys2Proof.Machine.execOr64 c g d a b s
  | .xor64 c g d a b => Sys2Proof.Machine.execXor64 c g d a b s
  | .addw c g d a b => Sys2Proof.Machine.execAddw c g d a b s
  | .addws c g d a b => Sys2Proof.Machine.execAddws c g d a b s
  | .lea2 c g d a b => Sys2Proof.Machine.execLea2 c g d a b s
  | .lea4 c g d a b => Sys2Proof.Machine.execLea4 c g d a b s
  | .lea8 c g d a b => Sys2Proof.Machine.execLea8 c g d a b s
  | .lea16 c g d a b => Sys2Proof.Machine.execLea16 c g d a b s
  | .addi c g d a x4 => Sys2Proof.Machine.execAddi c g d a x4 s
  | .andi c g d a x4 => Sys2Proof.Machine.execAndi c g d a x4 s
  | .ori c g d a x4 => Sys2Proof.Machine.execOri c g d a x4 s
  | .xori c g d a x4 => Sys2Proof.Machine.execXori c g d a x4 s
  | .shli c g d a n => Sys2Proof.Machine.execShli c g d a n s
  | .shri c g d a n => Sys2Proof.Machine.execShri c g d a n s
  | .sari c g d a n => Sys2Proof.Machine.execSari c g d a n s
  | .roli c g d a n => Sys2Proof.Machine.execRoli c g d a n s
  | .movi c g d x3 => Sys2Proof.Machine.execMovi c g d x3 s
  | .movhi c g d x3 => Sys2Proof.Machine.execMovhi c g d x3 s
  | .add64i c g d a x4 => Sys2Proof.Machine.execAdd64i c g d a x4 s
  | .icmp c g p k a b f => Sys2Proof.Machine.execIcmp c g p k a b f s
  | .fcmp c g p k a b q f => Sys2Proof.Machine.execFcmp c g p k a b q f s
  | .sel c x1 d a b => Sys2Proof.Machine.execSel c x1 d a b s
  | .pand c g d a b => Sys2Proof.Machine.execPand c g d a b s
  | .por c g d a b => Sys2Proof.Machine.execPor c g d a b s
  | .pxor c g d a b => Sys2Proof.Machine.execPxor c g d a b s
  | .pandn c g d a b => Sys2Proof.Machine.execPandn c g d a b s
  | .pnot c g d a => Sys2Proof.Machine.execPnot c g d a s
  | .pmov c g d a => Sys2Proof.Machine.execPmov c g d a s
  | .ptov c g d a => Sys2Proof.Machine.execPtov c g d a s
  | .vtop c g d a => Sys2Proof.Machine.execVtop c g d a s
  | .fadd c g d a b q => Sys2Proof.Machine.execFadd c g d a b q s
  | .fsub c g d a b q => Sys2Proof.Machine.execFsub c g d a b q s
  | .fmul c g d a b q => Sys2Proof.Machine.execFmul c g d a b q s
  | .fdiv c g d a b q => Sys2Proof.Machine.execFdiv c g d a b q s
  | .fmin c g d a b q => Sys2Proof.Machine.execFmin c g d a b q s
  | .fmax c g d a b q => Sys2Proof.Machine.execFmax c g d a b q s
  | .fcopysign c g d a b q => Sys2Proof.Machine.execFcopysign c g d a b q s
  | .fscale c g d a b q => Sys2Proof.Machine.execFscale c g d a b q s
  | .fma c g d a b q => Sys2Proof.Machine.execFma c g d a b q s
  | .fms c g d a b q => Sys2Proof.Machine.execFms c g d a b q s
  | .fnma c g d a b q => Sys2Proof.Machine.execFnma c g d a b q s
  | .fnms c g d a b q => Sys2Proof.Machine.execFnms c g d a b q s
  | .rcp c g d a q => Sys2Proof.Machine.execRcp c g d a q s
  | .rsq c g d a q => Sys2Proof.Machine.execRsq c g d a q s
  | .sqrt c g d a q => Sys2Proof.Machine.execSqrt c g d a q s
  | .exp2 c g d a q => Sys2Proof.Machine.execExp2 c g d a q s
  | .log2 c g d a q => Sys2Proof.Machine.execLog2 c g d a q s
  | .sinpi c g d a q => Sys2Proof.Machine.execSinpi c g d a q s
  | .cospi c g d a q => Sys2Proof.Machine.execCospi c g d a q s
  | .tanh c g d a q => Sys2Proof.Machine.execTanh c g d a q s
  | .hadd c g d a b q t => Sys2Proof.Machine.execHadd c g d a b q t s
  | .hsub c g d a b q t => Sys2Proof.Machine.execHsub c g d a b q t s
  | .hmul c g d a b q t => Sys2Proof.Machine.execHmul c g d a b q t s
  | .hfma c g d a b q t => Sys2Proof.Machine.execHfma c g d a b q t s
  | .ftoi c g d a => Sys2Proof.Machine.execFtoi c g d a s
  | .ftoiz c g d a => Sys2Proof.Machine.execFtoiz c g d a s
  | .ftou c g d a => Sys2Proof.Machine.execFtou c g d a s
  | .itof c g d a => Sys2Proof.Machine.execItof c g d a s
  | .utof c g d a => Sys2Proof.Machine.execUtof c g d a s
  | .pkh c g d a b => Sys2Proof.Machine.execPkh c g d a b s
  | .pkb c g d a b => Sys2Proof.Machine.execPkb c g d a b s
  | .xthl c g d a => Sys2Proof.Machine.execXthl c g d a s
  | .xthh c g d a => Sys2Proof.Machine.execXthh c g d a s
  | .xtbl c g d a => Sys2Proof.Machine.execXtbl c g d a s
  | .xtbh c g d a => Sys2Proof.Machine.execXtbh c g d a s
  | .frnd c g d a => Sys2Proof.Machine.execFrnd c g d a s
  | .frndz c g d a => Sys2Proof.Machine.execFrndz c g d a s
  | .pk8 c g d a k e x6 => Sys2Proof.Machine.execPk8 c g d a k e x6 s
  | .xt8 c g d a k e => Sys2Proof.Machine.execXt8 c g d a k e s
  | .pk4 c g d a k x5 => Sys2Proof.Machine.execPk4 c g d a k x5 s
  | .xt4 c g d a k => Sys2Proof.Machine.execXt4 c g d a k s
  | .mov c g d a => Sys2Proof.Machine.execMov c g d a s
  | .rdx c g d n o => Sys2Proof.Machine.execRdx c g d n o s
  | .wrx c g d n o => Sys2Proof.Machine.execWrx c g d n o s
  | .nset c g n a => Sys2Proof.Machine.execNset c g n a s
  | .nget c g d n => Sys2Proof.Machine.execNget c g d n s
  | .nadv c g n a => Sys2Proof.Machine.execNadv c g n a s
  | .nclr c g n => Sys2Proof.Machine.execNclr c g n s
  | .shfl c g d a b y => Sys2Proof.Machine.execShfl c g d a b y s
  | .shflx c g d a b y => Sys2Proof.Machine.execShflx c g d a b y s
  | .shflu c g d a b y => Sys2Proof.Machine.execShflu c g d a b y s
  | .shfld c g d a b y => Sys2Proof.Machine.execShfld c g d a b y s
  | .bcast c g d a b y => Sys2Proof.Machine.execBcast c g d a b y s
  | .vote c g p m a y => Sys2Proof.Machine.execVote c g p m a y s
  | .count c g d a y => Sys2Proof.Machine.execCount c g d a y s
  | .rank c g d a y => Sys2Proof.Machine.execRank c g d a y s
  | .rediIadd c g d a y => Sys2Proof.Machine.execRediIadd c g d a y s
  | .rediImin c g d a y => Sys2Proof.Machine.execRediImin c g d a y s
  | .rediImax c g d a y => Sys2Proof.Machine.execRediImax c g d a y s
  | .rediUmin c g d a y => Sys2Proof.Machine.execRediUmin c g d a y s
  | .rediUmax c g d a y => Sys2Proof.Machine.execRediUmax c g d a y s
  | .rediAnd c g d a y => Sys2Proof.Machine.execRediAnd c g d a y s
  | .rediOr c g d a y => Sys2Proof.Machine.execRediOr c g d a y s
  | .rediXor c g d a y => Sys2Proof.Machine.execRediXor c g d a y s
  | .redfFaddt c g d a y => Sys2Proof.Machine.execRedfFaddt c g d a y s
  | .redfFadds c g d a y => Sys2Proof.Machine.execRedfFadds c g d a y s
  | .redfFmin c g d a y => Sys2Proof.Machine.execRedfFmin c g d a y s
  | .redfFmax c g d a y => Sys2Proof.Machine.execRedfFmax c g d a y s
  | .redfScani c g d a y => Sys2Proof.Machine.execRedfScani c g d a y s
  | .redfScanf c g d a y => Sys2Proof.Machine.execRedfScanf c g d a y s
  | .redfScanx c g d a y => Sys2Proof.Machine.execRedfScanx c g d a y s
  | .setw c n x l => Sys2Proof.Machine.execSetw c n x l s
  | .slice c => Sys2Proof.Machine.execSlice c s
  | .wsync c g => Sys2Proof.Machine.execWsync c g s
  | .br g d => Sys2Proof.Machine.execBr g d s
  | .call g d => Sys2Proof.Machine.execCall g d s
  | .split g d => Sys2Proof.Machine.execSplit g d s
  | .join g => Sys2Proof.Machine.execJoin g s
  | .ret g => Sys2Proof.Machine.execRet g s
  | .exit g => Sys2Proof.Machine.execExit g s
  | .brx g a => Sys2Proof.Machine.execBrx g a s
  | .callx g a => Sys2Proof.Machine.execCallx g a s
  | .tret g => Sys2Proof.Machine.execTret g s
  | .tretr g => Sys2Proof.Machine.execTretr g s
  | .yield g => Sys2Proof.Machine.execYield g s
  | .breakp g => Sys2Proof.Machine.execBreakp g s
  | .trap g t => Sys2Proof.Machine.execTrap g t s
  | .waitt g a => Sys2Proof.Machine.execWaitt g a s
  | .watch c g d a b f => Sys2Proof.Machine.execWatch c g d a b f s
  | .barSync c l x2 e n => Sys2Proof.Machine.execBarSync c l x2 e n s
  | .barArrive c l x2 e n => Sys2Proof.Machine.execBarArrive c l x2 e n s
  | .barWait c l x2 e n => Sys2Proof.Machine.execBarWait c l x2 e n s
  | .trigger c g => Sys2Proof.Machine.execTrigger c g s
  | .launch c g d a => Sys2Proof.Machine.execLaunch c g d a s
  | .launchb c g d a => Sys2Proof.Machine.execLaunchb c g d a s
  | .ldg c g d a o z v p => Sys2Proof.Machine.execLdg c g d a o z v p s
  | .stg c g d a o z v p => Sys2Proof.Machine.execStg c g d a o z v p s
  | .lds c g d a o z v p => Sys2Proof.Machine.execLds c g d a o z v p s
  | .sts c g d a o z v p => Sys2Proof.Machine.execSts c g d a o z v p s
  | .atgAdd c g d a b => Sys2Proof.Machine.execAtgAdd c g d a b s
  | .atgMin c g d a b => Sys2Proof.Machine.execAtgMin c g d a b s
  | .atgMax c g d a b => Sys2Proof.Machine.execAtgMax c g d a b s
  | .atgMinu c g d a b => Sys2Proof.Machine.execAtgMinu c g d a b s
  | .atgMaxu c g d a b => Sys2Proof.Machine.execAtgMaxu c g d a b s
  | .atgAnd c g d a b => Sys2Proof.Machine.execAtgAnd c g d a b s
  | .atgOr c g d a b => Sys2Proof.Machine.execAtgOr c g d a b s
  | .atgXor c g d a b => Sys2Proof.Machine.execAtgXor c g d a b s
  | .atgXchg c g d a b => Sys2Proof.Machine.execAtgXchg c g d a b s
  | .atgCas c g d a b => Sys2Proof.Machine.execAtgCas c g d a b s
  | .atgFadd c g d a b => Sys2Proof.Machine.execAtgFadd c g d a b s
  | .atgFmin c g d a b => Sys2Proof.Machine.execAtgFmin c g d a b s
  | .atgFmax c g d a b => Sys2Proof.Machine.execAtgFmax c g d a b s
  | .atgHadd2 c g d a b => Sys2Proof.Machine.execAtgHadd2 c g d a b s
  | .atgIncw c g d a b => Sys2Proof.Machine.execAtgIncw c g d a b s
  | .atg64Add c g d a b => Sys2Proof.Machine.execAtg64Add c g d a b s
  | .atg64Minu c g d a b => Sys2Proof.Machine.execAtg64Minu c g d a b s
  | .atg64Maxu c g d a b => Sys2Proof.Machine.execAtg64Maxu c g d a b s
  | .atg64And c g d a b => Sys2Proof.Machine.execAtg64And c g d a b s
  | .atg64Or c g d a b => Sys2Proof.Machine.execAtg64Or c g d a b s
  | .atg64Xor c g d a b => Sys2Proof.Machine.execAtg64Xor c g d a b s
  | .atg64Xchg c g d a b => Sys2Proof.Machine.execAtg64Xchg c g d a b s
  | .atg64Cas c g d a b => Sys2Proof.Machine.execAtg64Cas c g d a b s
  | .atsAdd c g d a b => Sys2Proof.Machine.execAtsAdd c g d a b s
  | .atsMin c g d a b => Sys2Proof.Machine.execAtsMin c g d a b s
  | .atsMax c g d a b => Sys2Proof.Machine.execAtsMax c g d a b s
  | .atsMinu c g d a b => Sys2Proof.Machine.execAtsMinu c g d a b s
  | .atsMaxu c g d a b => Sys2Proof.Machine.execAtsMaxu c g d a b s
  | .atsAnd c g d a b => Sys2Proof.Machine.execAtsAnd c g d a b s
  | .atsOr c g d a b => Sys2Proof.Machine.execAtsOr c g d a b s
  | .atsXor c g d a b => Sys2Proof.Machine.execAtsXor c g d a b s
  | .atsXchg c g d a b => Sys2Proof.Machine.execAtsXchg c g d a b s
  | .atsCas c g d a b => Sys2Proof.Machine.execAtsCas c g d a b s
  | .atsFadd c g d a b => Sys2Proof.Machine.execAtsFadd c g d a b s
  | .atsFmin c g d a b => Sys2Proof.Machine.execAtsFmin c g d a b s
  | .atsFmax c g d a b => Sys2Proof.Machine.execAtsFmax c g d a b s
  | .fenceRel c g x2 => Sys2Proof.Machine.execFenceRel c g x2 s
  | .fenceAcq c g x2 => Sys2Proof.Machine.execFenceAcq c g x2 s
  | .fencePhase c g x2 => Sys2Proof.Machine.execFencePhase c g x2 s
  | .fenceDrain c g => Sys2Proof.Machine.execFenceDrain c g s
  | .ldga c g d a o z p => Sys2Proof.Machine.execLdga c g d a o z p s
  | .prefL1 c g a o z => Sys2Proof.Machine.execPrefL1 c g a o z s
  | .prefL2 c g a o z => Sys2Proof.Machine.execPrefL2 c g a o z s
  | .cpyG2s c g a t => Sys2Proof.Machine.execCpyG2s c g a t s
  | .cpyS2g c g a t => Sys2Proof.Machine.execCpyS2g c g a t s
  | .cpyS2s c g a t => Sys2Proof.Machine.execCpyS2s c g a t s
  | .cpyG2g c g a t => Sys2Proof.Machine.execCpyG2g c g a t s
  | .cpyS2sm c g a t => Sys2Proof.Machine.execCpyS2sm c g a t s
  | .cwait c g t => Sys2Proof.Machine.execCwait c g t s
  | .cwaitAll c g => Sys2Proof.Machine.execCwaitAll c g s
  | .cwaitQuery c g d t => Sys2Proof.Machine.execCwaitQuery c g d t s
  | .shopen c g d a => Sys2Proof.Machine.execShopen c g d a s
  | .shpub c g a => Sys2Proof.Machine.execShpub c g a s
  | .shabort c g a => Sys2Proof.Machine.execShabort c g a s
  | .shstat c g d a => Sys2Proof.Machine.execShstat c g d a s
  | .raddF32 c g a b => Sys2Proof.Machine.execRaddF32 c g a b s
  | .raddBf16x2 c g a b => Sys2Proof.Machine.execRaddBf16x2 c g a b s
  | .raddI32 c g a b => Sys2Proof.Machine.execRaddI32 c g a b s
  | .rmaxF32 c g a b => Sys2Proof.Machine.execRmaxF32 c g a b s
  | .mst c g a b => Sys2Proof.Machine.execMst c g a b s
  | .mma c t a b x y => Sys2Proof.Machine.execMma c t a b x y s
  | .mmat c t a b x y => Sys2Proof.Machine.execMmat c t a b x y s
  | .mmas c t a b x y => Sys2Proof.Machine.execMmas c t a b x y s
  | .mzero c t => Sys2Proof.Machine.execMzero c t s
  | .mload c t a => Sys2Proof.Machine.execMload c t a s
  | .mdrain c t a f => Sys2Proof.Machine.execMdrain c t a f s
  | .mchk c t => Sys2Proof.Machine.execMchk c t s
  | .mfs c g d n => Sys2Proof.Machine.execMfs c g d n s
  | .mts c g a n => Sys2Proof.Machine.execMts c g a n s
  | .spstat c g d => Sys2Proof.Machine.execSpstat c g d s
  | .spscrub c g => Sys2Proof.Machine.execSpscrub c g s
  | .spretire c g a => Sys2Proof.Machine.execSpretire c g a s
  | .activeSetEntry skein weft => Sys2Proof.Machine.execActiveSetEntry skein weft s
  | .activeSetTimeout skein weft => Sys2Proof.Machine.execActiveSetTimeout skein weft s
  | .pathwaitTimeout skein weft pc => Sys2Proof.Machine.execPathwaitTimeout skein weft pc s
  | .joinTimeout skein weft target => Sys2Proof.Machine.execJoinTimeout skein weft target s
  | .sliceTimeout skein weft => Sys2Proof.Machine.execSliceTimeout skein weft s
  | .waittDeadline skein strand => Sys2Proof.Machine.execWaittDeadline skein strand s
  | .loadReply req moment ans => Sys2Proof.Machine.execLoadReply req moment ans s
  | .atomicReply req ans => Sys2Proof.Machine.execAtomicReply req ans s
  | .ldgaWrite req moment ans => Sys2Proof.Machine.execLdgaWrite req moment ans s
  | .storeAck req ans => Sys2Proof.Machine.execStoreAck req ans s
  | .rstAck req ans => Sys2Proof.Machine.execRstAck req ans s
  | .wcAgeExpiry core line => Sys2Proof.Machine.execWcAgeExpiry core line s
  | .wakePacket core entry ans => Sys2Proof.Machine.execWakePacket core entry ans s
  | .watchTimeout core entry ans => Sys2Proof.Machine.execWatchTimeout core entry ans s
  | .copyChunk copy ans => Sys2Proof.Machine.execCopyChunk copy ans s
  | .copyRetire copy => Sys2Proof.Machine.execCopyRetire copy s
  | .copyNack copy done ans => Sys2Proof.Machine.execCopyNack copy done ans s
  | .copyViolation copy ans => Sys2Proof.Machine.execCopyViolation copy ans s
  | .engineOpStart core => Sys2Proof.Machine.execEngineOpStart core s
  | .engineOpDone core => Sys2Proof.Machine.execEngineOpDone core s
  | .parityApply core group => Sys2Proof.Machine.execParityApply core group s
  | .rebuildComplete core group => Sys2Proof.Machine.execRebuildComplete core group s
  | .scrubPass core found sel => Sys2Proof.Machine.execScrubPass core found sel s
  | .spscrubComplete skein weft => Sys2Proof.Machine.execSpscrubComplete skein weft s
  | .bindRecordWrite core slot words => Sys2Proof.Machine.execBindRecordWrite core slot words s
  | .boltStart cluster ctx lslot bolt => Sys2Proof.Machine.execBoltStart cluster ctx lslot bolt s
  | .skeinEnd skein => Sys2Proof.Machine.execSkeinEnd skein s
  | .haltComplete part => Sys2Proof.Machine.execHaltComplete part s
  | .abandonTimeout part => Sys2Proof.Machine.execAbandonTimeout part s
  | .contextSaveComplete ctx => Sys2Proof.Machine.execContextSaveComplete ctx s
  | .imageSpillStart ctx => Sys2Proof.Machine.execImageSpillStart ctx s
  | .spillComplete ctx => Sys2Proof.Machine.execSpillComplete ctx s
  | .restoreComplete ctx => Sys2Proof.Machine.execRestoreComplete ctx s
  | .watchdog bolt => Sys2Proof.Machine.execWatchdog bolt s
  | .homeRequest what => Sys2Proof.Machine.execHomeRequest what s
  | .faultRecordDelivery record => Sys2Proof.Machine.execFaultRecordDelivery record s
  | .moveComplete domain granule => Sys2Proof.Machine.execMoveComplete domain granule s
  | .recodingComplete domain granule => Sys2Proof.Machine.execRecodingComplete domain granule s
  | .filterInvalidation cluster domain granule => Sys2Proof.Machine.execFilterInvalidation cluster domain granule s
  | .filterAck cluster domain granule => Sys2Proof.Machine.execFilterAck cluster domain granule s
  | .shadowOpenRequest op home => Sys2Proof.Machine.execShadowOpenRequest op home s
  | .shadowWrite req => Sys2Proof.Machine.execShadowWrite req s
  | .shpubArrival op => Sys2Proof.Machine.execShpubArrival op s
  | .publishPrepare ctx slot home => Sys2Proof.Machine.execPublishPrepare ctx slot home s
  | .publishCommit ctx slot => Sys2Proof.Machine.execPublishCommit ctx slot s
  | .publishAbort ctx slot => Sys2Proof.Machine.execPublishAbort ctx slot s
  | .replicaTimeout ctx slot => Sys2Proof.Machine.execReplicaTimeout ctx slot s
  | .poolExtentWithdrawal id base frame count => Sys2Proof.Machine.execPoolExtentWithdrawal id base frame count s
  | .poolInflightTimeout id => Sys2Proof.Machine.execPoolInflightTimeout id s
  | .backInvalidate domain line => Sys2Proof.Machine.execBackInvalidate domain line s
  | .readyToken ctx sgen module => Sys2Proof.Machine.execReadyToken ctx sgen module s
  | .startToken ctx sgen => Sys2Proof.Machine.execStartToken ctx sgen s
  | .doorbell queue value => Sys2Proof.Machine.execDoorbell queue value s
  | .qreset queue value => Sys2Proof.Machine.execQreset queue value s
  | .launchCmd queue => Sys2Proof.Machine.execLaunchCmd queue s
  | .evset queue => Sys2Proof.Machine.execEvset queue s
  | .evclear queue => Sys2Proof.Machine.execEvclear queue s
  | .evread queue => Sys2Proof.Machine.execEvread queue s
  | .cancel queue => Sys2Proof.Machine.execCancel queue s
  | .build queue => Sys2Proof.Machine.execBuild queue s
  | .contextBuilt ctx => Sys2Proof.Machine.execContextBuilt ctx s
  | .destroy queue => Sys2Proof.Machine.execDestroy queue s
  | .setkeys queue => Sys2Proof.Machine.execSetkeys queue s
  | .setroot queue => Sys2Proof.Machine.execSetroot queue s
  | .ringset queue => Sys2Proof.Machine.execRingset queue s
  | .qopen queue => Sys2Proof.Machine.execQopen queue s
  | .qclose queue => Sys2Proof.Machine.execQclose queue s
  | .replay queue id => Sys2Proof.Machine.execReplay queue id s
  | .tinval queue => Sys2Proof.Machine.execTinval queue s
  | .protect queue => Sys2Proof.Machine.execProtect queue s
  | .attest queue nonce => Sys2Proof.Machine.execAttest queue nonce s
  | .rspool queue => Sys2Proof.Machine.execRspool queue s
  | .carve auth args => Sys2Proof.Machine.execCarve auth args s
  | .uncarve auth part => Sys2Proof.Machine.execUncarve auth part s
  | .partset auth part settings grant withdraw => Sys2Proof.Machine.execPartset auth part settings grant withdraw s
  | .preempt src part ctx => Sys2Proof.Machine.execPreempt src part ctx s
  | .restore src ctx => Sys2Proof.Machine.execRestore src ctx s
  | .migrate domain granule frame => Sys2Proof.Machine.execMigrate domain granule frame s
  | .tiermove domain granule tier frame => Sys2Proof.Machine.execTiermove domain granule tier frame s
  | .compress domain granule => Sys2Proof.Machine.execCompress domain granule s
  | .expand domain granule => Sys2Proof.Machine.execExpand domain granule s
  | .extentGrant extent owner shared => Sys2Proof.Machine.execExtentGrant extent owner shared s
  | .extentWithdraw extent => Sys2Proof.Machine.execExtentWithdraw extent s
  | .genbump domain => Sys2Proof.Machine.execGenbump domain s
  | .meterIntervalEnd part => Sys2Proof.Machine.execMeterIntervalEnd part s
  | .tokenArrival channel station => Sys2Proof.Machine.execTokenArrival channel station s
  | .flitReceive channel station flips fixed => Sys2Proof.Machine.execFlitReceive channel station flips fixed s
  | .flitReplayTimeout channel station => Sys2Proof.Machine.execFlitReplayTimeout channel station s
  | .rotationStep channel station => Sys2Proof.Machine.execRotationStep channel station s
  | .retrainDone channel station wave fixed => Sys2Proof.Machine.execRetrainDone channel station wave fixed s
  | .shadowCalibrationDone channel station => Sys2Proof.Machine.execShadowCalibrationDone channel station s
  | .loomLossOfLight source delay => Sys2Proof.Machine.execLoomLossOfLight source delay s
  | .portTraining port offer ok => Sys2Proof.Machine.execPortTraining port offer ok s
  | .portDown port => Sys2Proof.Machine.execPortDown port s
  | .portUp port => Sys2Proof.Machine.execPortUp port s
  | .fabricResponseTimeout port => Sys2Proof.Machine.execFabricResponseTimeout port s
  | .hostMmioViolation host access => Sys2Proof.Machine.execHostMmioViolation host access s
  | .capcfgWrite quad unit value => Sys2Proof.Machine.execCapcfgWrite quad unit value s
  | .registerWrite reg value => Sys2Proof.Machine.execRegisterWrite reg value s
  | .powerOverLimit draw => Sys2Proof.Machine.execPowerOverLimit draw s
  | .readring => Sys2Proof.Machine.execReadring s
  | .pwrcap auth write => Sys2Proof.Machine.execPwrcap auth write s
  | .reset auth => Sys2Proof.Machine.execReset auth s
  | .setopkey auth key => Sys2Proof.Machine.execSetopkey auth key s
  | .resetRelease boot => Sys2Proof.Machine.execResetRelease boot s
  | .partitionReady part => Sys2Proof.Machine.execPartitionReady part s
  | .shdReply op => Sys2Proof.Machine.execShdReply op s
  | .instructionFetchReply fetch => Sys2Proof.Machine.execInstructionFetchReply fetch s
  | .captureSample quad unit => Sys2Proof.Machine.execCaptureSample quad unit s
  | .fabricLaneWeak port report => Sys2Proof.Machine.execFabricLaneWeak port report s
  | .fabricLaneLost port lane => Sys2Proof.Machine.execFabricLaneLost port lane s
  | .keyTableUpdateApplied ctx core => Sys2Proof.Machine.execKeyTableUpdateApplied ctx core s
  | .walkComplete what => Sys2Proof.Machine.execWalkComplete what s

end Sys2Proof.Machine
end

