-- ==== Sys2Proof/Machine/Outside.lean ====
section
/-! DEFINITION. Machine/Outside.lean: what comes to the machine from outside the instructions and events of the opcode table:
errors that strike its stores (R198, R259, R294, R367 to R370), the pool's extents (R366), what the secure manager writes by itself (R287, R289, R294),
and what other modules ask (R285, R362). A turn of the schedule brings it (log 66). -/

namespace Sys2Proof.Machine

/-! ### Errors (R198, R259, R294, R367, R369) -/

/-- An error that strikes a scratch or selvage word stands until an access or a scrub meets it (R198). -/
def State.scratchError (s : State) (core word damage : Nat) : State :=
  if core < 768 ∧ word < 24576 ∧ damage ≤ 3 then
    s.modScratch core (fun sc => { sc with eccData := Cells.set 0 sc.eccData word damage })
  else s
def State.selvageError (s : State) (core ix damage : Nat) : State :=
  if core < 768 ∧ ix < 6144 ∧ damage ≤ 3 then
    s.modScratch core (fun sc => { sc with eccSel := Cells.set 0 sc.eccSel ix damage })
  else s

/-- A tile's element that can no longer be corrected is flagged (R259). DESIGN CHOICE (log 42): its bits read as they stood. -/
def State.tileError (s : State) (skein tile elem : Nat) : State :=
  match s.skein? skein with
  | none => s
  | some sk =>
    if tile < sk.kern.tiles ∧ elem < 4096 then
      let t := sk.tile tile
      s.putTile skein tile { t with flags := Cells.set false t.flags elem true }
    else s

/-- A register's word can no longer be corrected (R367). -/
def State.registerError (s : State) (skein strand reg : Nat) : State :=
  if reg < 63 then s.modStrand skein strand (fun t => { t with bad := Cells.set false t.bad reg true }) else s

/-- A line of memory is marked poisoned (R367, R369). -/
def State.lineError (s : State) (frame line : Nat) : State :=
  if line < 64 then s.modHomes (fun h => h.poisonLine (frame * 16384 + line * 256)) else s

/-- A line of the L2 is marked poisoned; its loss is charged when it is written back (R367, R370). -/
def State.l2Error (s : State) (domain line : Nat) : State :=
  match l2Find s.homes domain (line * 256) with
  | none => s
  | some l => s.modHomes (fun h =>
      let h1 : Homes := { h with l2 := h.l2.map (fun x => if x = l then { x with bad := true } else x) }
      (Tab.get h.stage2 (s2Key domain l.attr.dfn)).elim h1 (fun s2 => h1.poisonLine (physAddr s2.frame (line * 256))))

/-- An entry of a translation cache is beyond correction. -/
def State.attrError (s : State) (key : Nat) : State :=
  s.modHomes (fun h => { h with attrs := Tab.upd h.attrs key (fun c => { c with bad := true }) })
/-- An installed entry of a watch table is beyond correction: what it answers is poisoned. DESIGN CHOICE (log 75). -/
def State.watchError (s : State) (core entry : Nat) : State :=
  match Tab.get (s.core core).watches entry with
  | none => s
  | some w => if w.stage = 2 ∧ s.isLocal w.va then s.answerWatch core entry w 7 0 0 else s

/-- Data in a hand-over goes on marked poisoned (R368): a store's to its line, a reply's to its core, where it draws POISON. -/
def State.sentError (s : State) (req : Nat) : State :=
  match s.req? req with
  | none => s
  | some r =>
    if r.kind.access.writes ∧ r.pendingAtHome then s.modReq req (fun x => { x with bad := true })
    else match r.stage with
      | .replied 0 hi => if r.kind.access.reads ∧ ¬ (r.kind = .atomic ∧ r.reg = 63) then
          s.modReq req (fun x => { x with stage := .replied 7 hi }) else s
      | _ => s
/-- So does the data of a copy's next chunk. -/
def State.copyError (s : State) (copy : Nat) : State :=
  { s with copies := Tab.upd s.copies copy (fun c => { c with bad := true }) }

/-- A granule's frame holds lost data: its POISON bit is set (R294). -/
def State.frameError (s : State) (domain dfn : Nat) : State :=
  match Tab.get s.homes.stage2 (s2Key domain dfn) with
  | none => s
  | some e =>
    let base := e.frame * 16384
    s.modHomes (fun h => ({ h with
      rewritten := h.rewritten.filter (fun x => decide (x.1 < base ∨ base + 16384 ≤ x.1)) } : Homes).putStage2 domain dfn
        (some { e with poison := true }))

/-! ### What the secure manager writes (R287, R289, R294, R300, R323) -/

/-- A stage-2 entry is made present: an ABSENT granule is MAPPED. Its frame is free and of the home of its slot. -/
def State.mapFrame (s : State) (domain dfn : Nat) (e : Stage2) : State :=
  if (s.partOfDomain domain).isNone ∨ 2 ^ 36 ≤ dfn ∨ (Tab.get s.homes.stage2 (s2Key domain dfn)).isSome ∨
     ¬ frameFits (homeOfSlot s.homes domain (dfn % 4096)) e.tier e.frame ∨ s.frameUsed e.frame ∨ s.withdrawn e.frame then s
  else s.modHomes (fun h => ({ h with poolFrames := h.poolFrames.filter (· != e.frame) } : Homes).putStage2 domain dfn (some e))

/-- The fabric manager adds a pool extent: its frames, where none is in use, are free for the homes (R366). -/
def State.poolExtent (s : State) (id frame count : Nat) : State :=
  if frame < 128 * hbmFrames ∨ 2 ^ 34 < frame + count ∨ 1048576 < count then s
  else
    let s1 := s.modHomes (fun h => { h with withdrawals := h.withdrawals.filter (fun e => e.2.elim true (fun w =>
      !(w.released && decide (e.1 = id ∨ (w.frame < frame + count ∧ frame < w.frame + w.count))))) })
    s1.modHomes (fun h => { h with poolFrames := h.poolFrames ++ ((List.range count).map (frame + ·)).filter (fun f =>
      !h.poolFrames.contains f && !s1.frameUsed f && !s1.withdrawn f) })

/-- A granule that is MAPPED gets a fresh, zeroed frame: its POISON goes, and every line reads zero (R294). -/
def State.freshFrame (s : State) (domain granule frame tier : Nat) : State :=
  let gk := granOf domain granule
  match s.present gk with
  | none => s
  | some (a, s2) =>
    if s.granState gk ≠ .mapped ∨ ¬ frameFits (homeOf s.homes domain (granule * 16384)) tier frame ∨ s.frameUsed frame ∨
       s.withdrawn frame then s
    else
      let new : Stage2 := { s2 with frame := frame, tier := tier, poison := false }
      let s1 := s.modHomes (fun h =>
        let h1 := h.copyFrame s2.frame frame
        ({ h1 with
          l2 := h1.l2.filter (fun l => !(l.domain == domain && l.line / 64 == granule))
          poolFrames := (if s2.tier = 1 then h1.poolFrames ++ [s2.frame] else h1.poolFrames).filter (· != frame)
          poisonLines := (List.range 64).foldl (fun m j => Cells.set false m (frame * 64 + j) false) h1.poisonLines
          rewritten := h1.rewritten.filter (fun x => decide (x.1 < frame * 16384 ∨ (frame + 1) * 16384 ≤ x.1)) } : Homes).putStage2
            domain a.dfn (some new))
      (List.range 64).foldl (fun t j =>
        t.effectWrite domain 768 0 0 (granule * 16384 + 256 * j) a new (List.replicate 256 0)) s1

/-- Whether a context of a domain runs, is being pre-empted or is being restored. -/
def State.domainRuns (s : State) (domain : Nat) : Bool :=
  (Tab.list s.contexts).any (fun c => c.2.domain == domain && (c.2.state == .running || c.2.state == .preempting ||
    c.2.restoring.isSome))

/-- An entry of a distribution table changes, while no context of the domain runs; it names a home of the partition, and a
generation bump follows (R287). -/
def State.tableWrite (s : State) (domain slot home : Nat) : State :=
  match (s.partOfDomain domain).bind s.part? with
  | none => s
  | some p =>
    if 4096 ≤ slot ∨ ¬ (homesOf p.quads).contains home ∨ s.domainRuns domain then s
    else (s.modHomes (fun h => { h with
      tableOver := Cells.set 0 h.tableOver (domain * 4096 + slot) (home + 1) })).await ownCommand opGenbump domain

/-- A share group: at most 16 members with their masks, one of which translates (R289). -/
def ShareGroup.ok (g : ShareGroup) : Bool :=
  decide (g.members.length ≤ 16) && g.members.all (fun m => decide (m.2 < 8)) && g.members.any (fun m => m.1 == g.translating)
def State.groupWrite (s : State) (group : Nat) (g : Option ShareGroup) : State :=
  if 65536 ≤ group ∨ ¬ g.all ShareGroup.ok then s
  else s.modHomes (fun h => { h with groups := Tab.set h.groups group g })

/-! ### What other modules ask (R285, R297, R362) -/

/-- The fabric ingress sends traffic to the home that its copy of the domain's table names: station 225 (R285, R347). -/
def State.ingress (s : State) (domain va : Nat) (p : Payload) : State :=
  s.enqueue (inbound (s.homeFor domain va) va) 225 1 p

/-- Whether another module may ask about a VA here. -/
def State.peerOk (s : State) (module va n : Nat) : Bool :=
  decide (module < 1024 ∧ module ≠ s.modNo ∧ 1 ≤ n ∧ va % 256 + n ≤ 256 ∧ va < 2 ^ 57) && s.isLocal va

/-- The association that another module's traffic names: its domain (R362; log 79). -/
def State.assocOf (s : State) (module assoc : Nat) : Option Nat := Tab.get s.net.assocs (module * 2 ^ 32 + assoc)
/-- The secure managers agree an association, or end it. -/
def State.associate (s : State) (module assoc : Nat) (domain : Option Nat) : State :=
  if 1024 ≤ module ∨ module = s.modNo ∨ 2 ^ 32 ≤ assoc then s
  else { s with net := { s.net with assocs := Tab.set s.net.assocs (module * 2 ^ 32 + assoc) domain } }
/-- Payload bytes that reach a fabric port for a domain's partition (R335). -/
def State.portBytes (s : State) (domain n : Nat) : State := (s.partOfDomain domain).elim s (fun p => s.addMeter p 9 n)

/-- Another module's request: it carries its domain's current generation (R362). Its number stands for its skein, which no
skein here has; its tag, for the strand. -/
def State.peerAsk (s : State) (a : PeerAsk) : State :=
  match s.assocOf a.module a.assoc with
  | none => s
  | some domain =>
    if ¬ s.peerOk a.module a.va a.size ∨ ¬ (a.kind = .load ∨ a.kind = .store ∨ a.kind = .atomic) ∨
       (a.kind = .store ∧ a.data.length ≠ a.size) ∨ (a.kind = .atomic ∧ ¬ (a.size = 4 ∨ a.size = 8)) then s
    else
      let id := s.nextId
      let r : Req := {
        kind := a.kind, core := peerCore a.module, skein := id, weft := 0, strand := a.tag, ctx := peerCtx a.module a.ctx,
        domain := domain, gen := Cells.get 0 s.homes.gens domain, rdRights := a.rdRights,
        wrRights := a.wrRights, va := a.va, size := a.size, data := if a.kind = .store then a.data else [],
        reg := if a.kind = .store then 63 else 0, sz := 4, fn := a.fn, opnd := a.opnd, expect := a.expect, lvl2 := a.lvl2,
        vol := true, pol := 0, seq := id, counted := false, issued := s.clock, pc := 0, stage := .outbound, result := 0, key := 0,
        noFill := true, nackAt := 0, group := 0, reached := none, unreached := 0, stamp := 0, entry := none, mask := a.mask }
      let s1 := s.portBytes domain r.data.length
      (({ s1 with reqs := Tab.set s.reqs id (some r) } : State).fresh).ingress domain a.va (.request id)

/-- Another module's WATCH. -/
def State.peerWatch (s : State) (a : PeerWatch) : State :=
  match s.assocOf a.module a.assoc with
  | none => s
  | some domain =>
    if ¬ s.peerOk a.module a.va 4 ∨ a.va % 4 ≠ 0 ∨ 8 ≤ a.cond then s
    else
      let c := peerCore a.module
      let id := s.nextId
      let w : Watch := {
        skein := id, weft := 0, strands := [], ctx := peerCtx a.module a.ctx, domain := domain,
        gen := Cells.get 0 s.homes.gens domain, rights := a.rights, va := a.va, cond := a.cond,
        cmp := a.cmp, reg := a.tag, pc := 0, stage := 0, code := 0, record := 0, val := 0, moment := 0, seq := id }
      ((((s.portBytes domain 64).modCore c (fun x => { x with watches := Tab.set x.watches id (some w) })).fresh).ingress domain a.va
        (.watch c id))

/-- Another module cancels its watch, by its tag: an installed entry is answered with the word (R283). -/
def State.peerCancel (s : State) (module tag : Nat) : State :=
  let c := peerCore module
  match (Tab.list (s.core c).watches).find? (fun e => e.2.stage == 2 && e.2.reg == tag) with
  | none => s
  | some e => match s.cancelWatch c e.2 with
    | some r => r.2.answerWatch c e.1 e.2 r.1.1 r.1.2.1 r.1.2.2
    | none => s

/-! ### Other modules' shadows (R229 to R233, R362) -/

/-- Another module opens a shadow: this module's homes record the base generations of their granules, or refuse with code 6. -/
def State.peerOpen (s : State) (o : PeerOpen) : State :=
  match s.assocOf o.module o.assoc with
  | none => s
  | some domain =>
    let sh : Shadow := { Shadow.free with
      state := .sopen, base := o.base, size := o.size, zero := o.zero, replicas := o.replicas }
    if 1024 ≤ o.module ∨ o.module = s.modNo ∨ 64 ≤ o.slot ∨ 2 ^ 30 < o.size ∨ 8 < o.replicas.length then s
    else
      let mine := sh.pages.filter (fun p => s.isLocal p.2)
      let s1 := s.portBytes domain 64
      let say (t : State) (code : Nat) : State := t.tellFor (t.partOfDomain domain) (.answer o.module o.tag code 0 0 [])
      if mine.any (fun p => (ownerOf s.homes domain p.2).isNone) then say s1 6
      else
        let base (m : Cells (Option Nat)) (p : Nat × Nat) : Cells (Option Nat) :=
          Cells.set none m (shKey p.1 p.2) (some (Cells.get 0 s.homes.pubGen (granKey (transDomain s.homes domain p.2) p.2)))
        let peer : PeerShadow := { domain := domain, rights := o.rights, shadow := { sh with bases := mine.foldl base [] } }
        let key := peerCtx o.module o.ctx * 64 + o.slot
        say { s1 with net := { s1.net with peers := Tab.set s1.net.peers key (some peer) } } 0

/-- A step of another module's shadow: a forwarded write, answered with 0, 3 where no frame is free, or 0x102 after the prepare; the
prepare, which its homes then serve; the commit, at one moment; the abort. -/
def State.peerStep (s : State) (module ctx slot : Nat) (x : PeerStep) : State :=
  let c := peerCtx module ctx
  match Tab.get s.net.peers (c * 64 + slot) with
  | none => s
  | some p =>
    let s1 := s.portBytes p.domain 64
    let sh := p.shadow
    let drop (t : State) : State := { t with net := { t.net with peers := Tab.set t.net.peers (c * 64 + slot) none } }
    match x with
    | .forward tag va w =>
      let say (t : State) (code : Nat) : State := t.tellFor (t.partOfDomain p.domain) (.answer module tag code 0 0 [])
      let n := match w with
        | .bytes data => data.length
        | _ => 4
      if va < sh.base ∨ sh.base + sh.size < va + n ∨ va / 16384 ≠ (va + n - 1) / 16384 then s1
      else if sh.state ≠ .sopen then say s1 0x102
      else match s1.shadowStep c p.domain slot va n w with
        | some t => say { t.1 with seq := t.1.seq + 1 } 0
        | none => say s1 3
    | .prepare =>
      if sh.state ≠ .sopen then s1
      else s1.modShadow c slot (fun y => { y with
        state := .preparing, votes := [], openWait := (s.shHomes p.domain sh).filter (· != 128) })
    | .commit => if sh.state ≠ .preparing ∨ sh.openWait ≠ [] ∨ sh.votes ≠ [] then s1 else drop (s1.commitShadow c p.domain slot sh)
    | .abort => drop ((s1.discard c p.domain slot).releaseHeldGrans c p.domain slot sh)

/-! ### Lane quads (R112, R375) -/

/-- Whether every skein on a core keeps an eligible width with one lane quad less: E is never empty while a skein runs
(R114). -/
def State.quadSpare (s : State) (core : Nat) : Bool :=
  (Tab.list s.skeins).all (fun e => e.2.core != some core ||
    eligible (16 * ((s.core core).quads - 1)) e.2.cap e.2.nstrand e.2.wslots != [])

/-- A lane quad of a core is retired in service: the core's grants follow those that still work. DESIGN CHOICE (log 66): not
while a skein on the core would be left without an eligible width. -/
def State.retireQuad (s : State) (core : Nat) : State :=
  if 768 ≤ core ∨ (s.core core).quads = 0 ∨ ¬ s.quadSpare core then s
  else
    (({ s with dev := { s.dev with lquadsRetired := s.dev.lquadsRetired + 1 } } : State).modCore core (fun c =>
      { c with quads := c.quads - 1 })).checkHealth false

/-! ### A turn from outside -/

/-- What comes from outside takes effect. -/
def State.fromOutside (s : State) : Outside → State
  | .scratchError c w d => s.scratchError c w d
  | .selvageError c x d => s.selvageError c x d
  | .tileError k t e => s.tileError k t e
  | .registerError k i r => s.registerError k i r
  | .laneQuad c => s.retireQuad c
  | .lineError f l => s.lineError f l
  | .l2Error d l => s.l2Error d l
  | .attrError k => s.attrError k
  | .watchError c e => s.watchError c e
  | .sentError r => s.sentError r
  | .copyError c => s.copyError c
  | .poolExtent n f k => s.poolExtent n f k
  | .ide b => { s with net := { s.net with ide := b } }
  | .frameError d n => s.frameError d n
  | .mapFrame d n e => s.mapFrame d n e
  | .freshFrame d g f t => s.freshFrame d g f t
  | .tableWrite d n h => s.tableWrite d n h
  | .groupWrite n g => s.groupWrite n g
  | .peerAsk a => s.peerAsk a
  | .peerWatch w => s.peerWatch w
  | .peerCancel m t => s.peerCancel m t
  | .associate m a d => s.associate m a d
  | .peerOpen o => s.peerOpen o
  | .peerShadow m c x p => s.peerStep m c x p
  | .hostDestroy h => { s with dev := { s.dev with frozenHosts := s.dev.frozenHosts.filter (· != h) } }

end Sys2Proof.Machine
end

