-- ==== Sys2Proof/Machine/Sched.lean ====
section
/-! DEFINITION. Machine/Sched.lean: what a turn does before its instruction: the clock, what settles by itself, the choice
of an issue set, the fetch of its packet and the encoding traps of its chain; and the order in which a machine without a
schedule takes its own steps (R38 to R44, R54, R130, R131, R145, R274, R308, R335). -/

namespace Sys2Proof.Machine

/-! ### The clock (R6, R274, R335) -/

/-- Whether something keeps a bolt's watchdog clear (R274). -/
def State.boltQuiet (s : State) (b : Bolt) : Bool :=
  let sks := b.skeins.filterMap (fun k => (s.skein? k).map (fun sk => (k, sk)))
  let ts := sks.flatMap (fun e => (Tab.list e.2.strands).map Prod.snd)
  ts.all (fun t => !t.live) ||
  ts.any (fun t => match t.status with
    | .parked (.nack _ _) => true
    | .parked (.fetch _ _) => true
    | .sleeping _ => true
    | .joinwait _ => true
    | _ => false) ||
  (Tab.list s.copies).any (fun c => b.skeins.contains c.2.skein && c.2.parked.isSome) ||
  sks.any (fun e => match e.2.core with
    | some c => (s.core c).engine.any (fun o => o.skein == e.1 && o.started.isSome)
    | none => false)

/-- `n` cc pass: the watchdogs of resident bolts, and BUSYCC. -/
def State.tick (s : State) (n : Nat) : State :=
  if n = 0 then s
  else
    let s1 := (Tab.list s.bolts).foldl (fun t e =>
      if e.2.state = .running ∨ e.2.state = .halting then
        t.modBolt e.1 (fun b => { b with watchdog := if s.boltQuiet b then 0 else b.watchdog + n })
      else t) s
    let busy := ((Tab.list s.skeins).filterMap (fun e => e.2.core.map (fun c =>
      (c, (s.ctx? e.2.ctx).elim 64 Context.partition)))).dedup
    let s2 := busy.foldl (fun t e => t.addMeter e.2 0 n) s1
    { s2 with clock := s.clock + n }

/-- How many of `n` cc may pass: a pre-emption that has not halted holds the clock at its last moment, 8,500 cc after the
request (R268, R403, log 13). -/
def State.slack (s : State) (n : Nat) : Nat :=
  (Tab.list s.parts).foldl (fun m e => match e.2.preempt, e.2.haltedAt with
    | some t, none => Nat.min m (t + 8500 - s.clock)
    | _, _ => m) n

/-! ### What settles by itself -/

/-- Ends of drains, pre-emptions, bumps, dissolutions, page commands and completions that are due. -/
def State.settle (s : State) : State :=
  let s1 := s.settleBoot.settleBanks.settleKeys.settleMeters.settleDrains
  let s2 := (s1.parts.map Prod.fst).foldl State.endPreempt s1
  let s3 := s2.settleOffline.settleRestores.settleBumps.settleUncarve.settlePartset
  let s4 := s3.settleGrans.settleProtects.settleTinvals.settlePorts
  (s4.settleQueues.retryPend.settleAcquires.settleOwed.settleCopies).trimHomes.noteShares.settleTokens

/-! ### The choice of a PC (R130, R145) -/

/-- The next PCs of a weft's strands whose own load or atomic is under way: that instruction has issued, so each of them
stands at its next PC (R130, log 9). -/
def State.heldPcs (s : State) (sk : Skein) (w : Nat) : List Word :=
  (sk.readyOf w).filterMap (fun e => ((Tab.get sk.strands e.1).bind Strand.hold).bind (fun id =>
    if (s.req? id).elim false (fun r => decide (r.kind = .spill ∨ r.kind = .fill)) then none else some (nextPc e.2)))

/-- The READY strands of a weft that may issue: those that wait for no access of their own, at a PC where no strand of their
group does (R130). -/
def State.canIssue (s : State) (sk : Skein) (w : Nat) : List (Nat × Word) :=
  let held := s.heldPcs sk w
  (sk.readyOf w).filter (fun e => (Tab.get sk.strands e.1).elim false (fun t => t.hold.isNone) && !held.contains e.2)

/-- The PC of a CPY or CWAIT that its weft waits at, while strands stand there (R219, R225). -/
def Skein.soloPc (sk : Skein) (w : Nat) (wf : Weft) : Option Word :=
  (wf.solo.map Prod.fst).filter (fun pc => (sk.members w).any (fun i => (Tab.get sk.strands i).elim false (fun t =>
    t.pc == pc && (match t.status with
      | .ready => true
      | .pathwait _ => true
      | _ => false))))

/-- The candidate PCs of a weft: its entry, and how many strands may issue there. A weft that waits at a CPY or CWAIT issues
nothing else. -/
def State.candidates (s : State) (sk : Skein) (w : Nat) (wf : Weft) : List (BufEntry × Nat) :=
  let only := sk.soloPc w wf
  let rs := (s.canIssue sk w).filter (fun e => only.all (· == e.2))
  wf.entries.filterMap (fun e =>
    let n := (rs.filter (fun r => r.2 == e.pc)).length
    if n = 0 then none else some (e, n))

/-- Whether the group of a weft at a PC has yielded: each of its strands issued a YIELD in the last 16 cc (R145, log 17). -/
def State.hasYielded (s : State) (sk : Skein) (w : Nat) (wf : Weft) (pc : Word) : Bool :=
  ((s.canIssue sk w).filter (fun e => e.2 == pc)).all (fun e => decide (s.clock < Cells.get 0 wf.yielded e.1))

/-- GroupPick (R130): an aged group, the one waiting longest; else the group of most strands, one that has yielded after
the others; ties to the lowest PC. -/
def groupPick (cand : List (BufEntry × Nat)) (yielded : Word → Bool) (clock : Nat) : Option Word :=
  let aged := cand.filter (fun e => decide (e.1.lastIssue + 256 ≤ clock))
  let older (a b : BufEntry × Nat) : Bool :=
    decide (a.1.lastIssue < b.1.lastIssue ∨ (a.1.lastIssue = b.1.lastIssue ∧ a.1.pc.toNat ≤ b.1.pc.toNat))
  let last (e : BufEntry × Nat) : Bool := yielded e.1.pc
  let larger (a b : BufEntry × Nat) : Bool :=
    if last a != last b then last b else decide (b.2 < a.2 ∨ (a.2 = b.2 ∧ a.1.pc.toNat ≤ b.1.pc.toNat))
  let pick (p : BufEntry × Nat → BufEntry × Nat → Bool) (l : List (BufEntry × Nat)) : Option Word :=
    match l with
    | [] => none
    | x :: t => some (t.foldl (fun b e => if p b e then b else e) x).1.pc
  if aged = [] then pick larger cand else pick older aged

/-! ### Fetch (R37, R38, R43, R308) -/

/-- The bytes of the packet at a PC, as a core's instruction caches hold it, and the state with its line in the core's
own cache. -/
def State.packetAt (s : State) (sk : Skein) (c : Nat) (pc : Word) : Option (List Byte × State) :=
  let va := sk.codeVa (pc.toNat / 4 * 4)
  let dom := s.domainOf sk.ctx
  let gen := s.genOf sk.ctx
  let cut (l : ILine) : List Byte := (l.data.drop (va % 64)).take 16
  match lineAt (s.core c).icache dom gen va with
  | some l => some (cut l, s)
  | none => (lineAt (Cells.get [] s.homes.icache (clusterOf c)) dom gen va).map (fun l =>
      (cut l, { s.modCore c (fun x => { x with icache := addILine l1ILines (Config.freeNat s.free) x.icache l }) with
        free := s.free + 1 }))

/-- Ask for the line of a packet: strands join a fetch of their cluster in progress, or a new one is sent. -/
def State.askLine (s : State) (k : Nat) (sk : Skein) (c : Nat) (is : List Nat) (pc : Word) : State :=
  let va := sk.codeVa (pc.toNat / 4 * 4)
  let dom := s.domainOf sk.ctx
  let gen := s.genOf sk.ctx
  let add (w : List (Nat × Nat)) : List (Nat × Nat) := w ++ ((is.map (fun i => (k, i))).filter (fun e => !w.contains e))
  match (Tab.list s.fetches).find? (fun e => e.2.cluster == clusterOf c && e.2.domain == dom && e.2.gen == gen && e.2.line == va / 64) with
  | some e => s.modFetch e.1 (fun f => { f with waiting := add f.waiting })
  | none =>
    let f : Fetch := { core := c, cluster := clusterOf c, ctx := sk.ctx, domain := dom, gen := gen, line := va / 64,
                       waiting := add [], answer := none, stage := 0, data := [] }
    let id := s.nextId
    let s1 := ({ s with fetches := Tab.set s.fetches id (some f) } : State).fresh
    if s.isLocal va then s1.sendToHome c (s.homeFor dom va) va 1 (.fetch id)
    else s1.sendFar (clusterOf c) va (.fetch id)

/-- The word of a slot of a packet; slot 3 is the tail. -/
def packetWord (b : List Byte) (slot : Nat) : Word := BitVec.ofNat 32 (fieldAt b (4 * slot) 4)

/-- The words of the chain that starts at a slot, with their slots: each that has its C bit is followed (R44, R54). -/
def chainFrom (b : List Byte) : Nat → Nat → List (Nat × Word)
  | 0, _ => []
  | n + 1, slot =>
    let w := packetWord b slot
    if w.getLsbD 31 ∧ slot < 2 then (slot, w) :: chainFrom b n (slot + 1) else [(slot, w)]

/-! ### The issue of a weft -/

/-- What the caches and the traps make of an issue set at a PC: a state alone, or a state and the instruction to run. -/
def State.issueAt (s : State) (k w : Nat) (sk : Skein) (c : Nat) (is : List Nat) (pc : Word) (reuse l1 : Bool)
    (moment : Option Nat) : State × Option Instr :=
  if sk.kern.codeSize ≤ pc.toNat * 4 then
    (s.takeTraps k w pc (is.map (fun i => { strand := i, cause := 0x09, val := pc })), none)
  else match s.packetAt sk c pc with
  | none => (s.askLine k sk c is pc, none)
  | some (b, t) =>
    let slot := pc.toNat % 4
    match chainTrap sk.kern (t.privOf sk) (chainFrom b 3 slot) with
    | some e => (t.takeTraps k w pc (is.map (fun i => { strand := i, cause := e.1, val := e.2 })), none)
    | none =>
      match decodeUnchained (packetWord b slot) with
      | .error _ => (t, none)
      | .ok i =>
        let word := packetWord b slot
        let more : List (Nat × Word) := if word.getLsbD 31 ∧ slot < 2 then is.map (fun j => (j, nextPc pc)) else []
        let wf := (t.weft? k w).getD (Weft.fresh 0)
        let before : Before := {
          age := ((wf.entries.find? (fun e => e.pc == pc)).map BufEntry.lastIssue).getD s.clock
          watchdog := (s.bolt? sk.bolt).elim 0 Bolt.watchdog, chain := wf.chain, issuedAt := wf.issuedAt }
        let u := (t.modWeft k w (fun x => { x with
          chain := x.chain.filter (fun e => !is.contains e.1) ++ more, issuedAt := some s.clock
          entries := x.entries.map (fun e => if e.pc = pc then { e with lastIssue := s.clock } else e) })).modBolt sk.bolt
          (fun x => { x with watchdog := 0 })
        ({ u with cur := { skein := k, weft := w, strands := is, pc := pc, word := word, k := packetWord b 3,
                           reuse := reuse, l1 := l1, moment := moment,
                           before := some before, denied := [] } }, some i)

/-- Whether a weft may issue at a PC in this cycle: it has not issued yet, or the word there continues the chain of some of
its strands (R48, R130). -/
def State.cycleFree (s : State) (wf : Weft) (pc : Word) : Bool :=
  wf.issuedAt != some s.clock || wf.chain.any (fun e => e.2 == pc)

/-- The grouping stage's turn for a weft (R130). -/
def State.prepareIssue (s : State) (k w : Nat) (reuse l1 : Bool) (moment : Option Nat) : State × Option Instr :=
  match s.skein? k, s.weft? k w with
  | some sk, some wf =>
    match sk.core with
    | none => (s, none)
    | some c =>
      if wf.activeSince.isNone ∨ wf.shadowWait.isSome ∨ wf.scrubWait ∨ wf.retireWait.isSome then (s, none)
      else if ¬ s.mayIssue sk.ctx then
        match sk.midChain w wf with
        | e :: rest =>
          if s.preempting sk.ctx ∧ s.cycleFree wf e.2 then
            s.issueAt k w sk c (e.1 :: (rest.filter (fun x => x.2 == e.2)).map Prod.fst) e.2 reuse l1 moment
          else (s, none)
        | [] => (s, none)
      else
        let t := s.regroup c k w
        match t.skein? k, t.weft? k w with
        | some sk1, some wf1 =>
          (match groupPick (t.candidates sk1 w wf1) (t.hasYielded sk1 w wf1) t.clock with
            | none => (t.trimActive c, none)
            | some pc =>
              if t.cycleFree wf1 pc then
                t.issueAt k w sk1 c (((t.canIssue sk1 w).filter (fun e => e.2 == pc)).map Prod.fst) pc reuse l1 moment
              else (t, none))
        | _, _ => (t, none)
  | _, _ => (s, none)

/-! ### A machine without a schedule -/

/-- The steps that a machine without a schedule takes by itself: each is a row of the opcode table, with what its source
holds. -/
inductive Due where
  | issue (skein weft : Nat)
  | activeSetEntry (skein weft : Nat)
  | flitReceive (link : Nat)
  | tokenArrival (link : Nat)
  | walkComplete (what : Payload)
  | wcAgeExpiry (core line : Nat)
  | homeRequest (what : Payload)
  | shadowWrite (req : Nat)
  | extentWithdraw (extent : Nat)
  | loadReply (req moment : Nat)
  | ldgaWrite (req moment : Nat)
  | storeAck (req : Nat)
  | atomicReply (req : Nat)
  | rstAck (req : Nat)
  | instructionFetchReply (fetch : Nat)
  | wakePacket (core entry : Nat)
  | copyChunk (copy : Nat)
  | engineOpStart (core : Nat)
  | engineOpDone (core : Nat)
  | parityApply (core group : Nat)
  | skeinEnd (skein : Nat)
  | waittDeadline (skein strand : Nat)
  | joinTimeout (skein weft : Nat) (target : Word)
  | sliceTimeout (skein weft : Nat)
  | pathwaitTimeout (skein weft : Nat) (pc : Word)
  | activeSetTimeout (skein weft : Nat)
  | watchTimeout (core entry : Nat)
  | watchdog (bolt : Nat)
  | copyRetire (copy : Nat)
  | copyNack (copy : Nat)
  | copyViolation (copy : Nat)
  | rebuildComplete (core group : Nat)
  | spscrubComplete (skein weft : Nat)
  | shadowOpenRequest (op home : Nat)
  | shpubArrival (op : Nat)
  | shdReply (op : Nat)
  | publishPrepare (ctx slot home : Nat)
  | publishCommit (ctx slot : Nat)
  | publishAbort (ctx slot : Nat)
  | faultRecordDelivery (record : Nat)
  | moveComplete (domain granule : Nat)
  | recodingComplete (domain granule : Nat)
  | filterInvalidation (cluster domain granule : Nat)
  | filterAck (cluster domain granule : Nat)
  | flitReplayTimeout (link : Nat)
  | command (queue opcode : Nat)
  | contextBuilt (ctx : Nat)
  | partitionReady (part : Nat)
  | keyTableUpdateApplied (ctx core : Nat)
  | boltStart (cluster ctx lslot bolt : Nat)
  | haltComplete (part : Nat)
  | abandonTimeout (part : Nat)
  | contextSaveComplete (ctx : Nat)
  | restoreComplete (ctx : Nat)
  deriving DecidableEq, Repr

/-- Steps of the Loom: a flit to decode, or a token for a station with traffic. -/
def State.linksDue (s : State) : List Due :=
  s.net.links.filterMap (fun l =>
    if l.2.flying ≠ [] then some (.flitReceive l.1)
    else if s.wantsToken (l.1 / 256) (l.1 % 256) ∧ s.tokenNext (l.1 / 256) (l.1 % 256) then some (.tokenArrival l.1)
    else if l.2.buffer.any (fun f => f.sent.elim false (fun t => decide (t + 1700 ≤ s.clock))) then some (.flitReplayTimeout l.1)
    else none)

/-- The step of a copy of this module's memory: its next chunk, its end, or what its homes refuse it. -/
def State.copyDue (s : State) (id : Nat) (cp : Copy) : Option Due :=
  if cp.parked.isSome ∨ cp.frozen then none
  else if cp.total ≤ cp.done then (if cp.phase = 0 then some (.copyRetire id) else none)
  else if s.copyRemote cp then none
  else match s.copyReady id with
    | none => none
    | some (c, ps) =>
      let vs := ps.map (fun p => (p, s.judgePiece c p))
      if (firstNack vs).isSome then some (.copyNack id)
      else if vs.any (fun v => match v.2 with
        | .deny _ => true
        | _ => false) then some (.copyViolation id)
      else if vs.all (fun v => decide (v.2 = .ok ∨ v.2 = .late)) then some (.copyChunk id)
      else none

/-- Steps of shadows of this module's memory: opens, arrivals and replies of operations, votes and outcomes of
publishes. -/
def State.shadowsDue (s : State) : List Due :=
  ((Tab.list s.shdops).flatMap (fun e =>
    if e.2.stage = 2 then [Due.shdReply e.1]
    else if e.2.stage ≠ 0 ∨ e.2.arrived = [] then []
    else match e.2.kind with
      | 0 => (s.shadow? e.2.ctx e.2.slot).elim [] (fun sh =>
          (e.2.arrived.filter (fun h => h != 128 && sh.openWait.contains h)).map (fun h => Due.shadowOpenRequest e.1 h))
      | 1 => [.shpubArrival e.1]
      | _ => [.homeRequest (.shd e.1)])) ++
  (Tab.list s.contexts).flatMap (fun c => (Tab.list c.2.shadows).flatMap (fun e =>
    if e.2.state ≠ .preparing then []
    else if e.2.openWait ≠ [] then (e.2.openWait.filter (· != 128)).map (fun h => Due.publishPrepare c.1 e.1 h)
    else [if e.2.votes = [] ∧ e.2.reason = 0 then .publishCommit c.1 e.1 else .publishAbort c.1 e.1])) ++
  (Tab.list s.net.peers).flatMap (fun p => if p.2.shadow.state ≠ .preparing then [] else
    (p.2.shadow.openWait.filter (· != 128)).map (fun h => Due.publishPrepare (p.1 / 64) (p.1 % 64) h))

/-- Steps of granules: the ends of moves and recodings, filters that lose a page, and extents that the secure manager takes
back. -/
def State.granulesDue (s : State) : List Due :=
  s.homes.gran.flatMap (fun e =>
    let d := e.1 / 2 ^ 43
    let g := e.1 % 2 ^ 43
    match e.2 with
    | .moving _ _ => [Due.moveComplete d g]
    | .recoding _ => [.recodingComplete d g]
    | .xrevoking w => w.map (fun c => if c < 256 then .filterInvalidation c d g else .filterAck (c - 256) d g)
    | _ => []) ++
  (Tab.list s.homes.ownership).filterMap (fun e => if e.2.withdrawing then some (.extentWithdraw e.1) else none)

/-- Commands at the heads of queues, and fault records not yet delivered. -/
def State.queuesDue (s : State) : List Due :=
  ((Tab.list s.queues).filterMap (fun e =>
    if 2 ≤ e.2.kind ∨ ¬ s.takeable e.1 e.2 ∨ ¬ s.arbiter e.1 e.2 then none
    else match s.headRecord e.2 with
      | .ok b => some (Due.command e.1 (fieldAt b 0 2))
      | .error c => if c.1 = 0x101 then none else some (.command e.1 0))) ++
  (Tab.list s.homes.faultRecs).filterMap (fun e => if e.2.delivered then none else some (.faultRecordDelivery e.1))

/-- Steps of contexts and partitions: building, key updates, bolts that start, halts, saves and restores. -/
def State.contextsDue (s : State) : List Due :=
  ((Tab.list s.parts).flatMap (fun p =>
    (if p.2.ready then [] else [Due.partitionReady p.1]) ++
    (if p.2.preempt.isNone ∨ p.2.haltedAt.isSome ∨ (s.skeinsOf (s.toSave p.2)).any (fun e => !s.skeinHalted e.1 e.2 p.2.abandoned)
      then [] else [.haltComplete p.1]) ++
    (if p.2.preempt.elim false (fun t => decide (t + 6800 ≤ s.clock)) ∧ p.2.haltedAt.isNone ∧ ¬ p.2.abandoned
      then [.abandonTimeout p.1] else []))) ++
  ((Tab.list s.contexts).flatMap (fun c =>
    (if c.2.state = .building ∧ (s.part? c.2.partition).elim false Partition.ready then [Due.contextBuilt c.1] else []) ++
    c.2.keyWait.map (fun e => Due.keyTableUpdateApplied c.1 e.1) ++
    (if c.2.state = .preempting ∧ (s.part? c.2.partition).elim false (fun p => p.haltedAt.isSome && p.preempting.contains c.1) then
      [.contextSaveComplete c.1] else []) ++
    (if c.2.restoring.isSome then [.restoreComplete c.1] else []))) ++
  (s.cores.flatMap (fun c => (Tab.list c.2.slots).filterMap (fun e =>
    if e.2.status = 1 ∧ e.2.skein = none then
      some (Due.boltStart (clusterOf c.1) (bindCtx e.2.words) (bindLslot e.2.words) (bindBolt e.2.words)) else none))).dedup

/-- Steps of homes and cores on requests, fetches, watches and copies. -/
def State.requestsDue (s : State) : List Due :=
  (s.homes.walks.map (fun w => Due.walkComplete w.2)) ++
  ((Tab.list s.reqs).filterMap (fun e => match e.2.stage with
    | .buffered => some (.wcAgeExpiry e.2.core (e.2.va / 256))
    | .atHome => some (if e.2.kind = .rst then .shadowWrite e.1 else .homeRequest (.request e.1))
    | .returned .. => some (match e.2.kind with
      | .load => .loadReply e.1 s.seq
      | .fill => .loadReply e.1 s.seq
      | .pref => .loadReply e.1 s.seq
      | .ldga => .ldgaWrite e.1 s.seq
      | .store => .storeAck e.1
      | .spill => .storeAck e.1
      | .atomic => .atomicReply e.1
      | .rst => .rstAck e.1)
    | _ => none)) ++
  ((Tab.list s.fetches).filterMap (fun e =>
    if e.2.stage = 1 then some (.homeRequest (.fetch e.1))
    else if e.2.stage = 4 then some (.instructionFetchReply e.1) else none)) ++
  (s.cores.flatMap (fun c => (Tab.list c.2.watches).filterMap (fun w =>
    if w.2.stage = 1 then some (.homeRequest (.watch c.1 w.1))
    else if w.2.stage = 4 then some (.wakePacket c.1 w.1) else none))) ++
  ((Tab.list s.copies).filterMap (fun e => s.copyDue e.1 e.2))

/-- Steps of cores: engines, parity, wefts entering the active set or issuing, ends of skeins. -/
def State.coresDue (s : State) : List Due :=
  (s.cores.flatMap (fun c =>
    (if c.2.engine = [] then [] else
      [if c.2.engine.any (fun o => o.started.isSome) then Due.engineOpDone c.1 else .engineOpStart c.1]) ++
    (c.2.scratch.queue.take 1).map (fun p => Due.parityApply c.1 p.group) ++
    c.2.scratch.groups.filterMap (fun g =>
      if g.2.rebuilding ∧ 1 ≤ g.2.retired ∧ g.2.retired ≤ 4 then some (Due.rebuildComplete c.1 g.1) else none))) ++
  (Tab.list s.skeins).flatMap (fun e =>
    if e.2.live = [] then [Due.skeinEnd e.1]
    else (Tab.list e.2.wefts).flatMap (fun w =>
      (if w.2.scrubWait then [Due.spscrubComplete e.1 w.1] else []) ++
      (if w.2.activeSince.isNone then (if e.2.hasReady w.1 then [.activeSetEntry e.1 w.1] else [])
      else if (s.canIssue e.2 w.1).isEmpty then [] else [.issue e.1 w.1])))

/-- Timers that have run out. -/
def State.timersDue (s : State) : List Due :=
  ((Tab.list s.skeins).flatMap (fun e => if ¬ s.mayIssue e.2.ctx then [] else
    (Tab.list e.2.strands).filterMap (fun t => match t.2.status with
      | .sleeping d => if d ≤ s.clock then some (Due.waittDeadline e.1 t.1) else none
      | _ => none) ++
    (Tab.list e.2.wefts).flatMap (fun w =>
      w.2.records.filterMap (fun r => match r.deadline with
        | some d => if d ≤ s.clock then some (Due.joinTimeout e.1 w.1 r.target) else none
        | none => none) ++
      (if w.2.sliceSince.any (fun x => decide (x.2 + e.2.jtimeout ≤ s.clock)) then [.sliceTimeout e.1 w.1] else []) ++
      (if w.2.activeSince.isNone then [] else
        (e.2.pathGroups w.1).filterMap (fun g =>
          if g.2 + 256 ≤ s.clock then some (.pathwaitTimeout e.1 w.1 g.1) else none)) ++
      (match w.2.activeSince, e.2.core with
        | some since, some c => if since + 1024 ≤ s.clock ∧ s.othersReady c e.1 w.1 true then [.activeSetTimeout e.1 w.1] else []
        | _, _ => [])))) ++
  (s.cores.flatMap (fun c => (Tab.list c.2.watches).filterMap (fun w =>
    if w.2.stage = 2 ∧ w.2.strands.any (watchDue s.clock) then some (Due.watchTimeout c.1 w.1) else none))) ++
  (Tab.list s.bolts).filterMap (fun b =>
    let e := (s.ctx? b.2.ctx).elim 0 Context.wdexp
    if e ≠ 0 ∧ 2 ^ e ≤ b.2.watchdog ∧ (b.2.state = .running ∨ b.2.state = .halting) then some (.watchdog b.1) else none)

/-- The step that a machine without a schedule takes: one of those that are due, in turn. -/
def State.nextDue (s : State) : Option Due :=
  let ds := s.timersDue ++ s.linksDue ++ s.requestsDue ++ s.coresDue ++ s.shadowsDue ++ s.granulesDue ++ s.queuesDue ++ s.contextsDue
  ds[s.turn % ds.length]?

/-- The command at a queue's head is taken: by the step of its opcode, an unknown opcode by any command's. -/
def State.runCommand (s : State) (queue opcode : Nat) : Out :=
  match opcode with
  | 0x0002 => execEvset queue s
  | 0x0003 => execEvclear queue s
  | 0x0004 => execEvread queue s
  | 0x0005 => execCancel queue s
  | 0x0101 => execBuild queue s
  | 0x0102 => execDestroy queue s
  | 0x0103 => execSetkeys queue s
  | 0x0104 => execSetroot queue s
  | 0x0105 => execRingset queue s
  | 0x0106 => execQopen queue s
  | 0x0107 => execQclose queue s
  | 0x0108 => execReplay (some queue) 0 s
  | 0x0109 => execTinval queue s
  | 0x010A => execProtect queue s
  | 0x010B => execAttest (some queue) [] s
  | 0x010C => execRspool queue s
  | _ => execLaunchCmd queue s

/-- A due step that is no issue: its own event. -/
def State.runDue (s : State) (d : Due) : Out :=
  let here : RemoteAns := { code := 0, key := 0, data := [], flags := 0 }
  match d with
  | .issue _ _ => .next s
  | .activeSetEntry k w => execActiveSetEntry k w s
  | .flitReceive l => execFlitReceive (l / 256) (l % 256) [] [] s
  | .tokenArrival l => execTokenArrival (l / 256) (l % 256) s
  | .walkComplete w => execWalkComplete w s
  | .wcAgeExpiry c l => execWcAgeExpiry c l s
  | .homeRequest w => execHomeRequest w s
  | .shadowWrite r => execShadowWrite r s
  | .extentWithdraw e => execExtentWithdraw e s
  | .loadReply r m => execLoadReply r m here s
  | .ldgaWrite r m => execLdgaWrite r m here s
  | .storeAck r => execStoreAck r here s
  | .atomicReply r => execAtomicReply r here s
  | .rstAck r => execRstAck r here s
  | .instructionFetchReply f => execInstructionFetchReply f s
  | .wakePacket c e => execWakePacket c e here s
  | .copyChunk c => execCopyChunk c here s
  | .engineOpStart c => execEngineOpStart c s
  | .engineOpDone c => execEngineOpDone c s
  | .parityApply c g => execParityApply c g s
  | .skeinEnd k => execSkeinEnd k s
  | .waittDeadline k i => execWaittDeadline k i s
  | .joinTimeout k w p => execJoinTimeout k w p s
  | .sliceTimeout k w => execSliceTimeout k w s
  | .pathwaitTimeout k w p => execPathwaitTimeout k w p s
  | .activeSetTimeout k w => execActiveSetTimeout k w s
  | .watchTimeout c e => execWatchTimeout c e here s
  | .watchdog b => execWatchdog b s
  | .copyRetire c => execCopyRetire c s
  | .copyNack c => execCopyNack c 0 here s
  | .copyViolation c => execCopyViolation c here s
  | .rebuildComplete c g => execRebuildComplete c g s
  | .spscrubComplete k w => execSpscrubComplete k w s
  | .shadowOpenRequest o h => execShadowOpenRequest o h s
  | .shpubArrival o => execShpubArrival o s
  | .shdReply o => execShdReply o s
  | .publishPrepare c x h => execPublishPrepare c x h s
  | .publishCommit c x => execPublishCommit c x s
  | .publishAbort c x => execPublishAbort c x s
  | .faultRecordDelivery r => execFaultRecordDelivery r s
  | .moveComplete d g => execMoveComplete d g s
  | .recodingComplete d g => execRecodingComplete d g s
  | .filterInvalidation c d g => execFilterInvalidation c d g s
  | .filterAck c d g => execFilterAck c d g s
  | .flitReplayTimeout l => execFlitReplayTimeout (l / 256) (l % 256) s
  | .command q o => s.runCommand q o
  | .contextBuilt c => execContextBuilt c s
  | .partitionReady p => execPartitionReady p s
  | .keyTableUpdateApplied c n => execKeyTableUpdateApplied c n s
  | .boltStart cl c l b => execBoltStart cl c l b s
  | .haltComplete p => execHaltComplete p s
  | .abandonTimeout p => execAbandonTimeout p s
  | .contextSaveComplete c => execContextSaveComplete c s
  | .restoreComplete c => execRestoreComplete c s

/-! ### A turn -/

/-- What a turn comes to: an instruction to run, an event of the machine's own, or nothing but the time. -/
inductive Turned where
  | run (i : Instr)
  | due (d : Due)
  | idle
  deriving DecidableEq, Repr

/-- An issue: the instruction of its issue set, or the state where the cache, a trap or the grouping left none. -/
def Turned.ofIssue (r : State × Option Instr) : State × Turned :=
  match r.2 with
  | some i => (r.1, .run i)
  | none => (r.1, .idle)

/-- Whether an instruction is a word of a program rather than an event. -/
def isWord (i : Instr) : Bool := (encodeNat i).isSome

/-- What a move of the schedule comes to: a word has no turn of its own, it runs at an issue. -/
def State.turnOf (s : State) (m : Move) : State × Turned :=
  match m with
  | .issue k w reuse l1 moment => Turned.ofIssue (s.prepareIssue k w reuse l1 moment)
  | .event i => if isWord i then (s, .idle) else (s, .run i)
  | .outside o => (s.fromOutside o, .idle)
  | .idle => (s, .idle)

/-- Take the next turn: of the schedule, or, where it is empty, one that the machine takes by itself one cc later. -/
def State.takeTurn (s : State) : State × Turned :=
  match s.schedule with
  | t :: rest => ((({ s with schedule := rest } : State).tick (s.slack t.wait)).settle).turnOf t.move
  | [] =>
    let u := (({ s with turn := s.turn + 1 } : State).tick (s.slack 1)).settle
    match u.nextDue with
    | some (.issue k w) => Turned.ofIssue (u.prepareIssue k w true true none)
    | some d => (u, .due d)
    | none => (u, .idle)

/-! ### A program loaded from outside (log 2) -/

/-- A kernel of minor 1 at level 3: every resource of a skein of eight strands, one packet of code at VA 4,096 + 64. -/
def loadedKernel : Kernel :=
  { minor := 1, level := 3, vregs := 63, tiles := 16, rstack := 16, scratch := 393216, strands := 8, minCode := 0,
    maxCode := 0, rigid := false, cosched := false, relaunch := 0, entry := 0, base := 4096, codeSize := 16,
    dataOff := 80, argSize := 0 }

/-- The machine with a program of one packet loaded: a partition of quad 0 and its privileged context run one bolt of one
skein of eight strands in one weft on core 0, the packet is in the core's instruction cache, and the next turn issues the
weft at once. -/
def State.withPacket (s : State) (packet : List Byte) : State :=
  let ext : List (Nat × Nat) := [(0, 1)]
  let args : CarveArgs := { quadMask := 1, domain := 1, settings := PartSettings.default, priv := true, keys := [],
                            roots := [], sys := ⟨0, 4⟩, fault := ⟨0, 4⟩, event := ⟨0, 4⟩, extents := ext }
  let bolt : Bolt := { ctx := 0, launch := s.nextId, lslot := 0, index := 0, bale := 0, state := .running, skeins := [0],
                       nskein := 1, lead := 0, cores := [0], fused := false, dirty := false, watchdog := 0, relaunches := 0, bars := [],
                       shadows := [] }
  let skein : Skein := {
    ctx := 0, bolt := 0, index := 0, core := some 0, kern := loadedKernel, nstrand := 8, nbolt := 1, nbale := 1, args := 0,
    scrBase := 0, wslots := 1, coreTiles := List.range 16, prio := 0, cap := 5, rsBlock := none, jtimeout := 4096,
    dbgSel := 0, strands := freshStrands 8 0,
    wefts := [(0, some { Weft.fresh 8 with
      activeSince := some 0, entries := [{ pc := 0, since := 0, lastIssue := s.clock, reserved := true, group := List.range 8 }] })],
    bars := [], tiles := [], pmc := [], acqs := [], cwaits := [], doneCopies := [], copyFrozen := false, savedScratch := [],
    savedInj := none }
  let line : ILine := { domain := 1, gen := 0, line := 65, data := (packet ++ List.replicate 64 0).take 64 }
  let slot : BindSlot := { words := List.replicate 16 0, status := 1, skein := some 0 }
  let core : CoreSt := { CoreSt.reset with issueSeq := (s.core 0).issueSeq, icache := [line], slots := Tab.set [] 0 (some slot) }
  let ctx : Context := { Context.built 0 1 0 true [] with state := .running }
  { s with
    cores := Cells.set CoreSt.reset s.cores 0 core
    skeins := Tab.set s.skeins 0 (some skein)
    bolts := Tab.set s.bolts 0 (some bolt)
    contexts := Tab.set s.contexts 0 (some ctx)
    parts := Tab.set s.parts 0 (some { Partition.carvedAt args s.clock with ready := true })
    schedule := [{ wait := 0, move := .issue 0 0 false true none }] }

end Sys2Proof.Machine
end

