-- ==== Sys2Proof/Machine/Step.lean ====
section
/-! DEFINITION. Machine/Step.lean: one step of the module: a turn (Machine/Sched.lean), and then the instruction or the
event that it comes to (Machine/Dispatch.lean). -/

namespace Sys2Proof.Machine

/-- What a turn comes to, run. -/
def runTurn (r : State × Turned) : Host.Outcome State Fault Refusal :=
  match r.2 with
  | .run i => exec i r.1
  | .due d => r.1.runDue d
  | .idle => .next r.1

/-- One step of the module. -/
def step (s : State) : Host.Outcome State Fault Refusal := runTurn s.takeTurn

/-- The state with a program loaded whose first packet is the instruction's word and two all-zero words, with an all-zero
tail, and which runs it in its next step (log 2). -/
def State.withFetchWord (s : State) (nbits w : Nat) : State :=
  s.withPacket (bytesOfWord (BitVec.ofNat 32 (w % 2 ^ nbits)))

end Sys2Proof.Machine
end

