-- ==== Sys2Proof/Safety.lean ====
section
/-! DEFINITION. Sys2Proof/Safety.lean: what a safe step and a sound state are, and the terms in which the claims say what
an instruction does and what it leaves as it was. -/

namespace Sys2Proof.Machine

/-! ### Outcomes and sound states -/

/-- An outcome that goes on: neither a fault nor a refusal. -/
def goesOn (o : Out) : Prop := ∃ t, o = .next t

/-- An outcome that goes on to a state with a property. -/
def goesTo (o : Out) (P : State → Prop) : Prop := ∃ t, o = .next t ∧ P t

/-- The state that an outcome goes on to, where it does. -/
def nextOf (o : Out) : Option State :=
  match o with
  | .next t => some t
  | .fault _ => none
  | .refused _ => none

/-- A sound state: the memory behind the homes keeps its canonical form. -/
def State.Sound (s : State) : Prop := Memory.wf s.homes.mem = true

/-! ### When a word may issue -/

/-- The current issue is one of the skein `sk`, whose tables are in canonical form, of distinct strands that it has
(R130), and no denial has been reported at it yet (R183). -/
def State.Issuing (s : State) (sk : Skein) : Prop :=
  s.skein? s.cur.skein = some sk ∧ s.cur.denied = [] ∧ Cells.wf none sk.strands = true ∧ Cells.wf none sk.wefts = true ∧
  s.cur.strands.Nodup ∧ ∀ i ∈ s.cur.strands, (Tab.get sk.strands i).isSome = true

/-- No LDGA of the issue's skein is in flight or waits to be reported, so that no register that a word names is still to
be written (R75, R183). -/
def State.NoAsync (s : State) : Prop := ∀ e ∈ Tab.list s.reqs, e.2.kind = .ldga → e.2.skein ≠ s.cur.skein

/-- No request of the issue's skein is in flight, held or waits to be reported (R155, R183). -/
def State.NoRequests (s : State) : Prop := ∀ e ∈ Tab.list s.reqs, e.2.skein ≠ s.cur.skein

/-- A word that the current issue can run: its encoding traps in no strand (R51 to R54), it waits for no register, where it
accesses memory no strand of its weft is in the acquire of a scoped BAR (R161, R278), and the register file can correct every
word that it reads (R367, R369). -/
def State.CanRun (s : State) (sk : Skein) (i : Instr) : Prop :=
  s.Issuing sk ∧ wordTrap sk.kern (s.privOf sk) i = none ∧ s.NoAsync ∧ (Instr.accesses i = true → s.acquirePending sk = false) ∧
  s.readsBad sk (s.active (Instr.use i).g) i = none

/-! ### What a word does to its strands -/

/-- Every strand of the issue set whose guard is true becomes `f` of itself, one whose guard is false goes to the next
PC (R42), and every other strand of the module is as it was. -/
def State.StrandsDone (s t : State) (g : Nat) (f : Nat → Strand → Strand) : Prop :=
  ∀ k i, t.strand? k i =
    if k = s.cur.skein ∧ i ∈ s.cur.strands then (s.strand? k i).map (fun x => if x.rpr g then f i x else x.advance)
    else s.strand? k i

/-- Nothing changes but the strands and counters of the issue's skein, what its core's reuse table holds, and how many
free values have been used: every other skein, every byte of memory and of scratch, and everything else is as it was. -/
def State.OnlyStrands (s t : State) : Prop :=
  t = { s with skeins := t.skeins, cores := t.cores, free := t.free } ∧
  (∀ c, t.core c = { s.core c with reuse := (t.core c).reuse }) ∧
  (∀ k, k ≠ s.cur.skein → t.skein? k = s.skein? k) ∧
  (∀ sk, s.skein? s.cur.skein = some sk →
    ∃ sk', t.skein? s.cur.skein = some sk' ∧ sk' = { sk with strands := sk'.strands, pmc := sk'.pmc })

/-- A per-lane word that can run completes: its guard-true strands become `f` of themselves and go to the next PC, and
nothing else changes (R42, R82). `f` may use the kernel, the packet's K and the strand. -/
def RunsPerLane (i : Instr) (g : BitVec 3) (f : Skein → Word → Strand → Strand) : Prop :=
  ∀ (s : State) (sk : Skein), s.CanRun sk i →
    goesTo (exec i s) (fun t => s.StrandsDone t g.toNat (fun _ x => (f sk s.cur.k x).advance) ∧ s.OnlyStrands t)

/-- A floating result in one strand (R34): with Q = 0 its flags are ORed into FPFLAGS. -/
def Strand.withFlags (t : Strand) (q : BitVec 1) (w : Strand) (fl : FpFlags) : Strand :=
  if q = 1 then w else { w with fpflags := t.fpflags ||| fl }

/-- A floating word that can run, and whose flags trap in no strand, completes: the destination takes the result, the
flags that it raises with Q = 0 are ORed into FPFLAGS, and nothing else changes (R33, R34). -/
def RunsFloating (i : Instr) (g : BitVec 3) (q : BitVec 1) (w : Skein → Word → Strand → Strand)
    (fl : Skein → Word → Strand → FpFlags) : Prop :=
  ∀ (s : State) (sk : Skein), s.CanRun sk i →
    (∀ j ∈ s.cur.strands, ∀ x, s.strand? s.cur.skein j = some x → x.rpr g.toNat = true → q = 0 →
      x.fpTraps (fl sk s.cur.k x) = false) →
    goesTo (exec i s) (fun t => s.StrandsDone t g.toNat
      (fun _ x => (x.withFlags q (w sk s.cur.k x) (fl sk s.cur.k x)).advance) ∧ s.OnlyStrands t)

/-- A word of one source: d := f(A). -/
def RunsUnary (i : Instr) (g : BitVec 3) (d a : VReg) (f : Word → Word) : Prop :=
  RunsPerLane i g (fun _ _ x => x.wv d.toNat (f (x.rv a.toNat)))

/-- A word of two sources: d := f(A, B), where b = 63 reads K (R45). -/
def RunsBinary (i : Instr) (g : BitVec 3) (d a b : VReg) (f : Word → Word → Word) : Prop :=
  RunsPerLane i g (fun _ k x => x.wv d.toNat (f (x.rv a.toNat) (x.rb k b.toNat)))

/-- A predicate word: pd := f of the strand and K. -/
def RunsPredicate (i : Instr) (g p : BitVec 3) (f : Word → Strand → Bool) : Prop :=
  RunsPerLane i g (fun _ k x => x.wpr p.toNat (f k x))

/-- A floating word whose destination is a vector register: `f` gives the result and its flags under the modes of the
strand (R22, R35). -/
def RunsFp (i : Instr) (g : BitVec 3) (q : BitVec 1) (d : VReg) (f : FpCtx → Word → Strand → FpOut) : Prop :=
  RunsFloating i g q (fun sk k x => x.wv d.toNat (BitVec.ofNat 32 (f (fpCtx sk.kern x) k x).bits))
    (fun sk k x => (f (fpCtx sk.kern x) k x).flags)

/-! ### Words that act across lanes -/

/-- A cross-lane word acts at this issue: its .any form does; its .all form does when the issue set is every live strand
of the weft, READY at the issue's PC (R121). -/
def State.ActsAcross (s : State) (sk : Skein) (y : BitVec 1) : Prop :=
  y = 1 ∨ (s.cur.strands = sk.liveOf s.cur.weft ∧
    ∀ i ∈ s.cur.strands, ∀ x, s.strand? s.cur.skein i = some x → x.status = .ready ∧ x.pc = s.cur.pc)

/-- A cross-lane word that can run, and acts at this issue, completes: each participant, that is each strand whose guard
is true, becomes `f` of the skein, the weft, the participants, K, its number and itself; where `fl` says which flags that
raises, no participant traps (R121 to R128). -/
def RunsAcross (i : Instr) (g : BitVec 3) (y : BitVec 1) (f : Skein → Nat → List Nat → Word → Nat → Strand → Strand)
    (fl : Skein → Nat → List Nat → Nat → Strand → FpFlags) : Prop :=
  ∀ (s : State) (sk : Skein), s.CanRun sk i → s.ActsAcross sk y →
    (∀ j ∈ s.acting g, ∀ x, s.strand? s.cur.skein j = some x →
      x.fpTraps (fl sk s.cur.weft (s.acting g) j x) = false) →
    goesTo (exec i s) (fun t => s.StrandsDone t g.toNat
      (fun j x => (f sk s.cur.weft (s.acting g) s.cur.k j x).advance) ∧ s.OnlyStrands t)

/-- A cross-lane word that raises no flag. -/
def RunsAcrossPlain (i : Instr) (g : BitVec 3) (y : BitVec 1)
    (f : Skein → Nat → List Nat → Word → Nat → Strand → Strand) : Prop := RunsAcross i g y f (fun _ _ _ _ _ => 0)

/-- A floating reduction: `v` gives the value and its flags; where `flush`, the strand's FTZ32 applies (R123, R127). -/
def RunsReduction (i : Instr) (g : BitVec 3) (y : BitVec 1) (d : VReg) (flush : Bool)
    (v : Skein → Nat → List Nat → Nat → Word × FpFlags) : Prop :=
  let out : Skein → Nat → List Nat → Nat → Strand → FpOut := fun sk w parts j x =>
    let r : FpOut := ⟨(v sk w parts j).1.toNat, (v sk w parts j).2⟩
    if flush then ftz32 (fpCtx sk.kern x) r else r
  RunsAcross i g y
    (fun sk w parts _ j x =>
      x.withFlags 0 (x.wv d.toNat (BitVec.ofNat 32 (out sk w parts j x).bits)) (out sk w parts j x).flags)
    (fun sk w parts j x => (out sk w parts j x).flags)

/-! ### Traps and waits -/

/-- The strands of the issue set whose guard is true have a handler that R40 accepts, and no strand of the weft is in a
handler: a trap of theirs enters (R148). -/
def State.Handled (s : State) (sk : Skein) (g : BitVec 3) : Prop :=
  sk.someActive s.cur.weft = false ∧ ∀ j ∈ s.cur.strands, ∀ x, s.strand? s.cur.skein j = some x → x.rpr g.toNat = true →
    x.active = false ∧ x.trapvec ≠ 0xFFFFFFFF ∧ pcOk sk.kern x.trapvec.toNat = true

/-- A word that can run traps, where each strand whose guard is true meets `cond`: those strands enter together with the
cause, the value and the word's PC, TMASK names them, the others go on, and no byte of memory changes (R148). -/
def TrapsEach (i : Instr) (g : BitVec 3) (cond : State → Skein → Strand → Prop) (cause : Nat)
    (val : State → Strand → Word) : Prop :=
  ∀ (s : State) (sk : Skein), s.CanRun sk i → s.Handled sk g →
    (∀ j ∈ s.cur.strands, ∀ x, s.strand? s.cur.skein j = some x → x.rpr g.toNat = true → cond s sk x) →
    goesTo (exec i s) (fun t => s.StrandsDone t g.toNat (fun _ x => x.enter cause (val s x) s.cur.pc) ∧
      t.homes = s.homes ∧
      (s.acting g ≠ [] → ∀ wf, t.weft? s.cur.skein s.cur.weft = some wf → wf.tmask = laneMask s.cur.weft (s.acting g)))

/-- A word that can run, on strands that each meet `cond` where their guard is true, completes: those become `f` of
themselves, the others go on, and nothing else changes. -/
def RunsWhere (i : Instr) (g : BitVec 3) (cond : State → Skein → Strand → Prop)
    (f : State → Skein → Nat → Strand → Strand) : Prop :=
  ∀ (s : State) (sk : Skein), s.CanRun sk i →
    (∀ j ∈ s.cur.strands, ∀ x, s.strand? s.cur.skein j = some x → x.rpr g.toNat = true → cond s sk x) →
    goesTo (exec i s) (fun t => s.StrandsDone t g.toNat (f s sk) ∧ s.OnlyStrands t)

/-- Every strand keeps its registers: general, predicate, index, floating and trap registers, and its return stack. -/
def State.RegistersKept (s t : State) : Prop :=
  ∀ k i x, s.strand? k i = some x → ∃ y, t.strand? k i = some y ∧ y.v = x.v ∧ y.p = x.p ∧ y.n = x.n ∧
    y.fpflags = x.fpflags ∧ y.fpmode = x.fpmode ∧ y.fptrapen = x.fptrapen ∧ y.trapvec = x.trapvec ∧ y.tpc = x.tpc ∧
    y.tcause = x.tcause ∧ y.tval = x.tval ∧ y.active = x.active ∧ y.onChip = x.onChip ∧ y.spilled = x.spilled ∧
    y.bad = x.bad

/-! ### Memory words -/

/-- Nothing of the skein is outstanding, its core's write-combining buffer is empty, and no MDRAIN of it is queued: a
release and an acquire wait for nothing (R155, R160, R161). -/
def State.Quiet (s : State) (sk : Skein) : Prop :=
  s.NoRequests ∧ s.drainsOf s.cur.skein none = false ∧ (s.core (sk.core.getD 0)).wc = []

/-- No copy and no engine operation is in flight, and every scratchpad's banks are sound: an access of scratch waits for
nothing and finds its words (R198, R202, R221, R250). -/
def State.ScratchClean (s : State) : Prop :=
  s.copies = [] ∧ ∀ c, (s.core c).engine = [] ∧ (s.scratch c).groups = [] ∧ (s.scratch c).eccData = [] ∧
    (s.scratch c).eccSel = [] ∧ (s.scratch c).poison = []

/-- The bytes of a span of a scratchpad. -/
def State.spanBytes (s : State) (x : Span) : List Byte := readBytes (s.scratch x.core).data x.lo x.len

/-- Whether a byte of a core's scratchpad lies in a span. -/
def Span.holds (x : Span) (c p : Nat) : Prop := c = x.core ∧ x.lo ≤ p ∧ p < x.lo + x.len

/-- A word whose strands each send one request to a home of this module, where the checks of every strand whose guard is
true pass and no L1 line answers: the request, the strand after it, no byte of memory changed. `ea` is the effective
address and `n` the bytes; the write-combining buffer names no request that does not exist yet; `want` says what the request of a strand carries; `after` what becomes of the strand (R154,
R172 to R176, R180 to R190). -/
def SendsEach (i : Instr) (g : BitVec 3) (kind : ReqKind) (base : Strand → Dword) (ea : Word → Strand → Int) (n : Nat)
    (right : Nat → Bool) (want : Word → Strand → Req → Prop) (after : Nat → Strand → Strand) : Prop :=
  ∀ (s : State) (sk : Skein), s.CanRun sk i → s.cur.reuse = false →
    (∀ j ∈ s.cur.strands, ∀ x, s.strand? s.cur.skein j = some x → x.rpr g.toNat = true →
      ∃ va, s.accessCheck sk (base x) (ea s.cur.k x) n right = .ok va ∧ s.isLocal va = true ∧
        s.l1Find s.cur.skein (s.domainOf sk.ctx) va = none) →
    (∀ e ∈ (s.core (sk.core.getD 0)).wc, ∀ n ∈ e.reqs, n < s.nextId) →
    goesTo (exec i s) (fun t => t.homes = s.homes ∧
      (∀ k j, (k ≠ s.cur.skein ∨ j ∉ s.cur.strands) → t.strand? k j = s.strand? k j) ∧
      (∀ j ∈ s.cur.strands, ∀ x, s.strand? s.cur.skein j = some x →
        if x.rpr g.toNat then ∃ id r, t.req? id = some r ∧ t.strand? s.cur.skein j = some (after id x) ∧ r.kind = kind ∧
          r.skein = s.cur.skein ∧ r.strand = j ∧ (r.va : Int) = ea s.cur.k x ∧ r.size = n ∧ r.stage = .outbound ∧
          r.pc = s.cur.pc ∧ want s.cur.k x r
        else t.strand? s.cur.skein j = some x.advance))

/-! ### Events -/

/-- No event queue is open: a record raised in this step reaches the host complex's ring alone, and no byte of memory
(R346). -/
def State.NoEventQueue (s : State) : Prop := ∀ e ∈ Tab.list s.queues, e.2.kind ≠ 3

/-- An event of the skein `k`: the strands, wefts and skeins of the module may change, no register of any strand does, and
everything else is as it was. -/
def MovesStrands (i : Instr) (s : State) (after : State → Prop) : Prop :=
  goesTo (exec i s) (fun t => t = { s with skeins := t.skeins } ∧ s.RegistersKept t ∧ after t)

/-- A reply of this module's home, which has reached its core, ends its request; the strand of the request becomes `f` of
itself, no other strand and no byte of memory changes. -/
def EndsRequest (i : Instr) (s : State) (id : Nat) (r : Req) (f : Strand → Strand) : Prop :=
  goesTo (exec i s) (fun t => t.homes = s.homes ∧ t.req? id = none ∧
    ∀ k j, t.strand? k j = if k = r.skein ∧ j = r.strand then (s.strand? k j).map f else s.strand? k j)

/-- After a step, the bytes of memory from `lo` are `bs`, and every other byte is as it was. -/
def State.WroteOnly (s t : State) (lo : Nat) (bs : List Byte) : Prop :=
  ∀ p, Cells.get 0 t.homes.mem p = if lo ≤ p ∧ p < lo + bs.length then bs.getD (p - lo) 0 else Cells.get 0 s.homes.mem p

/-- The command at the head of a queue is one of `op` that the module takes next: its record `b` has no field wrong, its
queue may ask for it, it asks for no completion, and `ctx` is the context that it acts in (R341 to R344). -/
def State.Takes (s : State) (qn op : Nat) (used : List (Nat × Nat)) (q : Queue) (b : List Byte) (ctx : Nat) : Prop :=
  Tab.get s.queues qn = some q ∧ q.kind ≤ 1 ∧ s.takeable qn q = true ∧ s.arbiter qn q = true ∧ s.headRecord q = .ok b ∧
  fieldAt b 0 2 = op ∧ fieldAt b 2 1 < 2 ∧ fieldAt b 3 1 = 0 ∧ fieldAt b 8 8 = 0 ∧ (q.kind = 0 → op ≤ 5) ∧
  ctx = (if q.kind = 1 ∧ op ≤ 5 then fieldAt b 56 1 else q.ctx) ∧
  unusedZero b (used ++ if q.kind = 1 ∧ op ≤ 5 then [(56, 1)] else []) = true ∧
  (q.kind = 1 → op ≤ 5 → ∃ c, s.ctx? ctx = some c ∧ c.domain = q.domain)

/-- An event that runs the command at the head of a queue takes it: the head moves on, and `after` holds. -/
def TakesCommand (i : Instr) (s : State) (qn : Nat) (q : Queue) (after : State → Prop) : Prop :=
  goesTo (exec i s) (fun t => (∃ y, Tab.get t.queues qn = some y ∧ y.head = (q.head + 1) % 2 ^ 32 ∧ y.tail = q.tail) ∧ after t)

/-- The management port serves a request: bring-up has begun, no stage of it has failed, and the request is signed with the
operator's key under a higher sequence number than any before (R408). -/
def State.Serves (s : State) (a : Auth) (request : List Byte) : Prop := s.served = true ∧ s.authentic a request = true

/-- The tables of every skein are in canonical form: a strand or weft has one record, found where it is listed. -/
def State.TablesWf (s : State) : Prop :=
  ∀ k sk, (k, some sk) ∈ s.skeins → Cells.wf none sk.strands = true ∧ Cells.wf none sk.wefts = true

end Sys2Proof.Machine
end

