-- ==== Sys2Proof/Certificates/Slice0/Obligations.lean ====
section
/-! DEFINITION. Certificates/Slice0/Obligations.lean: what is claimed of the model. -/

open Sys2Proof Sys2Proof.Machine

/-! ### Encoding (R37, R41 to R51) -/

/-- R49: every well-formed instruction that has a word is read back from that word, with every operand. -/
def Obligations.EncodedWordsDecode : Prop :=
  ∀ (i : Instr) (w : Word), i.wellFormed = true → encode i = some w → decodeWord w = .ok i

/-- R51: the decoder drops no bit: what it reads from a word is well-formed and has that word and no other. -/
def Obligations.DecodedWordsEncode : Prop :=
  ∀ (i : Instr) (w : Word), decodeWord w = .ok i → i.wellFormed = true ∧ encode i = some w

/-! ### Integer words (R87 to R93) -/

/-- R87: INT.A. -/
def Obligations.IntegerA : Prop :=
  ∀ (c : BitVec 1) (g : BitVec 3) (d a b : VReg),
    RunsBinary (.add c g d a b) g d a b (fun x y => x + y) ∧
    RunsBinary (.sub c g d a b) g d a b (fun x y => x - y) ∧
    RunsBinary (.mul c g d a b) g d a b (fun x y => x * y) ∧
    RunsBinary (.mulh c g d a b) g d a b (fun x y => (x.signExtend 64 * y.signExtend 64).extractLsb' 32 32) ∧
    RunsBinary (.mulhu c g d a b) g d a b (fun x y => (x.setWidth 64 * y.setWidth 64).extractLsb' 32 32) ∧
    RunsBinary (.and c g d a b) g d a b (fun x y => x &&& y) ∧
    RunsBinary (.or c g d a b) g d a b (fun x y => x ||| y) ∧
    RunsBinary (.xor c g d a b) g d a b (fun x y => x ^^^ y) ∧
    RunsBinary (.andn c g d a b) g d a b (fun x y => x &&& ~~~y) ∧
    RunsBinary (.shl c g d a b) g d a b (fun x y => x <<< (y &&& 31)) ∧
    RunsBinary (.shr c g d a b) g d a b (fun x y => x >>> (y &&& 31)) ∧
    RunsBinary (.sar c g d a b) g d a b (fun x y => x.sshiftRight (y &&& 31).toNat) ∧
    RunsBinary (.min c g d a b) g d a b (fun x y => if x.slt y then x else y) ∧
    RunsBinary (.max c g d a b) g d a b (fun x y => if x.slt y then y else x) ∧
    RunsBinary (.minu c g d a b) g d a b (fun x y => if x.ult y then x else y) ∧
    RunsBinary (.maxu c g d a b) g d a b (fun x y => if x.ult y then y else x)

/-- R88: INT.B. -/
def Obligations.IntegerB : Prop :=
  ∀ (c : BitVec 1) (g : BitVec 3) (d a b : VReg),
    RunsBinary (.addsat c g d a b) g d a b (fun x y =>
      let r := x.toInt + y.toInt
      if 2 ^ 31 ≤ r then 0x7FFFFFFF else if r < -2 ^ 31 then 0x80000000 else x + y) ∧
    RunsBinary (.subsat c g d a b) g d a b (fun x y =>
      let r := x.toInt - y.toInt
      if 2 ^ 31 ≤ r then 0x7FFFFFFF else if r < -2 ^ 31 then 0x80000000 else x - y) ∧
    RunsBinary (.addsatu c g d a b) g d a b (fun x y => if 2 ^ 32 ≤ x.toNat + y.toNat then 0xFFFFFFFF else x + y) ∧
    RunsBinary (.subsatu c g d a b) g d a b (fun x y => if x.ult y then 0 else x - y) ∧
    RunsBinary (.div c g d a b) g d a b (fun x y => if y = 0 then 0xFFFFFFFF else x.sdiv y) ∧
    RunsBinary (.divu c g d a b) g d a b (fun x y => if y = 0 then 0xFFFFFFFF else x / y) ∧
    RunsBinary (.rem c g d a b) g d a b (fun x y => if y = 0 then x else x.srem y) ∧
    RunsBinary (.remu c g d a b) g d a b (fun x y => if y = 0 then x else x % y) ∧
    RunsUnary (.popc c g d a) g d a (fun x => BitVec.ofNat 32 ((List.range 32).countP (fun j => x.getLsbD j))) ∧
    RunsUnary (.clz c g d a) g d a (fun x =>
      BitVec.ofNat 32 ((List.range 32).takeWhile (fun j => !x.getLsbD (31 - j))).length) ∧
    RunsUnary (.ctz c g d a) g d a (fun x =>
      BitVec.ofNat 32 ((List.range 32).takeWhile (fun j => !x.getLsbD j)).length) ∧
    RunsUnary (.brev c g d a) g d a (fun x => x.reverse) ∧
    RunsUnary (.abs c g d a) g d a (fun x => if x.msb then -x else x) ∧
    RunsUnary (.neg c g d a) g d a (fun x => -x) ∧
    RunsBinary (.absdiff c g d a b) g d a b (fun x y => BitVec.ofInt 32 |x.toInt - y.toInt|)

/-- R89 and R90: 64-bit and address arithmetic; the sources are read before either word is written. R91 to R93: the
immediate forms. -/
def Obligations.WideAndImmediate : Prop :=
  ∀ (c : BitVec 1) (g : BitVec 3) (d a b : VReg) (i : BitVec 10) (n : BitVec 5) (h : BitVec 16),
    let pp (w : Instr) (f : Dword → Dword → Dword) : Prop :=
      RunsPerLane w g (fun _ k x => x.wp d.toNat (f (x.rp a.toNat) (x.rbp k b.toNat)))
    let pv (w : Instr) (f : Dword → Word → Dword) : Prop :=
      RunsPerLane w g (fun _ k x => x.wp d.toNat (f (x.rp a.toNat) (x.rb k b.toNat)))
    let vv (w : Instr) (f : Word → Word → Dword) : Prop :=
      RunsPerLane w g (fun _ k x => x.wp d.toNat (f (x.rv a.toNat) (x.rb k b.toNat)))
    pp (.add64 c g d a b) (fun x y => x + y) ∧ pp (.sub64 c g d a b) (fun x y => x - y) ∧
    pv (.shl64 c g d a b) (fun x y => x <<< (y &&& 63)) ∧ pv (.shr64 c g d a b) (fun x y => x >>> (y &&& 63)) ∧
    pv (.sar64 c g d a b) (fun x y => x.sshiftRight (y &&& 63).toNat) ∧
    vv (.mulw c g d a b) (fun x y => x.signExtend 64 * y.signExtend 64) ∧
    vv (.mulwu c g d a b) (fun x y => x.setWidth 64 * y.setWidth 64) ∧
    pp (.and64 c g d a b) (fun x y => x &&& y) ∧ pp (.or64 c g d a b) (fun x y => x ||| y) ∧
    pp (.xor64 c g d a b) (fun x y => x ^^^ y) ∧
    pv (.addw c g d a b) (fun x y => x + y.setWidth 64) ∧ pv (.addws c g d a b) (fun x y => x + y.signExtend 64) ∧
    pv (.lea2 c g d a b) (fun x y => x + y.setWidth 64 * 2) ∧ pv (.lea4 c g d a b) (fun x y => x + y.setWidth 64 * 4) ∧
    pv (.lea8 c g d a b) (fun x y => x + y.setWidth 64 * 8) ∧
    pv (.lea16 c g d a b) (fun x y => x + y.setWidth 64 * 16) ∧
    RunsPerLane (.add64i c g d a i) g (fun _ _ x => x.wp d.toNat (x.rp a.toNat + i.signExtend 64)) ∧
    RunsUnary (.addi c g d a i) g d a (fun x => x + i.signExtend 32) ∧
    RunsUnary (.andi c g d a i) g d a (fun x => x &&& i.setWidth 32) ∧
    RunsUnary (.ori c g d a i) g d a (fun x => x ||| i.setWidth 32) ∧
    RunsUnary (.xori c g d a i) g d a (fun x => x ^^^ i.setWidth 32) ∧
    RunsUnary (.shli c g d a n) g d a (fun x => x <<< n) ∧
    RunsUnary (.shri c g d a n) g d a (fun x => x >>> n) ∧
    RunsUnary (.sari c g d a n) g d a (fun x => x.sshiftRight n.toNat) ∧
    RunsUnary (.roli c g d a n) g d a (fun x => x <<< n.toNat ||| x >>> (32 - n.toNat)) ∧
    RunsPerLane (.movi c g d h) g (fun _ _ x => x.wv d.toNat (h.signExtend 32)) ∧
    RunsPerLane (.movhi c g d h) g (fun _ _ x => x.wv d.toNat (h ++ (x.rv d.toNat).setWidth 16))

/-! ### Predicates, moves and index registers (R94 to R97, R108 to R110) -/

/-- R94 to R97: comparisons, SEL (which its selector does not guard) and PRED. -/
def Obligations.Predicates : Prop :=
  ∀ (c q : BitVec 1) (g p u v : BitVec 3) (k : BitVec 3) (d a b : VReg) (f : BitVec 4) (h : BitVec 3),
    RunsPredicate (.icmp c g p k a b f) g p (fun kk x =>
      let y := x.rv a.toNat
      let z := x.rb kk b.toNat
      let r : Bool := match f.toNat with
        | 0 => y = z
        | 1 => y ≠ z
        | 2 => y.slt z
        | 3 => y.sle z
        | 4 => z.slt y
        | 5 => z.sle y
        | 6 => y.ult z
        | 7 => y.ule z
        | 8 => z.ult y
        | 9 => z.ule y
        | 10 => y &&& z ≠ 0
        | _ => y &&& z = 0
      match k.toNat with
      | 0 => r
      | 1 => x.rpr p.toNat && r
      | 2 => x.rpr p.toNat || r
      | _ => !r) ∧
    RunsFloating (.fcmp c g p k a b q h) g q
      (fun _ kk x => x.wpr p.toNat (combine k.toNat (x.rpr p.toNat) (fcmpCond h.toNat (x.rv a.toNat) (x.rb kk b.toNat)).1))
      (fun _ kk x => (fcmpCond h.toNat (x.rv a.toNat) (x.rb kk b.toNat)).2) ∧
    RunsPerLane (.sel c g d a b) 7 (fun _ kk x => x.wv d.toNat (if x.rpr g.toNat then x.rv a.toNat else x.rb kk b.toNat)) ∧
    RunsPredicate (.pand c g p u v) g p (fun _ x => x.rpr u.toNat && x.rpr v.toNat) ∧
    RunsPredicate (.por c g p u v) g p (fun _ x => x.rpr u.toNat || x.rpr v.toNat) ∧
    RunsPredicate (.pxor c g p u v) g p (fun _ x => x.rpr u.toNat != x.rpr v.toNat) ∧
    RunsPredicate (.pandn c g p u v) g p (fun _ x => x.rpr u.toNat && !x.rpr v.toNat) ∧
    RunsPredicate (.pnot c g p u) g p (fun _ x => !x.rpr u.toNat) ∧
    RunsPredicate (.pmov c g p u) g p (fun _ x => x.rpr u.toNat) ∧
    RunsPerLane (.ptov c g d u) g (fun _ _ x => x.wv d.toNat (if x.rpr u.toNat then 1 else 0)) ∧
    RunsPredicate (.vtop c g p a) g p (fun _ x => x.rv a.toNat != 0)

/-- R95: what FCMP compares: NaN operands are unordered, the ordered conditions compare values, −0 equals +0, and NV comes
of a signalling NaN, or of any NaN in an ordered condition. -/
def Obligations.FloatComparison : Prop :=
  ∀ (h : Nat) (x y : Word), h < 8 →
    let nan (w : Word) : Bool := (w &&& 0x7FFFFFFF).ult 0x7F800001 == false
    let signalling (w : Word) : Bool := nan w && !w.getLsbD 22
    let key (w : Word) : Int := if w.msb then -((w &&& 0x7FFFFFFF).toNat : Int) else (w.toNat : Int)
    let un := nan x || nan y
    fcmpCond h x y =
      (match h with
        | 0 => !un && decide (key x = key y)
        | 1 => un || decide (key x ≠ key y)
        | 2 => !un && decide (key x < key y)
        | 3 => !un && decide (key x ≤ key y)
        | 4 => !un && decide (key y < key x)
        | 5 => !un && decide (key y ≤ key x)
        | 6 => un
        | _ => !un,
       if (2 ≤ h ∧ h ≤ 5 ∧ un = true) ∨ signalling x = true ∨ signalling y = true then fNV else 0)

/-- R64, R108 to R110: moves and index registers. Where the register that an RDX or WRX reaches lies in its window and
below .vregs it is read or written; where it lies outside in every strand whose guard is true, they trap INDEX with TVAL
= e and write nothing. -/
def Obligations.IndexRegisters : Prop :=
  ∀ (c : BitVec 1) (g : BitVec 3) (d a : VReg) (n : BitVec 2) (o : BitVec 6),
    let e (x : Strand) : Int := ((x.rn n.toNat).setWidth 8).toInt + o.toInt
    let inside (sk : Skein) (x : Strand) : Prop :=
      ((x.rn n.toNat).extractLsb' 8 6).toNat ≤ e x ∧ e x ≤ ((x.rn n.toNat).extractLsb' 14 6).toNat ∧ e x < sk.kern.vregs
    let reached (i : Instr) (f : Strand → Strand) : Prop :=
      ∀ (s : State) (sk : Skein), s.CanRun sk i →
        (∀ j ∈ s.cur.strands, ∀ x, s.strand? s.cur.skein j = some x → x.rpr g.toNat = true → inside sk x) →
        goesTo (exec i s) (fun t => s.StrandsDone t g.toNat (fun _ x => (f x).advance) ∧ s.OnlyStrands t)
    let outside (sk : Skein) (x : Strand) : Prop :=
      e x < ((x.rn n.toNat).extractLsb' 8 6).toNat ∨ ((x.rn n.toNat).extractLsb' 14 6).toNat < e x ∨ sk.kern.vregs ≤ e x
    RunsUnary (.mov c g d a) g d a (fun x => x) ∧
    TrapsEach (.rdx c g d n o) g (fun _ sk x => outside sk x) 0x04 (fun _ x => BitVec.ofInt 32 (e x)) ∧
    TrapsEach (.wrx c g d n o) g (fun _ sk x => outside sk x) 0x04 (fun _ x => BitVec.ofInt 32 (e x)) ∧
    reached (.rdx c g d n o) (fun x => x.wv d.toNat (x.rv (e x).toNat)) ∧
    reached (.wrx c g d n o) (fun x => x.wv (e x).toNat (x.rv d.toNat)) ∧
    RunsPerLane (.nset c g n a) g (fun _ _ x => x.wn n.toNat ((x.rv a.toNat).setWidth 20)) ∧
    RunsPerLane (.nget c g d n) g (fun _ _ x => x.wv d.toNat ((x.rn n.toNat).setWidth 32)) ∧
    RunsPerLane (.nadv c g n a) g (fun _ _ x => x.wn n.toNat
      ((x.rn n.toNat).extractLsb' 8 12 ++ ((x.rn n.toNat).setWidth 8 + (x.rv a.toNat).setWidth 8))) ∧
    RunsPerLane (.nclr c g n) g (fun _ _ x => x.wn n.toNat 0)

/-! ### Floating words (R98 to R107) -/

/-- R98 to R100: FALU and FFMA, by the model's rounding of an exact result (Machine/Float.lean) and FTZ32 (R24). -/
def Obligations.FloatArithmetic : Prop :=
  ∀ (c q : BitVec 1) (g : BitVec 3) (d a b : VReg),
    let two (i : Instr) (f : FpCtx → FpVal → FpVal → FpOut) : Prop :=
      RunsFp i g q d (fun m k x => ftz32 m (f m (fpv (x.rv a.toNat)) (fpv (x.rb k b.toNat))))
    let fused (i : Instr) (np nd : Bool) : Prop :=
      RunsFp i g q d (fun m k x =>
        ftz32 m (Fmt.fp32.fma m np nd (fpv (x.rv a.toNat)) (fpv (x.rb k b.toNat)) (fpv (x.rv d.toNat))))
    two (.fadd c g d a b q) Fmt.fp32.add ∧ two (.fsub c g d a b q) Fmt.fp32.sub ∧
    two (.fmul c g d a b q) Fmt.fp32.mul ∧ two (.fdiv c g d a b q) Fmt.fp32.div ∧
    RunsFp (.fmin c g d a b q) g q d (fun m k x => Fmt.fp32.minMax m false (x.rv a.toNat).toNat (x.rb k b.toNat).toNat) ∧
    RunsFp (.fmax c g d a b q) g q d (fun m k x => Fmt.fp32.minMax m true (x.rv a.toNat).toNat (x.rb k b.toNat).toNat) ∧
    RunsBinary (.fcopysign c g d a b q) g d a b (fun x y => y.extractLsb' 31 1 ++ x.setWidth 31) ∧
    RunsFp (.fscale c g d a b q) g q d (fun m k x =>
      ftz32 m (Fmt.fp32.fscale m (fpv (x.rv a.toNat)) (x.rb k b.toNat).toInt)) ∧
    fused (.fma c g d a b q) false false ∧ fused (.fms c g d a b q) false true ∧
    fused (.fnma c g d a b q) true false ∧ fused (.fnms c g d a b q) true true

/-- R101 to R103: FSPEC, whose result within its bound is fixed but open (log 7), and HALF. -/
def Obligations.FloatFunctionsAndHalves : Prop :=
  ∀ (c q y : BitVec 1) (g : BitVec 3) (d a b : VReg),
    let one (i : Instr) (f : FpCtx → Word → FpOut) : Prop :=
      RunsFp i g q d (fun m _ x => ftz32 m (f m (x.rv a.toNat)))
    let half (i : Instr) (op : Nat) : Prop :=
      RunsFp i g q d (fun m k x => halfOp (y == 1) op m (x.rv a.toNat) (x.rb k b.toNat) (x.rv d.toNat))
    one (.rcp c g d a q) fspecRcp ∧ one (.rsq c g d a q) fspecRsq ∧
    one (.sqrt c g d a q) (fun m x => Fmt.fp32.sqrt m (fpv x)) ∧ one (.exp2 c g d a q) fspecExp2 ∧
    one (.log2 c g d a q) fspecLog2 ∧ one (.sinpi c g d a q) (fspecSin false) ∧
    one (.cospi c g d a q) (fspecSin true) ∧ one (.tanh c g d a q) fspecTanh ∧
    half (.hadd c g d a b q y) 0 ∧ half (.hsub c g d a b q y) 1 ∧ half (.hmul c g d a b q y) 2 ∧
    half (.hfma c g d a b q y) 3

/-- R104 to R107: CVT and CVT8; they act as with Q = 0 (R84). The flags of PK8 and PK4 for a negative
value that rounds to zero are the model's reading of R30 (log 4). -/
def Obligations.Conversions : Prop :=
  ∀ (c e z : BitVec 1) (g : BitVec 3) (d a b : VReg) (k2 : BitVec 2) (k3 : BitVec 3),
    let one (i : Instr) (f : FpCtx → Word → FpOut) : Prop := RunsFp i g 0 d (fun m _ x => f m (x.rv a.toNat))
    let fmt : Fmt := if e = 1 then Fmt.e5m2 else Fmt.e4m3
    one (.ftoi c g d a) (fun m x => fpToInt m m.rm (-2147483648) 2147483647 (fpv x)) ∧
    one (.ftoiz c g d a) (fun m x => fpToInt m 1 (-2147483648) 2147483647 (fpv x)) ∧
    one (.ftou c g d a) (fun m x => fpToInt m m.rm 0 4294967295 (fpv x)) ∧
    one (.itof c g d a) (fun m x => ftz32 m (Fmt.fp32.round m.rm x.msb x.toInt.natAbs 0 false)) ∧
    one (.utof c g d a) (fun m x => ftz32 m (Fmt.fp32.round m.rm false x.toNat 0 false)) ∧
    RunsFp (.pkh c g d a b) g 0 d (fun m k x => packHalves Fmt.fp16 m (x.rv a.toNat) (x.rb k b.toNat)) ∧
    RunsFp (.pkb c g d a b) g 0 d (fun m k x => packHalves Fmt.bf16 m (x.rv a.toNat) (x.rb k b.toNat)) ∧
    one (.xthl c g d a) (fun m x => ftz32 m (extractHalf Fmt.fp16 m 0 x)) ∧
    one (.xthh c g d a) (fun m x => ftz32 m (extractHalf Fmt.fp16 m 1 x)) ∧
    one (.xtbl c g d a) (fun m x => ftz32 m (extractHalf Fmt.bf16 m 0 x)) ∧
    one (.xtbh c g d a) (fun m x => ftz32 m (extractHalf Fmt.bf16 m 1 x)) ∧
    one (.frnd c g d a) (fun m x => ftz32 m (fpRoundInt m m.rm true (fpv x))) ∧
    one (.frndz c g d a) (fun m x => ftz32 m (fpRoundInt m 1 false (fpv x))) ∧
    RunsFloating (.pk8 c g d a k2 e z) g 0
      (fun _ _ x => x.wv d.toNat (insertBits (x.rv d.toNat) (8 * k2.toNat) 8 (toFp8 fmt (z == 1) (fpv (x.rv a.toNat))).bits))
      (fun _ _ x => (toFp8 fmt (z == 1) (fpv (x.rv a.toNat))).flags) ∧
    one (.xt8 c g d a k2 e) (fun m x => ftz32 m (fromFp8 fmt m ((x >>> (8 * k2.toNat)).setWidth 8).toNat)) ∧
    RunsFloating (.pk4 c g d a k3 z) g 0
      (fun _ _ x => x.wv d.toNat (insertBits (x.rv d.toNat) (4 * k3.toNat) 4 (toE2M1 (z == 1) (fpv (x.rv a.toNat))).bits))
      (fun _ _ x => (toE2M1 (z == 1) (fpv (x.rv a.toNat))).flags) ∧
    RunsUnary (.xt4 c g d a k3) g d a (fun x => BitVec.ofNat 32 (fromE2M1 ((x >>> (4 * k3.toNat)).setWidth 4).toNat))

/-! ### Cross-lane words (R121 to R128) -/

/-- R122, R125: XLANE. A source lane outside the weft gives the reader's own register. -/
def Obligations.CrossLane : Prop :=
  ∀ (c y : BitVec 1) (g p u : BitVec 3) (d a b : VReg),
    let shuffle (i : Instr) (f : Nat → Nat → Int) : Prop :=
      RunsAcrossPlain i g y (fun sk w _ k j x =>
        x.wv d.toNat (laneReg sk w a.toNat (f (j - w) (x.rb k b.toNat).toNat) (x.rv a.toNat)))
    let count (sk : Skein) (parts : List Nat) : Nat := partCount sk u.toNat parts
    shuffle (.shfl c g d a b y) (fun _ v => v) ∧ shuffle (.shflx c g d a b y) (fun i v => (i ^^^ v : Nat)) ∧
    shuffle (.shflu c g d a b y) (fun i v => i - v) ∧ shuffle (.shfld c g d a b y) (fun i v => i + v) ∧
    RunsAcrossPlain (.bcast c g d a b y) g y (fun sk w parts k _ x =>
      let from' : Nat := ((parts.head?).bind (fun q => (Tab.get sk.strands q).map (fun z => (z.rb k b.toNat).toNat))).getD 0
      x.wv d.toNat (laneReg sk w a.toNat from' (x.rv a.toNat))) ∧
    RunsAcrossPlain (.vote c g p 0 u y) g y (fun sk _ parts _ _ x => x.wpr p.toNat (count sk parts == parts.length)) ∧
    RunsAcrossPlain (.vote c g p 1 u y) g y (fun sk _ parts _ _ x => x.wpr p.toNat (decide (0 < count sk parts))) ∧
    RunsAcrossPlain (.vote c g p 2 u y) g y (fun sk _ parts _ _ x => x.wpr p.toNat (count sk parts == 1)) ∧
    RunsAcrossPlain (.count c g d u y) g y (fun sk _ parts _ _ x => x.wv d.toNat (BitVec.ofNat 32 (count sk parts))) ∧
    RunsAcrossPlain (.rank c g d u y) g y (fun sk _ parts _ j x =>
      x.wv d.toNat (BitVec.ofNat 32 (count sk (parts.filter (· < j)))))

/-- R126: REDI gives every participant the combination of register a over the participants. -/
def Obligations.IntegerReductions : Prop :=
  ∀ (c y : BitVec 1) (g : BitVec 3) (d a : VReg),
    let runs (i : Instr) (f : Word → Word → Word) : Prop :=
      RunsAcrossPlain i g y (fun sk _ parts _ _ x => match partVals sk a.toNat parts with
        | [] => x
        | v :: vs => x.wv d.toNat (vs.foldl f v))
    runs (.rediIadd c g d a y) (fun v w => v + w) ∧
    runs (.rediImin c g d a y) (fun v w => if v.slt w then v else w) ∧
    runs (.rediImax c g d a y) (fun v w => if v.slt w then w else v) ∧
    runs (.rediUmin c g d a y) (fun v w => if v.ult w then v else w) ∧
    runs (.rediUmax c g d a y) (fun v w => if v.ult w then w else v) ∧
    runs (.rediAnd c g d a y) (fun v w => v &&& w) ∧ runs (.rediOr c g d a y) (fun v w => v ||| w) ∧
    runs (.rediXor c g d a y) (fun v w => v ^^^ w)

/-- R127, R128: REDF and the scans. FADDT adds over a tree of the G lanes in which a lane without a participant counts as
−0; FADDS and SCANF add in lane order from −0; each addition rounds to nearest, and FTZ32 applies at the end. That FMIN and FMAX with exactly one
participant give its value as it is, a NaN's too, is the model's choice (log 51). -/
def Obligations.FloatReductions : Prop :=
  ∀ (c y : BitVec 1) (g : BitVec 3) (d a : VReg),
    let lvl (sk : Skein) : Bool := decide (sk.kern.level = 2)
    let upTo (parts : List Nat) (j : Nat) : List Nat := parts.filter (· ≤ j)
    let below (parts : List Nat) (j : Nat) : List Nat := parts.filter (· < j)
    let ends (isMax : Bool) (sk : Skein) (_ : Nat) (parts : List Nat) (_ : Nat) : Word × FpFlags :=
      match partVals sk a.toNat parts with
      | [] => (0, 0)
      | v :: vs => seqMinMax (lvl sk) isMax vs v 0
    RunsReduction (.redfFaddt c g d a y) g y d true (fun sk w parts _ =>
      treeSum (lvl sk) 8 ((List.range ((Tab.get sk.wefts w).elim 0 Weft.g)).map (fun j =>
        if parts.contains (w + j) then laneReg sk w a.toNat j 0 else 0x80000000)) 0) ∧
    RunsReduction (.redfFadds c g d a y) g y d true (fun sk _ parts _ =>
      seqSum (lvl sk) (partVals sk a.toNat parts) 0x80000000 0) ∧
    RunsReduction (.redfFmin c g d a y) g y d false (ends false) ∧
    RunsReduction (.redfFmax c g d a y) g y d false (ends true) ∧
    RunsReduction (.redfScanf c g d a y) g y d true (fun sk _ parts j =>
      seqSum (lvl sk) (partVals sk a.toNat (upTo parts j)) 0x80000000 0) ∧
    RunsAcrossPlain (.redfScani c g d a y) g y (fun sk _ parts _ j x =>
      x.wv d.toNat ((partVals sk a.toNat (upTo parts j)).foldl (· + ·) 0)) ∧
    RunsAcrossPlain (.redfScanx c g d a y) g y (fun sk _ parts _ j x =>
      x.wv d.toNat ((partVals sk a.toNat (below parts j)).foldl (· + ·) 0))

/-- R121: an .all word that some live strand of the weft has not reached waits: the strands of the issue set, guard-false
ones among them, are in RENDEZVOUS at the word, and nothing else changes. -/
def Obligations.CrossLaneWaits : Prop :=
  ∀ (i : Instr) (s : State) (sk : Skein) (m : Nat) (x : Strand),
    (crossOf i).isSome = true → (∃ w, encode i = some w ∧ i.wellFormed = true ∧ (w.getLsbD 3 = false)) →
    s.CanRun sk i → m ∈ sk.liveOf s.cur.weft → m ∉ s.cur.strands → s.strand? s.cur.skein m = some x → x.status = .ready →
    goesTo (exec i s) (fun t => s.OnlyStrands t ∧ ∀ k j, t.strand? k j =
      if k = s.cur.skein ∧ j ∈ s.cur.strands then
        (s.strand? k j).map (fun z => { z with status := .rendezvous (.xlane i s.cur.k) })
      else s.strand? k j)

/-! ### Special registers (R76 to R81, R256, R274, R328 to R330) -/

/-- R76, R80, R81, R328: what MFS reads. The registers of a partition or context are those of the skein's; CLOCKLO
latches the high word, which CLOCKHI then returns. -/
def Obligations.SpecialRegisterReads : Prop :=
  ∀ (c : BitVec 1) (g : BitVec 3) (d : VReg),
    let runs (n : BitVec 10) (f : State → Skein → Weft → Nat → Strand → Strand) : Prop :=
      ∀ (s : State) (sk : Skein) (wf : Weft), s.CanRun sk (.mfs c g d n) → s.NoRequests →
        Tab.get sk.wefts s.cur.weft = some wf →
        goesTo (exec (.mfs c g d n) s) (fun t =>
          s.StrandsDone t g.toNat (fun j x => (f s sk wf j x).advance) ∧ s.OnlyStrands t)
    let reads (n : BitVec 10) (v : State → Skein → Weft → Nat → Strand → Nat) : Prop :=
      runs n (fun s sk wf j x => x.wv d.toNat (BitVec.ofNat 32 (v s sk wf j x)))
    let ctx (s : State) (sk : Skein) : Context := (s.ctx? sk.ctx).getD (Context.built 0 0 0 false [])
    let bolt (s : State) (sk : Skein) (f : Bolt → Nat) : Nat := (s.bolt? sk.bolt).elim 0 f
    reads 0x000 (fun _ _ _ j _ => j) ∧ reads 0x001 (fun s _ _ j _ => j - s.cur.weft) ∧
    reads 0x002 (fun _ _ wf j _ => j / wf.g) ∧ reads 0x003 (fun _ _ wf _ _ => wf.g) ∧
    reads 0x004 (fun _ _ wf _ _ => (wf.g + 63) / 64 + if wf.resliced then 16 else 0) ∧
    reads 0x005 (fun _ sk _ _ _ => sk.index) ∧ reads 0x006 (fun s sk _ _ _ => bolt s sk Bolt.index) ∧
    reads 0x007 (fun s sk _ _ _ => bolt s sk Bolt.bale) ∧ reads 0x008 (fun _ sk _ _ _ => sk.nstrand) ∧
    reads 0x009 (fun s sk _ _ _ => bolt s sk Bolt.nskein) ∧ reads 0x00A (fun _ sk _ _ _ => sk.nbolt) ∧
    reads 0x00B (fun _ sk _ _ _ => sk.nbale) ∧
    reads 0x00C (fun _ sk _ _ _ => let n := sk.core.getD 0; n / 48 * 64 + n / 8 % 6 * 8 + n % 8) ∧
    reads 0x00D (fun s sk _ _ _ => s.domainOf sk.ctx % 65536) ∧ reads 0x00E (fun _ sk _ _ _ => sk.args) ∧
    reads 0x00F (fun _ sk _ _ _ => sk.args / 2 ^ 32) ∧ reads 0x010 (fun _ _ _ _ x => x.fpflags.toNat) ∧
    reads 0x011 (fun _ _ _ _ x => x.fpmode.toNat) ∧ reads 0x012 (fun _ _ _ _ x => x.fptrapen.toNat) ∧
    reads 0x013 (fun _ sk _ _ _ => sk.kern.level) ∧ reads 0x014 (fun _ _ _ _ x => x.trapvec.toNat) ∧
    reads 0x015 (fun _ _ _ _ x => x.tpc.toNat) ∧ reads 0x016 (fun _ _ _ _ x => x.tcause.toNat) ∧
    reads 0x017 (fun _ _ _ _ x => x.tval.toNat) ∧
    (∀ n : Fin 8, reads (BitVec.ofNat 10 (0x018 + n)) (fun _ _ wf _ _ => wf.tmask / 2 ^ (32 * n.val))) ∧
    reads 0x020 (fun _ sk _ _ _ => sk.jtimeout) ∧ reads 0x021 (fun _ _ _ _ x => x.onChip.length + x.spilled) ∧
    reads 0x022 (fun _ sk _ j _ => sk.rsBase j) ∧ reads 0x023 (fun _ sk _ j _ => sk.rsBase j / 2 ^ 32) ∧
    reads 0x024 (fun _ sk _ _ _ => sk.kern.scratch) ∧ reads 0x025 (fun _ sk _ _ _ => sk.kern.base + sk.kern.dataOff) ∧
    reads 0x026 (fun _ sk _ _ _ => (sk.kern.base + sk.kern.dataOff) / 2 ^ 32) ∧
    runs 0x028 (fun s _ _ _ x => { x.wv d.toNat (BitVec.ofNat 32 s.clock) with
      clkHi := some (BitVec.ofNat 32 (s.clock / 2 ^ 32)) }) ∧
    reads 0x029 (fun s _ _ _ x => match x.clkHi with
      | some w => w.toNat
      | none => s.clock / 2 ^ 32) ∧
    reads 0x030 (fun s _ _ _ _ =>
      let mine := (Tab.list s.copies).filter (fun e => e.2.skein == s.cur.skein)
      min 256 mine.length + if mine.any (fun e => e.2.parked.isSome) then 512 else 0) ∧
    reads 0x040 (fun s sk _ _ _ => (s.scratch (sk.core.getD 0)).spstat) ∧
    reads 0x041 (fun s sk _ _ _ => (s.scratch (sk.core.getD 0)).spcnt) ∧
    (∀ n : Fin 10, reads (BitVec.ofNat 10 (0x080 + n)) (fun _ sk _ _ _ => Cells.get 0 sk.pmc n)) ∧
    reads 0x200 (fun s sk _ _ _ => sk.ctx + (s.ctx? sk.ctx).elim 0 (fun x => x.partition * 256) +
      if s.privOf sk then 4096 else 0) ∧
    reads 0x201 (fun s sk _ _ _ => (ctx s sk).gen % 4096) ∧
    reads 0x203 (fun s sk _ _ _ => ((s.ctx? sk.ctx).bind (fun x => s.part? x.partition)).elim 0 (fun p => p.settings.cap)) ∧
    reads 0x208 (fun s sk _ _ _ => (s.ctx? sk.ctx).elim 0 Context.tolexp) ∧
    reads 0x209 (fun s sk _ _ _ => (s.core (sk.core.getD 0)).abftinj.toNat) ∧
    reads 0x20A (fun s sk _ _ _ => (s.ctx? sk.ctx).elim 0 Context.wdexp) ∧
    (∀ n : Fin 16, reads (BitVec.ofNat 10 (0x210 + n)) (fun s sk _ _ _ => s.keyRights (sk.core.getD 0) sk.ctx n)) ∧
    reads 0x220 (fun _ sk _ _ _ => sk.dbgSel) ∧ reads 0x221 (fun _ sk _ _ _ => sk.dbgState)

/-- R77, R78, R81, R256, R274, R328, R329: what MTS writes. A register held per strand takes each lane's value, FPFLAGS
where no RST is unacknowledged. One held by more takes the value of the lowest strand whose guard is true (log 31), and
the word changes no register of any strand and no byte of memory. -/
def Obligations.SpecialRegisterWrites : Prop :=
  ∀ (c : BitVec 1) (g : BitVec 3) (a : VReg),
    let each (n : BitVec 10) (f : Word → Strand → Strand) : Prop :=
      RunsPerLane (.mts c g a n) g (fun _ _ x => f (x.rv a.toNat) x)
    let shared (n : BitVec 10) (eff : State → Skein → Word → State → Prop) : Prop :=
      ∀ (s : State) (sk : Skein) (i : Nat) (x : Strand), s.CanRun sk (.mts c g a n) → i ∈ s.acting g →
        (∀ j ∈ s.acting g, i ≤ j) → Tab.get sk.strands i = some x →
        goesTo (exec (.mts c g a n) s) (fun t =>
          s.StrandsDone t 7 (fun _ y => y.advance) ∧ t.homes = s.homes ∧ eff s sk (x.rv a.toNat) t)
    let inSkein (f : Word → Skein → Skein → Prop) : State → Skein → Word → State → Prop := fun s sk v t =>
      ∃ sk', t.skein? s.cur.skein = some sk' ∧ f v sk sk'
    let inCtx (f : Word → Context → Context) : State → Skein → Word → State → Prop := fun s sk v t =>
      t.ctx? sk.ctx = (s.ctx? sk.ctx).map (f v)
    (∀ (s : State) (sk : Skein), s.CanRun sk (.mts c g a 0x010) → s.NoRequests →
      goesTo (exec (.mts c g a 0x010) s) (fun t =>
        s.StrandsDone t g.toNat (fun _ x => { x with fpflags := (x.rv a.toNat).setWidth 5 }.advance) ∧ s.OnlyStrands t)) ∧
    each 0x011 (fun v x => { x with fpmode := v.setWidth 3 }) ∧
    each 0x012 (fun v x => { x with fptrapen := v.setWidth 5 }) ∧ each 0x014 (fun v x => { x with trapvec := v }) ∧
    each 0x015 (fun v x => { x with tpc := v }) ∧ each 0x016 (fun v x => { x with tcause := v.setWidth 8 }) ∧
    each 0x017 (fun v x => { x with tval := v }) ∧
    shared 0x004 (fun s _ v t => t.weft? s.cur.skein s.cur.weft = (s.weft? s.cur.skein s.cur.weft).map (fun w =>
      if v.getLsbD 4 then { w with resliced := false } else w)) ∧
    shared 0x020 (inSkein (fun v _ y => y.jtimeout = max 64 (v.toNat % 2 ^ 20))) ∧
    shared 0x208 (inCtx (fun v y => { y with tolexp := max 8 (min 20 (v.toNat % 32)) })) ∧
    shared 0x209 (fun _ sk v t => (t.core (sk.core.getD 0)).abftinj = v &&& 0xBFFFFE00) ∧
    shared 0x20A (inCtx (fun v y => { y with
      wdexp := let e := v.toNat % 64; if e = 0 then 0 else max 20 (min 34 e) })) ∧
    shared 0x220 (inSkein (fun v _ y => y.dbgSel = v.toNat % 1024)) ∧
    (∀ n : Fin 16, shared (BitVec.ofNat 10 (0x210 + n)) (fun s sk v t =>
      (s.ctx? sk.ctx).isSome = true → t.keyRights (sk.core.getD 0) sk.ctx n = v.toNat % 4))

/-! ### Control (R39, R40, R132 to R145) -/

/-- R39, R133: NOP and the branches go where R39 says. A target that R40 rejects traps BAD_TARGET with TVAL the target. -/
def Obligations.Branches : Prop :=
  ∀ (g : BitVec 3) (d : BitVec 22) (a : VReg),
    let disp (x : Strand) : Int := (((x.pc.toNat / 4 : Nat) : Int) + d.toInt) * 4
    let ok (sk : Skein) (t : Int) : Prop := 0 ≤ t ∧ t % 4 ≠ 3 ∧ t * 4 < sk.kern.codeSize
    RunsPerLane .nop 7 (fun _ _ x => x) ∧
    RunsWhere (.br g d) g (fun _ sk x => ok sk (disp x)) (fun _ _ _ x => { x with pc := BitVec.ofInt 32 (disp x) }) ∧
    RunsWhere (.brx g a) g (fun _ sk x => ok sk (x.rv a.toNat).toNat) (fun _ _ _ x => { x with pc := x.rv a.toNat }) ∧
    TrapsEach (.br g d) g (fun _ sk x => ¬ ok sk (disp x)) 0x09 (fun _ x => BitVec.ofInt 32 (disp x)) ∧
    TrapsEach (.brx g a) g (fun _ sk x => ¬ ok sk (x.rv a.toNat).toNat) 0x09 (fun _ x => x.rv a.toNat)

/-- R133, R134, R136, R137: CALL and RET on the four entries of the chip. A call that would pass the declared depth traps
STACK_OVERFLOW, a return with nothing stacked STACK_UNDERFLOW. -/
def Obligations.CallsAndReturns : Prop :=
  ∀ (g : BitVec 3) (d : BitVec 22) (a : VReg),
    let disp (x : Strand) : Int := (((x.pc.toNat / 4 : Nat) : Int) + d.toInt) * 4
    let ok (sk : Skein) (t : Int) : Prop := 0 ≤ t ∧ t % 4 ≠ 3 ∧ t * 4 < sk.kern.codeSize
    let fits (sk : Skein) (x : Strand) : Prop := x.onChip.length < 4 ∧ x.onChip.length + x.spilled < sk.kern.rstack
    let full (sk : Skein) (x : Strand) : Prop := sk.kern.rstack ≤ x.onChip.length + x.spilled
    let push (x : Strand) (t : Word) : Strand := { x with onChip := nextPc x.pc :: x.onChip, pc := t }
    RunsWhere (.call g d) g (fun _ sk x => ok sk (disp x) ∧ fits sk x) (fun _ _ _ x => push x (BitVec.ofInt 32 (disp x))) ∧
    RunsWhere (.callx g a) g (fun _ sk x => ok sk (x.rv a.toNat).toNat ∧ fits sk x)
      (fun _ _ _ x => push x (x.rv a.toNat)) ∧
    RunsWhere (.ret g) g (fun _ sk x => ∃ r rest, x.onChip = r :: rest ∧ ok sk r.toNat)
      (fun _ _ _ x => { x with onChip := x.onChip.tail, pc := x.onChip.headD 0 }) ∧
    TrapsEach (.call g d) g (fun _ sk x => ok sk (disp x) ∧ full sk x) 0x06
      (fun s _ => (s.skein? s.cur.skein).elim 0 (fun sk => BitVec.ofNat 32 sk.kern.rstack)) ∧
    TrapsEach (.callx g a) g (fun _ sk x => ok sk (x.rv a.toNat).toNat ∧ full sk x) 0x06
      (fun s _ => (s.skein? s.cur.skein).elim 0 (fun sk => BitVec.ofNat 32 sk.kern.rstack)) ∧
    TrapsEach (.ret g) g (fun _ _ x => x.onChip = [] ∧ x.spilled = 0) 0x05 (fun _ _ => 0)

/-- R147: TRAP and BREAK trap every strand whose guard is true, with SOFT_TRAP and its number, and with BREAK. R149: TRETR
goes back to TPC and TRET past it, where no group of the weft is held; after a trap of an encoding TRET
goes past the whole chain. The strand's handler is over. -/
def Obligations.SoftwareTraps : Prop :=
  ∀ (g : BitVec 3) (n : BitVec 6),
    TrapsEach (.trap g n) g (fun _ _ _ => True) 0x30 (fun _ _ => n.setWidth 32) ∧
    TrapsEach (.breakp g) g (fun _ _ _ => True) 0x31 (fun _ _ => 0) ∧
    ∀ (s : State) (sk : Skein), sk.oldestHeld s.cur.weft = none →
    let past (x : Strand) : Word :=
      if x.tcause = 0x01 ∨ x.tcause = 0x02 ∨ x.tcause = 0x03 ∨ x.tcause = 0x0A then s.afterChain sk x.tpc else nextPc x.tpc
    let returns (i : Instr) (dest : Strand → Word) : Prop :=
      s.CanRun sk i →
      (∀ j ∈ s.cur.strands, ∀ x, s.strand? s.cur.skein j = some x → x.rpr g.toNat = true →
        pcOk sk.kern (dest x).toNat = true) →
      goesTo (exec i s) (fun t =>
        s.StrandsDone t g.toNat (fun _ x => { x with active := false, pc := dest x }) ∧ s.OnlyStrands t)
    returns (.tretr g) (fun x => x.tpc) ∧ returns (.tret g) past

/-- R138: SPLIT goes on in every strand. The record of its target expects the strands whose guard is true too; with no
record of that target and fewer than eight, they get one. R139: a JOIN that no record waits at goes on. R139, R140:
strands that a record expects wait in JOINWAIT at their JOIN while some other strand is still expected; the last one to
arrive releases them all, and the record is free. -/
def Obligations.SplitAndJoin : Prop :=
  ∀ (g : BitVec 3) (d : BitVec 22) (s : State) (sk : Skein) (wf : Weft), s.weft? s.cur.skein s.cur.weft = some wf →
    let target : Word := BitVec.ofInt 32 ((((s.cur.pc.toNat / 4 : Nat) : Int) + d.toInt) * 4)
    let own : List Rejoin := wf.records.filter (fun r => r.target = target)
    (s.CanRun sk (.split g d) → goesTo (exec (.split g d) s) (fun t =>
      s.StrandsDone t 7 (fun _ x => x.advance) ∧ t.homes = s.homes ∧
      ∃ wf', t.weft? s.cur.skein s.cur.weft = some wf' ∧
        (own = [] → s.acting g ≠ [] → wf.records.length < 8 → wf'.records = wf.records ++
          [{ target := target, expected := s.acting g, arrived := [], deadline := none }]) ∧
        (own = [] → (s.acting g = [] ∨ 8 ≤ wf.records.length) → wf'.records = wf.records) ∧
        (own ≠ [] → wf'.records = wf.records.map (fun r =>
          if r.target = target then { r with expected := (r.expected ++ s.acting g).dedup } else r)))) ∧
    (s.CanRun sk (.join g) → (∀ r ∈ wf.records, r.target ≠ s.cur.pc) →
      goesTo (exec (.join g) s) (fun t => s.StrandsDone t 7 (fun _ x => x.advance) ∧ s.OnlyStrands t)) ∧
    (∀ (r : Rejoin), s.CanRun sk (.join g) → wf.records = [r] → r.target = s.cur.pc →
      (∀ i ∈ s.cur.strands, i ∈ s.acting g ∧ i ∈ r.expected) →
      (∀ i, i ∈ r.arrived ↔ ∃ x, s.strand? s.cur.skein i = some x ∧ x.status = .joinwait r.target) →
      (∀ i ∈ r.expected, i ∈ sk.members s.cur.weft) → (∀ i ∈ r.arrived, i ∈ r.expected) →
      goesTo (exec (.join g) s) (fun t => t.homes = s.homes ∧ s.RegistersKept t ∧
        if ∀ i ∈ r.expected, i ∈ r.arrived ∨ i ∈ s.cur.strands then
          (∀ i ∈ r.expected, t.strand? s.cur.skein i =
            (s.strand? s.cur.skein i).map (fun x => { x.advance with status := .ready })) ∧
          (∃ wf', t.weft? s.cur.skein s.cur.weft = some wf' ∧ wf'.records = [])
        else
          (∀ i ∈ s.cur.strands, t.strand? s.cur.skein i =
            (s.strand? s.cur.skein i).map (fun x => { x with status := .joinwait r.target })) ∧
          (∃ wf' r', t.weft? s.cur.skein s.cur.weft = some wf' ∧ wf'.records = [r'] ∧ r'.target = r.target ∧
            r'.arrived = r.arrived ++ s.cur.strands ∧
            r'.deadline = if r.arrived = [] ∧ s.cur.strands ≠ [] then some (s.clock + sk.jtimeout) else r.deadline)))

/-- R143 to R145: WAITT sleeps until its deadline, a YIELD with no other weft ready goes on, and an EXIT ends its strands
where nothing is outstanding, no barrier is pending, no strand waits for another, and some strand of the skein lives on. -/
def Obligations.ExitWaitYield : Prop :=
  ∀ (g : BitVec 3) (a : VReg),
    RunsWhere (.waitt g a) g (fun _ _ _ => True) (fun s _ _ x =>
      if x.rv a.toNat = 0 then x.advance
      else { x.advance with status := .sleeping (s.clock + (x.rv a.toNat).toNat) }) ∧
    (∀ (s : State) (sk : Skein), s.CanRun sk (.yield g) →
      s.othersReady (sk.core.getD 0) s.cur.skein s.cur.weft false = false →
      goesTo (exec (.yield g) s) (fun t => s.StrandsDone t 7 (fun _ x => x.advance) ∧ t.homes = s.homes ∧
        (s.acting g ≠ [] → ∀ wf, t.weft? s.cur.skein s.cur.weft = some wf →
          ∀ i ∈ s.cur.strands, Cells.get 0 wf.yielded i = s.clock + 16))) ∧
    (∀ (s : State) (sk : Skein) (m : Nat), s.CanRun sk (.exit g) → s.NoRequests →
      s.drainsOf s.cur.skein (some s.cur.weft) = false → sk.bars = [] →
      (∀ b, s.bolt? sk.bolt = some b → b.bars = []) →
      (∀ wf, s.weft? s.cur.skein s.cur.weft = some wf → wf.records = [] ∧ wf.sliceSince = []) →
      (∀ i x, s.strand? s.cur.skein i = some x → x.status = .ready ∨ x.status = .exited) →
      m ∈ sk.live → m ∉ s.acting g →
      goesTo (exec (.exit g) s) (fun t =>
        s.OnlyStrands t ∧ s.StrandsDone t g.toNat (fun _ x => { x with status := .exited, hold := none })))

/-! ### Widths (R111 to R120) -/

/-- R115 to R120: SETW, SLICE and WSYNC wait in RENDEZVOUS while a live strand has not come, a SLICE where no SLICE wait of
the weft has lasted JTIMEOUT. When the issue set is every live strand of the skein, a SETW regroups it to the grant of
R116; of the weft, a WSYNC goes on, and so does a SLICE, whose weft keeps its grant where the core has the lanes for it. -/
def Obligations.WidthWords : Prop :=
  ∀ (c l : BitVec 1) (n x : BitVec 3) (g : BitVec 3) (s : State) (sk : Skein),
    let waits (i : Instr) (r : Rendez) (m : Nat) : Prop :=
      (s.CanRun sk i → m ∉ s.cur.strands → (∃ y, s.strand? s.cur.skein m = some y ∧ y.status = .ready) →
      goesTo (exec i s) (fun t => t.homes = s.homes ∧ s.RegistersKept t ∧ ∀ k j, t.strand? k j =
        if k = s.cur.skein ∧ j ∈ s.cur.strands then (s.strand? k j).map (fun z => { z with status := .rendezvous r })
        else s.strand? k j))
    let oneSet (all : List Nat) : Prop := s.cur.strands ≠ [] ∧ (∀ j, j ∈ s.cur.strands ↔ j ∈ all) ∧
      ∀ j ∈ s.cur.strands, ∀ y, s.strand? s.cur.skein j = some y → y.status = .ready ∧ y.pc = s.cur.pc
    let grant : Nat := setGrant (s.eligibleFor sk) (8 * 2 ^ n.toNat) (8 * 2 ^ x.toNat) (l == 1)
    (∀ m ∈ sk.live, waits (.setw c n x l) (.setw n.toNat x.toNat (l == 1)) m) ∧
    (0 < sk.jtimeout → (∀ wf, s.weft? s.cur.skein s.cur.weft = some wf → ∀ e ∈ wf.sliceSince, s.clock < e.2 + sk.jtimeout) →
      ∀ m ∈ sk.liveOf s.cur.weft, waits (.slice c) .slice m) ∧
    (∀ m ∈ sk.liveOf s.cur.weft, waits (.wsync c g) .wsync m) ∧
    (s.CanRun sk (.setw c n x l) → oneSet sk.live → grant ≠ 0 →
      goesTo (exec (.setw c n x l) s) (fun t => s.StrandsDone t 7 (fun _ y => y.advance) ∧ t.homes = s.homes ∧
        ∀ w, t.weft? s.cur.skein w = if w % grant = 0 ∧ w < sk.nstrand then some (Weft.fresh grant) else none)) ∧
    (s.CanRun sk (.wsync c g) → oneSet (sk.liveOf s.cur.weft) →
      goesTo (exec (.wsync c g) s) (fun t => s.StrandsDone t 7 (fun _ y => y.advance) ∧ s.OnlyStrands t)) ∧
    (∀ wf, s.CanRun sk (.slice c) → oneSet (sk.liveOf s.cur.weft) → s.weft? s.cur.skein s.cur.weft = some wf →
      wf.g ≤ 64 * (s.core (sk.core.getD 0)).quads →
      goesTo (exec (.slice c) s) (fun t => s.StrandsDone t 7 (fun _ y => y.advance) ∧ t.homes = s.homes ∧
        ∃ wf', t.weft? s.cur.skein s.cur.weft = some wf' ∧ wf'.g = wf.g))

/-! ### Barriers, fences, watches and launches (R160 to R162, R168, R275 to R284, R315 to R320) -/

/-- R275, R277, R278: the strands of a SYNC arrive and wait while a live strand of the barrier's level has not; those of
an ARRIVE arrive and go on; those of a WAIT wait where their own arrival is pending, else go on. The last arrival of a
SYNC starts the next generation: its own strands and those that wait at the barrier, of any skein of the level, go READY past
their BAR. -/
def Obligations.Barriers : Prop :=
  ∀ (c l e : BitVec 1) (x : BitVec 2) (n : BitVec 4) (s : State) (sk : Skein),
    let k := s.cur.skein
    let b := s.barrier k (l == 1) n.toNat
    let mine : List Nat := s.cur.strands.map (strandKey k)
    let all : List Nat := s.expected k (l == 1)
    let waiting (t : State) (acq : Bool) : Prop := ∀ m j, t.strand? m j =
      if m = k ∧ j ∈ s.cur.strands then
        (s.strand? m j).map (fun y => { y with status := .rendezvous (.barrier (l == 1) n.toNat b.gen acq 0) })
      else s.strand? m j
    let ready (i : Instr) : Prop := s.CanRun sk i ∧ s.Quiet sk ∧ (l = 1 → (s.bolt? sk.bolt).isSome = true) ∧
      ∀ j ∈ s.cur.strands, (sk.weftOf j).map Prod.fst = some s.cur.weft ∧ ∀ y, s.strand? k j = some y → y.status = .ready
    let apart : Prop := ∀ m ∈ mine, m ∉ b.pend
    let open' : Prop := ∃ m ∈ all, m ∉ b.pend ∧ m ∉ mine
    let waiters : List (Nat × Nat × Bool × Nat) := s.barWaiters k (l == 1) n.toNat b.gen
    (ready (.barSync c l x e n) → apart → open' →
      goesTo (exec (.barSync c l x e n) s) (fun t => waiting t (e == 1) ∧ t.homes = s.homes ∧
        t.barrier k (l == 1) n.toNat = ⟨b.gen, b.pend ++ mine⟩)) ∧
    (ready (.barArrive c l x e n) → apart → open' →
      goesTo (exec (.barArrive c l x e n) s) (fun t => s.StrandsDone t 7 (fun _ y => y.advance) ∧ t.homes = s.homes ∧
        t.barrier k (l == 1) n.toNat = ⟨b.gen, b.pend ++ mine⟩)) ∧
    (ready (.barWait c l x e n) → apart → s.barComplete k (l == 1) n.toNat = false →
      goesTo (exec (.barWait c l x e n) s) (fun t => s.StrandsDone t 7 (fun _ y => y.advance) ∧ t.homes = s.homes ∧
        t.barrier k (l == 1) n.toNat = b)) ∧
    (ready (.barWait c l x e n) → (∀ m ∈ mine, m ∈ b.pend) → s.barComplete k (l == 1) n.toNat = false →
      goesTo (exec (.barWait c l x e n) s) (fun t => waiting t (e == 1) ∧ t.homes = s.homes ∧
        t.barrier k (l == 1) n.toNat = b)) ∧
    (ready (.barSync c l x e n) → apart → mine ≠ [] → (∀ m ∈ all, m ∈ b.pend ∨ m ∈ mine) → k ∈ s.levelSkeins k (l == 1) →
      (s.levelSkeins k (l == 1)).Nodup → (waiters.map (fun w => (w.1, w.2.1))).Nodup →
      (∀ w ∈ waiters, w.2.2.2 = 0 ∧ (s.strand? w.1 w.2.1).isSome = true ∧ (w.2.2.1 = true →
        (∀ r ∈ Tab.list s.reqs, r.2.skein ≠ w.1) ∧ ∃ y, s.skein? w.1 = some y ∧ (y.weftOf w.2.1).isSome = true)) →
      goesTo (exec (.barSync c l x e n) s) (fun t =>
        (∀ m j, t.strand? m j = if (m = k ∧ j ∈ s.cur.strands) ∨ (m, j) ∈ waiters.map (fun w => (w.1, w.2.1)) then
          (s.strand? m j).map (fun y => { y.advance with status := .ready }) else s.strand? m j) ∧ t.homes = s.homes ∧
        t.barrier k (l == 1) n.toNat = ⟨b.gen + 1, []⟩))

/-- R160 to R162, R168: with nothing outstanding a fence goes on at once, and an acquire leaves the weft's L1 group empty. A
FENCE.rel at module scope has not issued while a store of the weft is on its way. -/
def Obligations.Fences : Prop :=
  ∀ (c : BitVec 1) (g x : BitVec 3) (s : State) (sk : Skein),
    let passes (i : Instr) (acq : Prop) : Prop :=
      s.CanRun sk i → s.Quiet sk → goesTo (exec i s) (fun t =>
        s.StrandsDone t 7 (fun _ y => y.advance) ∧ t.homes = s.homes ∧
        (acq → s.acting g ≠ [] → Cells.get [] t.l1 (s.l1Key s.cur.skein) = []))
    passes (.fenceRel c g x) False ∧ passes (.fenceAcq c g x) True ∧ passes (.fencePhase c g x) True ∧
    passes (.fenceDrain c g) False ∧
    (s.CanRun sk (.fenceRel c g 2) → (∀ e ∈ Tab.list s.reqs, e.2.stage = .outbound) →
      (∃ e ∈ Tab.list s.reqs, e.2.kind = .store ∧ e.2.skein = s.cur.skein ∧ e.2.strand ∈ sk.members s.cur.weft ∧
        s.isLocal e.2.va = true) → s.acting g ≠ [] → exec (.fenceRel c g 2) s = .next s.unissued)

/-- R280, R282, R283: a WATCH whose address passes parks its strands, each in an entry of the core's watch table with its
word, its condition and its comparand; with v63 or another register of 0 as its timeout, none. -/
def Obligations.Watches : Prop :=
  ∀ (c : BitVec 1) (g : BitVec 3) (d a b : VReg) (f : BitVec 4) (s : State) (sk : Skein),
    s.CanRun sk (.watch c g d a b f) → (∀ e ∈ Tab.list (s.core (sk.core.getD 0)).watches, e.2.seq < s.nextId) →
    (∀ j ∈ s.cur.strands, ∀ x, s.strand? s.cur.skein j = some x → x.rpr g.toNat = true → x.watchLeft = none ∧
      s.accessCheck sk (x.rp a.toNat) (x.rp a.toNat).toNat 4 (fun v => bit v 0) = .ok (x.rp a.toNat).toNat) →
    goesTo (exec (.watch c g d a b f) s) (fun t => t.homes = s.homes ∧ s.RegistersKept t ∧
      (∀ k j, (k ≠ s.cur.skein ∨ j ∉ s.cur.strands) → t.strand? k j = s.strand? k j) ∧
      ∀ j ∈ s.cur.strands, ∀ x, s.strand? s.cur.skein j = some x →
        if x.rpr g.toNat then ∃ e w, t.strand? s.cur.skein j = some { x with status := .parked (.watch e) } ∧
          Tab.get (t.core (sk.core.getD 0)).watches e = some w ∧ w.skein = s.cur.skein ∧ w.weft = s.cur.weft ∧
          w.va = (x.rp a.toNat).toNat ∧ w.cond = f.toNat ∧ w.cmp = x.rv d.toNat ∧ w.reg = d.toNat ∧ w.pc = s.cur.pc ∧
          (j, if x.rb s.cur.k b.toNat = 0 then none else some (s.clock + (x.rb s.cur.k b.toNat).toNat)) ∈ w.strands
        else t.strand? s.cur.skein j = some x.advance)

/-- R315, R318: a TRIGGER marks its skein in its launch, once, and goes on; with the last skein of the launch the context's
event vector gains the launch's set mask. -/
def Obligations.Triggers : Prop :=
  ∀ (c : BitVec 1) (g : BitVec 3) (s : State) (sk : Skein) (b : Bolt) (l : Launch) (x : Context),
    s.CanRun sk (.trigger c g) → s.Quiet sk → s.acting g ≠ [] → s.bolt? sk.bolt = some b →
    Tab.get s.launches b.launch = some l → s.ctx? l.ctx = some x → x.state = .running → l.setDone = false →
    b.index * 8 + sk.index ∉ l.triggered → (∀ e ∈ Tab.list s.launches, e.2.state ≠ .stored) →
    goesTo (exec (.trigger c g) s) (fun t => s.StrandsDone t 7 (fun _ y => y.advance) ∧ t.homes = s.homes ∧
      (∃ l', Tab.get t.launches b.launch = some l' ∧ l'.triggered = l.triggered ++ [b.index * 8 + sk.index]) ∧
      (∃ x', t.ctx? l.ctx = some x' ∧
        x'.ev = if l.triggered.length + 1 = l.nbolt * l.nskein then x.ev ||| l.set else x.ev))

/-- R312, R319, R320: a LAUNCH or LAUNCHB of one strand whose record and header pass stores the record and writes 0; with
the store and the ring full LAUNCH writes 2 and LAUNCHB parks; a record out of its limits is refused with reason 3. -/
def Obligations.Launches : Prop :=
  ∀ (c : BitVec 1) (g : BitVec 3) (d a : VReg) (s : State) (sk : Skein) (i : Nat) (x : Strand) (bytes : List Byte) (s1 : State),
    s.Quiet sk → s.acting g = [i] → s.strand? s.cur.skein i = some x →
    (s.setDirty s.cur.skein).accessCheck sk (x.rp a.toNat) (x.rp a.toNat).toNat 256 (fun v => bit v 0) =
      .ok (x.rp a.toNat).toNat →
    (s.setDirty s.cur.skein).strandRead sk (x.rp a.toNat).toNat 16 = .ok bytes s1 →
    let writes (t : State) (w : Word) : Prop :=
      s.StrandsDone t g.toNat (fun _ y => (y.wv d.toNat w).advance) ∧ t.homes = s.homes
    let both (p : Instr → Bool → Prop) : Prop :=
      (s.CanRun sk (.launch c g d a) → p (.launch c g d a) false) ∧ (s.CanRun sk (.launchb c g d a) → p (.launchb c g d a) true)
    (parseRecord bytes = none → both (fun w _ => goesTo (exec w s) (fun t => writes t 0x80000003))) ∧
    (∀ (r : LaunchRec) (hdr : List Byte) (kern : Kernel) (s2 : State), parseRecord bytes = some r → r.span = false →
      s1.strandRead sk r.kernVa 4 = .ok hdr s2 → s2.refuse sk.ctx r hdr = .ok kern → (s2.ctx? sk.ctx).isSome = true →
      (s2.entryFree sk.ctx = true → s2.ringed sk.ctx = [] → both (fun w _ => goesTo (exec w s) (fun t => writes t 0 ∧
        ∃ id l, Tab.get t.launches id = some l ∧ l.ctx = sk.ctx ∧ l.kern = kern ∧ l.args = r.args ∧ l.nbolt = r.nbolt ∧
          l.nskein = r.nskein ∧ l.wait = r.wait ∧ l.set = r.set ∧ l.clear = r.clear ∧ l.device = true))) ∧
      (s2.entryFree sk.ctx = false → (∀ y, s2.ctx? sk.ctx = some y → y.ringSize ≤ (s2.ringed sk.ctx).length) →
        both (fun w block => goesTo (exec w s) (fun t => if block then
          s.StrandsDone t g.toNat (fun _ y => { y with status := .parked .launchb }) ∧ t.homes = s.homes else writes t 2))))

/-! ### Memory words (R153 to R190) -/

/-- R172, R173, R177, R180: LDG sends a load and its strand waits for the reply. R181: STG sends its bytes and goes on. R189: so
does LDGA. R190: PREF goes on whatever its checks find, and where they pass it asks for the 256-byte line. -/
def Obligations.GlobalAccesses : Prop :=
  ∀ (c v : BitVec 1) (g z : BitVec 3) (d a : VReg) (o : BitVec 4) (p : BitVec 2), z.toNat < 7 →
    let base (x : Strand) : Dword := x.rp a.toNat
    let size : Nat := nth 0 [1, 1, 2, 2, 4, 8, 16] z.toNat
    let ea (k : Word) (x : Strand) : Int := (x.rp a.toNat).toNat + if o = 15 then k.toInt else (o.toNat * size : Nat)
    let rd (b : Nat) : Bool := bit b 0
    let wr (b : Nat) : Bool := bit b 1
    SendsEach (.ldg c g d a o z v p) g .load base ea size rd
      (fun _ _ r => r.reg = d.toNat ∧ r.sz = z.toNat ∧ r.vol = (v == 1) ∧ r.pol = p.toNat) (fun id x => { x with hold := some id }) ∧
    SendsEach (.stg c g d a o z v p) g .store base ea size wr
      (fun _ x r => r.data = storeBytes x z.toNat d.toNat) (fun _ x => x.advance) ∧
    SendsEach (.ldga c g d a o z p) g .ldga base ea size rd
      (fun _ _ r => r.reg = d.toNat ∧ r.sz = z.toNat) (fun _ x => x.advance) ∧
    ∀ (s : State) (sk : Skein),
      let goes (i : Instr) : Prop := s.CanRun sk i → goesTo (exec i s) (fun t =>
        s.StrandsDone t 7 (fun _ x => x.advance) ∧ t.homes = s.homes)
      let asks (i : Instr) (fn : Nat) : Prop := s.CanRun sk i →
        (∀ j ∈ s.acting g, ∀ x, s.strand? s.cur.skein j = some x →
          ∃ va, s.accessCheck sk (base x) (ea s.cur.k x) size rd = .ok va ∧ s.isLocal va = true) →
        goesTo (exec i s) (fun t => ∀ j ∈ s.acting g, ∀ x, s.strand? s.cur.skein j = some x → ∃ id r, t.req? id = some r ∧
          r.kind = .pref ∧ r.fn = fn ∧ r.skein = s.cur.skein ∧ r.strand = j ∧ (r.va : Int) = ea s.cur.k x / 256 * 256 ∧
          r.size = 256 ∧ r.stage = .outbound)
      goes (.prefL1 c g a o z) ∧ goes (.prefL2 c g a o z) ∧ asks (.prefL1 c g a o z) 1 ∧ asks (.prefL2 c g a o z) 0

/-- R174, R180: LDS on sound scratch reads its bytes at once; no byte of memory or scratch changes. R181: STS writes the
bytes of each strand's registers, and no other byte of any scratchpad. -/
def Obligations.ScratchAccesses : Prop :=
  ∀ (c v : BitVec 1) (g z : BitVec 3) (d a : VReg) (o : BitVec 4) (p : BitVec 2) (s : State) (sk : Skein) (at' : Nat → Span),
    z.toNat < 7 → s.ScratchClean → s.cur.reuse = false →
    let size : Nat := nth 0 [1, 1, 2, 2, 4, 8, 16] z.toNat
    let off : Int := if o = 15 then s.cur.k.toInt else (o.toNat * size : Nat)
    (∀ j ∈ s.acting g, ∀ x, s.strand? s.cur.skein j = some x →
      s.checkScratch sk ((x.rv a.toNat).toNat + off) size size = .ok (at' j)) →
    (s.CanRun sk (.lds c g d a o z v p) → goesTo (exec (.lds c g d a o z v p) s) (fun t =>
      s.StrandsDone t g.toNat (fun j x => (x.putWords d.toNat (loadWords z.toNat (s.spanBytes (at' j)))).advance) ∧
      t.homes = s.homes ∧ ∀ n, (t.scratch n).data = (s.scratch n).data ∧ (t.scratch n).groups = (s.scratch n).groups ∧
        (t.scratch n).poison = (s.scratch n).poison)) ∧
    (s.CanRun sk (.sts c g d a o z v p) → goesTo (exec (.sts c g d a o z v p) s) (fun t =>
      s.StrandsDone t g.toNat (fun _ x => x.advance) ∧ t.homes = s.homes ∧
      (∀ n q, (∀ j ∈ s.acting g, ¬ (at' j).holds n q) →
        Cells.get 0 (t.scratch n).data q = Cells.get 0 (s.scratch n).data q) ∧
      (∀ j ∈ s.acting g, ∀ x, s.strand? s.cur.skein j = some x → (∀ m ∈ s.acting g, m ≠ j → (at' m).hits (at' j) = false) →
        t.spanBytes (at' j) = storeBytes x z.toNat d.toNat)))

/-- R173 to R175: an access that fails a check traps, here of LDG and STG: ADDR_NONCANON, ADDR_RANGE, ADDR_SPAN and ADDR_ALIGN,
in R173's order, and KEY_DENY where the line stands in the L1 group under a key that denies it; and of an LDS past its
allocation SPAD_BOUND; TVAL is the address, and no byte of memory changes. -/
def Obligations.AccessTraps : Prop :=
  ∀ (c v : BitVec 1) (g z : BitVec 3) (d a : VReg) (o : BitVec 4) (p : BitVec 2), z.toNat < 7 →
    let size : Nat := nth 0 [1, 1, 2, 2, 4, 8, 16] z.toNat
    let ea (s : State) (x : Strand) : Int := (x.rp a.toNat).toNat + if o = 15 then s.cur.k.toInt else (o.toNat * size : Nat)
    let val (s : State) (x : Strand) : Word := BitVec.ofInt 32 (ea s x)
    let canon (x : Strand) : Prop := (x.rp a.toNat).toNat < 2 ^ 57
    let inside (s : State) (x : Strand) : Prop := 0 ≤ ea s x ∧ ea s x + size ≤ 2 ^ 57
    let one (s : State) (x : Strand) : Prop := (ea s x).toNat / 2 ^ 47 = ((ea s x).toNat + size - 1) / 2 ^ 47
    let both (cond : State → Skein → Strand → Prop) (cause : Nat) : Prop :=
      TrapsEach (.ldg c g d a o z v p) g (fun s sk x => s.cur.reuse = false ∧ cond s sk x) cause val ∧
      TrapsEach (.stg c g d a o z v p) g cond cause val
    both (fun _ _ x => ¬ canon x) 0x20 ∧ both (fun s _ x => canon x ∧ ¬ inside s x) 0x21 ∧
    both (fun s _ x => canon x ∧ inside s x ∧ ¬ one s x) 0x23 ∧
    both (fun s _ x => canon x ∧ inside s x ∧ one s x ∧ (ea s x).toNat % size ≠ 0) 0x22 ∧
    (let denied (n : Nat) (s : State) (sk : Skein) (x : Strand) : Prop :=
       canon x ∧ inside s x ∧ one s x ∧ (ea s x).toNat % size = 0 ∧ ∃ l, s.l1Find s.cur.skein (s.domainOf sk.ctx) (ea s x).toNat =
         some l ∧ bit (s.keyRights (sk.core.getD 0) sk.ctx l.key) n = false
     TrapsEach (.ldg c g d a o z v p) g (fun s sk x => s.cur.reuse = false ∧ denied 0 s sk x) 0x24 val ∧
     TrapsEach (.stg c g d a o z v p) g (denied 1) 0x24 val) ∧
    TrapsEach (.lds c g d a o z v p) g (fun s sk x => s.cur.reuse = false ∧
        ((x.rv a.toNat).toNat : Int) + (if o = 15 then s.cur.k.toInt else (o.toNat * size : Nat)) < 2 ^ 31 ∧
        (sk.kern.scratch : Int) < (x.rv a.toNat).toNat + (if o = 15 then s.cur.k.toInt else (o.toNat * size : Nat)) + size) 0x25
      (fun s x => BitVec.ofInt 32 ((x.rv a.toNat).toNat + (if o = 15 then s.cur.k.toInt else (o.toNat * size : Nat))))

/-- R186 to R188: ATG and ATG64 send an atomic with its operand and, for CAS, the value it expects; the strand waits for
the old value, or with d = 63 goes on. -/
def Obligations.GlobalAtomics : Prop :=
  ∀ (c : BitVec 1) (g : BitVec 3) (d a b : VReg),
    let sends (i : Instr) (fn n : Nat) (opnd want : Word → Strand → Dword) : Prop :=
      SendsEach i g .atomic (fun x => x.rp a.toNat) (fun _ x => (x.rp a.toNat).toNat) n (fun v => bit v 0 && bit v 1)
        (fun k x r => r.fn = fn ∧ r.opnd = opnd k x ∧ r.expect = want k x ∧ r.reg = d.toNat)
        (fun id x => if d = 63 then x.advance else { x with hold := some id })
    let plain (i : Instr) (fn : Nat) : Prop := sends i fn 4 (fun k x => (x.rb k b.toNat).setWidth 64) (fun _ _ => 0)
    let wide (i : Instr) (fn : Nat) : Prop := sends i fn 8 (fun k x => x.rbp k b.toNat) (fun _ _ => 0)
    plain (.atgAdd c g d a b) 0 ∧ plain (.atgMin c g d a b) 1 ∧ plain (.atgMax c g d a b) 2 ∧
    plain (.atgMinu c g d a b) 3 ∧ plain (.atgMaxu c g d a b) 4 ∧ plain (.atgAnd c g d a b) 5 ∧
    plain (.atgOr c g d a b) 6 ∧ plain (.atgXor c g d a b) 7 ∧ plain (.atgXchg c g d a b) 8 ∧
    sends (.atgCas c g d a b) 9 4 (fun k x => (x.rb k b.toNat).setWidth 64) (fun _ x => (x.rv d.toNat).setWidth 64) ∧
    plain (.atgFadd c g d a b) 10 ∧ plain (.atgFmin c g d a b) 11 ∧ plain (.atgFmax c g d a b) 12 ∧
    plain (.atgHadd2 c g d a b) 13 ∧ plain (.atgIncw c g d a b) 14 ∧
    wide (.atg64Add c g d a b) 0 ∧ wide (.atg64Minu c g d a b) 1 ∧ wide (.atg64Maxu c g d a b) 2 ∧
    wide (.atg64And c g d a b) 3 ∧ wide (.atg64Or c g d a b) 4 ∧ wide (.atg64Xor c g d a b) 5 ∧
    wide (.atg64Xchg c g d a b) 6 ∧
    sends (.atg64Cas c g d a b) 7 8 (fun k x => x.rbp k b.toNat) (fun _ x => if d = 63 then 0 else x.rp d.toNat)

/-- R46, R172: the offset of a MEM word, and how a load of each size fills its registers (R177). R186, R187: what the
operations of the atomics compute from the old value, the operand and the value CAS expects. -/
def Obligations.SizesAndOperations : Prop :=
  ∀ (l : Bool) (o b x k : Word) (p q y : Dword) (n : BitVec 4) (b0 b1 b2 b3 b4 b5 b6 b7 : Byte),
    memOff k 15 4 = k.toInt ∧ (n ≠ 15 → memOff k n 4 = n.toNat * 4 ∧ memOff k n 6 = n.toNat * 16) ∧
    loadWords 0 [b0] = [b0.setWidth 32] ∧ loadWords 1 [b0] = [b0.signExtend 32] ∧
    loadWords 2 [b0, b1] = [(b1 ++ b0).setWidth 32] ∧ loadWords 3 [b0, b1] = [(b1 ++ b0).signExtend 32] ∧
    loadWords 4 [b0, b1, b2, b3] = [b3 ++ b2 ++ b1 ++ b0] ∧
    loadWords 5 [b0, b1, b2, b3, b4, b5, b6, b7] = [b3 ++ b2 ++ b1 ++ b0, b7 ++ b6 ++ b5 ++ b4] ∧
    atomicOp l 0 o b x = o + b ∧ atomicOp l 1 o b x = (if o.slt b then o else b) ∧
    atomicOp l 2 o b x = (if o.slt b then b else o) ∧ atomicOp l 3 o b x = (if o.ult b then o else b) ∧
    atomicOp l 4 o b x = (if o.ult b then b else o) ∧ atomicOp l 5 o b x = o &&& b ∧ atomicOp l 6 o b x = o ||| b ∧
    atomicOp l 7 o b x = o ^^^ b ∧ atomicOp l 8 o b x = b ∧ atomicOp l 9 o b x = (if o = x then b else o) ∧
    atomicOp l 14 o b x = (if o.ult b then o + 1 else 0) ∧
    atomicOp64 0 p q y = p + q ∧ atomicOp64 1 p q y = (if p.ult q then p else q) ∧
    atomicOp64 2 p q y = (if p.ult q then q else p) ∧ atomicOp64 3 p q y = p &&& q ∧ atomicOp64 4 p q y = p ||| q ∧
    atomicOp64 5 p q y = p ^^^ q ∧ atomicOp64 6 p q y = q ∧ atomicOp64 7 p q y = (if p = y then q else p)

/-- R186 to R188: an ATS of strands whose words are apart writes the operation's result in scratch and the old value in
its register, and changes no other byte of scratch or memory. -/
def Obligations.ScratchAtomics : Prop :=
  ∀ (c : BitVec 1) (g : BitVec 3) (d a b : VReg) (s : State) (sk : Skein) (at' : Nat → Span), s.ScratchClean →
    (∀ j ∈ s.acting g, ∀ x, s.strand? s.cur.skein j = some x →
      s.checkScratch sk (x.rv a.toNat).toNat 4 4 = .ok (at' j)) →
    (∀ i ∈ s.acting g, ∀ j ∈ s.acting g, i ≠ j → (at' i).hits (at' j) = false) →
    let runs (i : Instr) (f : Word → Word → Word → Word) : Prop :=
      s.CanRun sk i → goesTo (exec i s) (fun t =>
        s.StrandsDone t g.toNat (fun j x => (x.wv d.toNat (BitVec.ofNat 32 (ofBytes (s.spanBytes (at' j))))).advance) ∧
        t.homes = s.homes ∧
        (∀ n q, (∀ j ∈ s.acting g, ¬ (at' j).holds n q) →
          Cells.get 0 (t.scratch n).data q = Cells.get 0 (s.scratch n).data q) ∧
        ∀ j ∈ s.acting g, ∀ x, s.strand? s.cur.skein j = some x →
          t.spanBytes (at' j) = bytesOf 4 (f (BitVec.ofNat 32 (ofBytes (s.spanBytes (at' j)))) (x.rb s.cur.k b.toNat)
            (x.rv d.toNat)).toNat)
    let fp (isMax : Bool) (o y : Word) : Word :=
      BitVec.ofNat 32 (Fmt.fp32.minMax (atomicCtx (lvl2Of sk)) isMax o.toNat y.toNat).bits
    runs (.atsAdd c g d a b) (fun o y _ => o + y) ∧ runs (.atsMin c g d a b) (fun o y _ => if o.slt y then o else y) ∧
    runs (.atsMax c g d a b) (fun o y _ => if o.slt y then y else o) ∧
    runs (.atsMinu c g d a b) (fun o y _ => if o.ult y then o else y) ∧
    runs (.atsMaxu c g d a b) (fun o y _ => if o.ult y then y else o) ∧
    runs (.atsAnd c g d a b) (fun o y _ => o &&& y) ∧ runs (.atsOr c g d a b) (fun o y _ => o ||| y) ∧
    runs (.atsXor c g d a b) (fun o y _ => o ^^^ y) ∧ runs (.atsXchg c g d a b) (fun _ y _ => y) ∧
    runs (.atsCas c g d a b) (fun o y x => if o = x then y else o) ∧
    runs (.atsFadd c g d a b) (fun o y _ =>
      BitVec.ofNat 32 (Fmt.fp32.add (atomicCtx (lvl2Of sk)) (fpv o) (fpv y)).bits) ∧
    runs (.atsFmin c g d a b) (fun o y _ => fp false o y) ∧ runs (.atsFmax c g d a b) (fun o y _ => fp true o y)

/-! ### Copies, shadows, the engine and the scratchpad's own words (R192 to R260) -/

/-- R215 to R221: a CPY whose descriptor passes R217 and whose ranges are free enters its core's queue with nothing done,
and its strands go on. -/
def Obligations.CopiesStart : Prop :=
  ∀ (c : BitVec 1) (g : BitVec 3) (a : VReg) (n : BitVec 7) (s : State) (sk : Skein) (cp : Copy),
    let core := sk.core.getD 0
    let v (j : Nat) : Nat := (nth 0 (s.descWords (s.acting g) a) j).toNat
    let starts (i : Instr) (kind : Nat) (src dst : Nat) : Prop :=
      s.CanRun sk i → s.acting g ≠ [] → s.nonUniform s.cur.skein (s.acting g) (oct a) = none →
      (s.nextSeq core).checkCopy sk kind (s.descWords (s.acting g) a) = .ok cp → (s.copiesOn core).length < 256 →
      s.copyWaits { cp with tag := n.toNat } = false →
      goesTo (exec i s) (fun t => s.StrandsDone t 7 (fun _ x => x.advance) ∧ t.homes = s.homes ∧
        (∀ m, t.scratch m = s.scratch m) ∧
        ∃ id y, Tab.get t.copies id = some y ∧ y.kind = kind ∧ y.tag = n.toNat ∧ y.src = src ∧ y.dst = dst ∧
          y.rowb = v 4 ∧ y.rows = v 5 ∧ y.sstr = v 6 ∧ y.dstr = v 7 ∧ y.done = 0 ∧ y.parked = none)
    starts (.cpyG2s c g a n) 0 (v 0 + v 1 * 2 ^ 32) (v 2) ∧ starts (.cpyS2g c g a n) 1 (v 0) (v 2 + v 3 % 2 ^ 31 * 2 ^ 32) ∧
    starts (.cpyS2s c g a n) 2 (v 0) (v 2) ∧ starts (.cpyG2g c g a n) 3 (v 0 + v 1 * 2 ^ 32) (v 2 + v 3 % 2 ^ 31 * 2 ^ 32) ∧
    starts (.cpyS2sm c g a n) 4 (v 0) (v 2)

/-- R225: a CWAIT has not issued while a copy that it covers, one that issued before the CWAIT was first reached, is in
flight, and its weft issues nothing else; it goes on when none is and none went wrong; QUERY reads how many are in
flight. -/
def Obligations.CopyWaits : Prop :=
  ∀ (c : BitVec 1) (g : BitVec 3) (d : VReg) (n : BitVec 7),
    let mine (s : State) : List (Nat × Copy) := (Tab.list s.copies).filter (fun e => e.2.skein == s.cur.skein)
    let waits (i : Instr) (covers : Nat → Bool) : Prop :=
      ∀ (s : State) (sk : Skein), s.CanRun sk i → s.acting g ≠ [] →
        ((∃ e ∈ mine s, covers e.2.tag = true ∧ e.2.seq < s.nextId ∧
          ∀ wf x, s.weft? s.cur.skein s.cur.weft = some wf → wf.solo = some x → x.1 = s.cur.pc → e.2.seq < x.2) →
          exec i s = .next s.alone.unissued) ∧
        ((∀ e ∈ mine s, covers e.2.tag = false) → (∀ x ∈ sk.doneCopies, covers x.tag = true → x.bad = false) →
          goesTo (exec i s) (fun t => s.StrandsDone t 7 (fun _ x => x.advance) ∧ t.homes = s.homes))
    waits (.cwait c g n) (fun t => t == n.toNat) ∧ waits (.cwaitAll c g) (fun _ => true) ∧
    (∀ (s : State) (sk : Skein), s.CanRun sk (.cwaitQuery c g d n) → goesTo (exec (.cwaitQuery c g d n) s) (fun t =>
      s.StrandsDone t g.toNat (fun _ x => (x.wv d.toNat
        (BitVec.ofNat 32 ((mine s).filter (fun e => e.2.tag == n.toNat)).length)).advance) ∧ s.OnlyStrands t))

/-- R226 to R234: the SHD words of an OPEN shadow start an operation for which the weft waits; an SHOPEN takes its slot as
OPENING; a stale handle, and one that SHPUB does not find OPEN, trap SHADOW_BAD with the handle as TVAL in the strands whose guard
is true. That SHPUB and SHABORT take the handle of their lowest such strand is the model's choice (log 22). -/
def Obligations.ShadowWords : Prop :=
  ∀ (c : BitVec 1) (g : BitVec 3) (d a : VReg) (s : State) (sk : Skein) (wf : Weft), s.NoRequests → s.acting g ≠ [] →
    s.weft? s.cur.skein s.cur.weft = some wf →
    let started (t : State) (kind slot : Nat) : Prop := t.homes = s.homes ∧ s.RegistersKept t ∧
      ∃ id o wf', t.weft? s.cur.skein s.cur.weft = some wf' ∧ wf'.shadowWait = some id ∧ Tab.get t.shdops id = some o ∧
        o.kind = kind ∧ o.slot = slot ∧ o.skein = s.cur.skein ∧ o.strands = s.acting g ∧ o.stage = 0
    (∀ (slot : Nat) (sh : Shadow), s.slotOf sk.ctx (s.handleOf (s.acting g) a) = some (slot, sh) → sh.state = .sopen →
      (s.CanRun sk (.shpub c g a) → goesTo (exec (.shpub c g a) s) (fun t => started t 1 slot)) ∧
      (s.CanRun sk (.shabort c g a) → goesTo (exec (.shabort c g a) s) (fun t => started t 2 slot)) ∧
      (s.CanRun sk (.shstat c g d a) → (∀ i ∈ s.acting g, ∀ x, s.strand? s.cur.skein i = some x →
        (x.rv a.toNat).toNat = s.handleOf (s.acting g) a) →
        goesTo (exec (.shstat c g d a) s) (fun t => started t 3 0))) ∧
    (∀ (slot : Nat) (sh : Shadow) (s1 : State), s.CanRun sk (.shopen c g d a) →
      s.nonUniform s.cur.skein (s.acting g) (oct a) = none →
      s.checkOpen sk (s.descWords (s.acting g) a) = .ok slot sh s1 →
      goesTo (exec (.shopen c g d a) s) (fun t => started t 0 slot ∧
        ∃ y, t.shadow? sk.ctx slot = some y ∧ y.state = .opening ∧ y.base = sh.base ∧ y.size = sh.size ∧ y.count = sh.count ∧
          y.replicas = sh.replicas)) ∧
    (let named (s : State) : Nat := s.handleOf (s.acting g) a
     TrapsEach (.shpub c g a) g (fun s sk _ => (s.slotOf sk.ctx (named s)).all (fun e => e.2.state != .sopen) = true) 0x38
       (fun s _ => BitVec.ofNat 32 (named s)) ∧
     TrapsEach (.shabort c g a) g (fun s sk _ => s.slotOf sk.ctx (named s) = none) 0x38 (fun s _ => BitVec.ofNat 32 (named s)) ∧
     TrapsEach (.shstat c g d a) g (fun s sk x => s.slotOf sk.ctx (x.rv a.toNat).toNat = none) 0x38 (fun _ x => x.rv a.toNat))

/-- R232: an RST into an OPEN shadow sends its operand under the shadow's handle and goes on. -/
def Obligations.ShadowStores : Prop :=
  ∀ (c : BitVec 1) (g : BitVec 3) (a b : VReg) (s : State) (sk : Skein) (slot : Nat) (sh : Shadow),
    let sends (i : Instr) (fn : Nat) : Prop :=
      s.CanRun sk i →
      (∀ j ∈ s.cur.strands, ∀ x, s.strand? s.cur.skein j = some x → x.rpr g.toNat = true →
        s.accessCheck sk (x.rp a.toNat) (x.rp a.toNat).toNat 4 (fun v => bit v 1) = .ok (x.rp a.toNat).toNat ∧
        s.isLocal (x.rp a.toNat).toNat = true ∧
        s.openShadow sk.ctx (x.rp a.toNat).toNat 4 = some (slot, sh)) →
      goesTo (exec i s) (fun t => s.StrandsDone t 7 (fun _ x => x.advance) ∧ t.homes = s.homes ∧
        ∀ j ∈ s.acting g, ∀ x, s.strand? s.cur.skein j = some x → ∃ id r, t.req? id = some r ∧ r.kind = .rst ∧ r.fn = fn ∧
          r.strand = j ∧ r.va = (x.rp a.toNat).toNat ∧ r.opnd = (x.rb s.cur.k b.toNat).setWidth 64 ∧
          r.expect.toNat % 64 = slot % 64 ∧ r.stage = .outbound)
    sends (.raddF32 c g a b) 0 ∧ sends (.raddBf16x2 c g a b) 1 ∧ sends (.raddI32 c g a b) 2 ∧
    sends (.rmaxF32 c g a b) 3 ∧ sends (.mst c g a b) 4

/-- R240, R249, R250: an engine word of every live strand of its weft, with uniform addresses that R174 accepts, a free
place in the queue and no copy in the way, enters the queue with its tile and addresses, and its strands go on. -/
def Obligations.EngineWords : Prop :=
  ∀ (c : BitVec 1) (n : BitVec 4) (a b : VReg) (x y f : BitVec 3) (s : State) (sk : Skein),
    let core := sk.core.getD 0
    let value (r : VReg) : Nat := ((s.uniform? s.cur.skein s.cur.strands r.toNat).getD 0).toNat
    let ready (i : Instr) : Prop := s.CanRun sk i ∧ s.cur.strands.length = (sk.liveOf s.cur.weft).length ∧
      s.copies = [] ∧ ((s.core core).engine.filter (fun o => o.started.isNone)).length < 4
    let uniform (r : VReg) : Prop := (s.uniform? s.cur.skein s.cur.strands r.toNat).isSome = true
    let entered (i : Instr) (kind af bf : Nat) (p q : Option Span) : Prop := goesTo (exec i s) (fun t =>
      s.StrandsDone t 7 (fun _ z => z.advance) ∧ t.homes = s.homes ∧ (∀ m, t.scratch m = s.scratch m) ∧
      ∃ o, (t.core core).engine = (s.core core).engine ++ [o] ∧ o.skein = s.cur.skein ∧ o.kind = kind ∧ o.tile = n.toNat ∧
        o.af = af ∧ o.bf = bf ∧ o.started = none ∧ (∀ z, p = some z → o.aCore = z.core ∧ o.aAddr = z.lo) ∧
        (∀ z, q = some z → o.bCore = z.core ∧ o.bAddr = z.lo))
    let multiply (i : Instr) (kind : Nat) (mmas : Bool) : Prop := ∀ p q, ready i → uniform a → uniform b →
      s.checkScratch sk (value a) (mtxBytes mmas x.toNat).1 256 = .ok p →
      s.checkScratch sk (value b) (mtxBytes mmas x.toNat).2 256 = .ok q → entered i kind x.toNat y.toNat (some p) (some q)
    multiply (.mma c n a b x y) 0 false ∧ multiply (.mmat c n a b x y) 1 false ∧ multiply (.mmas c n a b x y) 2 true ∧
    (ready (.mzero c n) → entered (.mzero c n) 3 0 0 none none) ∧ (ready (.mchk c n) → entered (.mchk c n) 6 0 0 none none) ∧
    (∀ p, ready (.mload c n a) → uniform a → s.checkScratch sk (value a) 16384 256 = .ok p →
      entered (.mload c n a) 4 0 0 (some p) none) ∧
    (∀ p, ready (.mdrain c n a f) → uniform a → s.checkScratch sk (value a) (drainBytes f.toNat) 256 = .ok p →
      entered (.mdrain c n a f) 5 f.toNat 0 (some p) none)

/-- R211 to R213: SPSTAT reads the core's group states; SPSCRUB leaves its weft waiting for the pass; SPRETIRE of a data
bank of a normal group starts its rebuild, for which the weft waits. -/
def Obligations.ScratchpadWords : Prop :=
  ∀ (c : BitVec 1) (g : BitVec 3) (d a : VReg) (s : State) (sk : Skein) (wf : Weft),
    s.weft? s.cur.skein s.cur.weft = some wf →
    let core := sk.core.getD 0
    let waits (t : State) (f : Weft → Prop) : Prop := s.StrandsDone t 7 (fun _ x => x.advance) ∧ t.homes = s.homes ∧
      ∃ wf', t.weft? s.cur.skein s.cur.weft = some wf' ∧ f wf'
    (s.CanRun sk (.spstat c g d) → goesTo (exec (.spstat c g d) s) (fun t =>
      s.StrandsDone t g.toNat (fun _ x => (x.wv d.toNat (BitVec.ofNat 32 (s.scratch core).spstat)).advance) ∧ s.OnlyStrands t)) ∧
    (s.CanRun sk (.spscrub c g) → s.acting g ≠ [] → sk.kern.scratch ≠ 0 →
      goesTo (exec (.spscrub c g) s) (fun t => waits t (fun w => w.scrubWait = true))) ∧
    (∀ (i : Nat) (x : Strand) (n : Nat), s.CanRun sk (.spretire c g a) → (s.acting g).head? = some i →
      s.strand? s.cur.skein i = some x → (x.rv a.toNat).toNat = n → n < 32 → (s.scratch core).group (n / 4) = BankGroup.normal →
      goesTo (exec (.spretire c g a) s) (fun t => waits t (fun w => w.retireWait = some (n / 4)) ∧
        ((t.scratch core).group (n / 4)).rebuilding = true ∧ ((t.scratch core).group (n / 4)).retired = n % 4 + 1 ∧
        (t.scratch core).data = (s.scratch core).data))

/-! ### The machine (R6, R38 to R44, R51, R130, R146 to R150) -/

/-- R38, R39, R42, R43, R130: a turn of the schedule that issues a weft runs the instruction of the packet at the PC that
the grouping picks, in the strands that may issue there, with the packet's tail as K; a turn of an event runs that event.
The time of the turn passes first, and what is due settles. -/
def Obligations.StepRunsDecoded : Prop :=
  ∀ (s : State) (n : Nat) (rest : List Turn),
    let u : State := (({ s with schedule := rest } : State).tick (s.slack n)).settle
    (∀ (i : Instr), s.schedule = { wait := n, move := .event i } :: rest → encode i = none → step s = exec i u) ∧
    (s.schedule = { wait := n, move := .idle } :: rest → step s = .next u) ∧
    (∀ (k w c : Nat) (reuse l1 : Bool) (moment : Option Nat) (sk0 sk : Skein) (wf0 wf : Weft) (pc : Word) (b : List Byte)
        (t : State) (i : Instr),
      s.schedule = { wait := n, move := .issue k w reuse l1 moment } :: rest →
      u.skein? k = some sk0 → u.weft? k w = some wf0 → sk0.core = some c → u.mayIssue sk0.ctx = true →
      wf0.activeSince.isSome = true → wf0.shadowWait = none → wf0.scrubWait = false → wf0.retireWait = none →
      (u.regroup c k w).skein? k = some sk → (u.regroup c k w).weft? k w = some wf →
      groupPick ((u.regroup c k w).candidates sk w wf) ((u.regroup c k w).hasYielded sk w wf) (u.regroup c k w).clock = some pc →
      (u.regroup c k w).cycleFree wf pc = true → pc.toNat * 4 < sk.kern.codeSize →
      (u.regroup c k w).packetAt sk c pc = some (b, t) →
      chainTrap sk.kern (t.privOf sk) (chainFrom b 3 (pc.toNat % 4)) = none →
      decodeUnchained (packetWord b (pc.toNat % 4)) = .ok i →
      ∃ r : State, step s = exec i r ∧ r = { t with skeins := r.skeins, bolts := r.bolts, cur := r.cur } ∧
        r.cur = { skein := k, weft := w, strands := (((u.regroup c k w).canIssue sk w).filter (fun e => e.2 == pc)).map Prod.fst, pc := pc,
                  word := packetWord b (pc.toNat % 4), k := packetWord b 3, reuse := reuse, l1 := l1, moment := moment,
                  before := r.cur.before, denied := [] } ∧
        (∀ m j, r.strand? m j = t.strand? m j) ∧ (∀ m, (r.skein? m).map Skein.kern = (t.skein? m).map Skein.kern))

/-- R54, R130: what an issue hands to its instruction: the issue set is of distinct strands of the weft, READY and at the
issue's PC, and its word has no encoding trap. -/
def Obligations.IssueIsSound : Prop :=
  ∀ (s t : State) (k w : Nat) (reuse l1 : Bool) (moment : Option Nat) (i : Instr),
    s.TablesWf → s.prepareIssue k w reuse l1 moment = (t, some i) →
    ∃ sk, t.Issuing sk ∧ t.cur.skein = k ∧ t.cur.weft = w ∧ t.cur.strands ≠ [] ∧
      wordTrap sk.kern (t.privOf sk) i = none ∧
      ∀ j ∈ t.cur.strands, j ∈ sk.members w ∧ ∃ x, t.strand? k j = some x ∧ x.status = .ready ∧ x.pc = t.cur.pc ∧ x.hold = none

/-- R6, R409: reset leaves the clock at 0 and nothing running: no partition, context, skein or launch, every queue
absent, no reply on its way, no cell of memory listed, bring-up before its first step; it is sound. -/
def Obligations.ResetState : Prop :=
  State.reset.clock = 0 ∧ State.reset.parts = [] ∧ State.reset.contexts = [] ∧ State.reset.skeins = [] ∧
  State.reset.bolts = [] ∧ State.reset.launches = [] ∧ State.reset.queues = [] ∧ State.reset.reqs = [] ∧
  State.reset.copies = [] ∧ State.reset.homes.mem = [] ∧ State.reset.net.portMap = [] ∧ State.reset.dev.bootStep = 0 ∧
  State.reset.dev.opKey = none ∧ State.reset.Sound ∧ State.reset.TablesWf

/-- R51, R146, R184: nothing stops the machine: every instruction and every step of it goes on. That an event which is not due,
and a word outside an issue, change nothing and go on is the model's choice (logs 6 and 49). -/
def Obligations.NothingStops : Prop := (∀ (i : Instr) (s : State), goesOn (exec i s)) ∧ ∀ s : State, goesOn (step s)

/-- The memory behind the homes keeps its canonical form (log 3): every step from a sound state leaves a sound one. -/
def Obligations.MemoryKept : Prop := ∀ s t : State, s.Sound → step s = .next t → t.Sound

/-- Every step keeps the tables of strands and wefts of every skein in canonical form. -/
def Obligations.TablesKept : Prop := ∀ s t : State, s.TablesWf → step s = .next t → t.TablesWf

/-- R49, R51, R87 to R110: words written out from the encoding tables, and words of no instruction. -/
def Obligations.WordsRead : Prop :=
  decodeWord 0x00000000 = .ok .nop ∧ decodeWord 0x11C10803 = .ok (.shli 0 7 1 2 3) ∧
  decodeWord 0x13C4FFFF = .ok (.movi 0 7 4 0xFFFF) ∧ decodeWord 0x79C10003 = .ok (.mfs 0 7 1 3) ∧
  decodeWord 0x7BC01411 = .ok (.mts 0 7 5 0x011) ∧ decodeWord 0x407FFFFD = .ok (.br 1 0x3FFFFD) ∧
  (∀ i, decodeWord 0x00000001 ≠ .ok i) ∧ (∀ i, decodeWord 0xC07FFFFD ≠ .ok i)

/-- R51 to R54, R146, R148: a word whose encoding traps traps every strand of the issue set, whatever its guard, with the
word as TVAL, where they have a handler. R148, R331: with no handler the context faults. R150: while a strand of the weft
is in a handler, the strands are held in TRAPHOLD at the word's PC. R34: a floating trap
that is taken writes FPFLAGS and no destination, and enters with the cause of the lowest enabled flag and TVAL the
destination field; here of FADD, in every strand whose guard is true. -/
def Obligations.TrapsTaken : Prop :=
  (∀ (i : Instr) (s : State) (sk : Skein) (cause : Nat) (w : Word), encode i = some w → s.Issuing sk →
    wordTrap sk.kern (s.privOf sk) i = some cause → s.Handled sk 7 →
    goesTo (exec i s) (fun t => t.homes = s.homes ∧ ∀ k j, t.strand? k j =
      if k = s.cur.skein ∧ j ∈ s.cur.strands then (s.strand? k j).map (fun x => x.enter cause s.cur.word s.cur.pc)
      else s.strand? k j)) ∧
  (∀ (g : BitVec 3) (n : BitVec 6) (s : State) (sk : Skein) (i : Nat) (x : Strand) (b : Bolt) (c : Context),
    s.CanRun sk (.trap g n) → s.acting g = [i] → Tab.get sk.strands i = some x →
    x.active = true ∨ x.trapvec = 0xFFFFFFFF → s.bolt? sk.bolt = some b → b.ctx = sk.ctx → b.state = .running →
    s.ctx? sk.ctx = some c → c.state = .running →
    goesTo (exec (.trap g n) s) (fun t => (∃ y, t.ctx? sk.ctx = some y ∧ y.state = .faulted) ∧
      (∃ y, t.bolt? sk.bolt = some y ∧ y.state = .killed))) ∧
  (∀ (g : BitVec 3) (n : BitVec 6) (s : State) (sk : Skein), s.CanRun sk (.trap g n) →
    sk.someActive s.cur.weft = true →
    (∀ j ∈ s.cur.strands, ∀ x, s.strand? s.cur.skein j = some x → x.rpr g.toNat = true →
      x.active = false ∧ x.trapvec ≠ 0xFFFFFFFF) →
    goesTo (exec (.trap g n) s) (fun t => s.StrandsDone t g.toNat (fun _ x =>
      { x with status := .traphold 0x30 (n.setWidth 32) s.cur.pc s.seq, pc := s.cur.pc, hold := none }))) ∧
  (∀ (c : BitVec 1) (g : BitVec 3) (d a b : VReg) (s : State) (sk : Skein), s.CanRun sk (.fadd c g d a b 0) →
    let fl (x : Strand) : FpFlags :=
      (ftz32 (fpCtx sk.kern x) (Fmt.fp32.add (fpCtx sk.kern x) (fpv (x.rv a.toNat)) (fpv (x.rb s.cur.k b.toNat)))).flags
    (∀ j ∈ s.cur.strands, ∀ x, s.strand? s.cur.skein j = some x → x.rpr g.toNat = true →
      fl x &&& x.fptrapen ≠ 0 ∧ x.active = false ∧ x.trapvec ≠ 0xFFFFFFFF ∧ pcOk sk.kern x.trapvec.toNat = true) →
    sk.someActive s.cur.weft = false →
    goesTo (exec (.fadd c g d a b 0) s) (fun t => s.StrandsDone t g.toNat (fun _ x =>
      ({ x with fpflags := x.fpflags ||| fl x }).enter (fpCause (fl x &&& x.fptrapen)) (d.setWidth 32) s.cur.pc)))

/-! ### Events of the core (R118 to R150, R155, R167, R180 to R190, R281 to R284) -/

/-- R130, R131, R119, R140, R144: a weft with a READY strand enters an active set with room; one that has had its 1,024
cc while another waits leaves it; a PATHWAIT group that has waited 256 cc takes the entry of the group that has held one
longest; a rejoin record and a SLICE end their wait at their deadline; a sleeping strand is READY at its own, together with
every strand of its weft whose deadline has come. -/
def Obligations.CoreTimers : Prop :=
  ∀ (s : State) (k w c since : Nat) (pc : Word) (sk : Skein) (wf : Weft),
    s.skein? k = some sk → s.weft? k w = some wf → sk.core = some c → s.mayIssue sk.ctx = true →
    let weft (t : State) (f : Weft → Prop) : Prop := ∃ y, t.weft? k w = some y ∧ f y
    let strands (t : State) (f : Strand → Strand) : Prop :=
      ∀ m j, t.strand? m j = if m = k ∧ j ∈ sk.members w then (s.strand? m j).map f else s.strand? m j
    (wf.activeSince = none → sk.hasReady w = true → (s.refresh c).activeCount c < 8 →
      MovesStrands (.activeSetEntry k w) s (fun t => weft t (fun y => y.activeSince = some s.clock))) ∧
    (wf.activeSince = some since → since + 1024 ≤ s.clock → s.othersReady c k w true = true →
      MovesStrands (.activeSetTimeout k w) s (fun t => weft t (fun y => y.activeSince = none ∧ y.entries = []) ∧
        strands t (fun x => match x.status with
          | .pathwait _ => { x with status := .ready }
          | _ => x))) ∧
    (∀ (old : BufEntry), wf.activeSince = some since → wf.entries = [old] →
      (sk.pathGroups w).any (fun g => g.1 == pc && decide (g.2 + 256 ≤ s.clock)) = true →
      MovesStrands (.pathwaitTimeout k w pc) s (fun t =>
        weft t (fun y => y.entries = [{ old with pc := pc, since := s.clock, lastIssue := s.clock }]) ∧
        strands t (fun x => match x.status with
          | .pathwait _ => if x.pc = pc then { x with status := .ready } else x
          | .ready => if x.pc = old.pc then { x with status := .pathwait s.clock } else x
          | _ => x))) ∧
    (∀ (r : Rejoin) (dl : Nat), wf.records = [r] → r.target = pc → r.deadline = some dl → dl ≤ s.clock →
      MovesStrands (.joinTimeout k w pc) s (fun t => weft t (fun y => y.records = []) ∧
        strands t (fun x => if x.status = .joinwait pc then { x.advance with status := .ready } else x))) ∧
    (wf.sliceSince = [(pc, since)] → since + sk.jtimeout ≤ s.clock →
      MovesStrands (.sliceTimeout k w) s (fun t => weft t (fun y => y.sliceSince = [] ∧ y.g = wf.g) ∧
        strands t (fun x => if x.status = .rendezvous .slice ∧ x.pc = pc then { x.advance with status := .ready } else x))) ∧
    (∀ (i dl : Nat) (x : Strand), s.strand? k i = some x → x.status = .sleeping dl → dl ≤ s.clock →
      (sk.weftOf i).map Prod.fst = some w →
      MovesStrands (.waittDeadline k i) s (fun t => strands t (fun y => match y.status with
        | .sleeping d => if d ≤ s.clock then { y with status := .ready } else y
        | _ => y)))

/-- R155, R180, R183, R186, R188, R189, R232: a reply from a home of this module ends its request at the core: a load and
an atomic deliver their words to the strand that waits, which goes on; an LDGA writes its registers, where no .all word waits
for them; a store, a posted atomic and an RST are done, the last with its flags. A NACK of a load, whose record is open, parks
its strand. -/
def Obligations.RepliesArrive : Prop :=
  ∀ (s : State) (id m hi : Nat) (ans : RemoteAns) (r : Req) (x : Strand), s.req? id = some r → s.net.portHold = [] →
    s.strand? r.skein r.strand = some x → s.replyDue id r = true →
    let seen : State := s.capture (quadOf r.core) 0 (r.core % 48) (s.clock - r.issued)
    (r.stage = .returned 0 hi →
      (r.kind = .load → bit r.rdRights r.key = true →
        EndsRequest (.loadReply id m ans) s id r (fun y =>
          { (y.putWords r.reg (loadWords r.sz (seen.replyBytes r hi m ans).1)).advance with hold := none })) ∧
      (r.kind = .atomic → r.reg ≠ 63 → bit r.rdRights r.key = true →
        EndsRequest (.atomicReply id ans) s id r (fun y =>
          { (y.putWords r.reg (loadWords r.sz (bytesOf r.size r.result))).advance with hold := none })) ∧
      (r.kind = .atomic → r.reg = 63 → EndsRequest (.atomicReply id ans) s id r (fun y => y)) ∧
      (r.kind = .ldga → bit r.rdRights r.key = true →
        (∀ sk wf, s.skein? r.skein = some sk → sk.weftOf r.strand = some wf → sk.xlaneReady wf.1 = none) →
        EndsRequest (.ldgaWrite id m ans) s id r (fun y =>
          y.putWords r.reg (loadWords r.sz (s.replyBytes r hi m ans).1))) ∧
      (r.kind = .store → EndsRequest (.storeAck id ans) s id r (fun y => y)) ∧
      (r.kind = .rst → EndsRequest (.rstAck id ans) s id r (fun y =>
        { y with fpflags := y.fpflags ||| BitVec.ofNat 5 r.result }))) ∧
    (∀ code, r.stage = .returned code hi → r.kind = .load → code ≠ 0 → code ≠ 0x100 → fatalCode code = false →
      s.recClosed r.result = false →
      EndsRequest (.loadReply id m ans) s id r (fun y =>
        { y with status := .parked (.nack r.result s.clock), hold := none }))

/-- R167, R281, R283, R308: an aged entry of the write-combining buffer leaves it with its store; a wake packet, or a
timeout at an installed entry, delivers the word to its parked strand; a fetched line enters its cluster's cache. -/
def Obligations.CoreArrivals : Prop :=
  ∀ (s : State) (c n : Nat) (ans : RemoteAns),
    (∀ (e : WcEntry) (id : Nat) (r : Req), (s.core c).wc = [e] → e.line = n → e.reqs = [id] → s.req? id = some r →
      e.since + s.wcAge r.ctx ≤ s.clock → s.isLocal r.va = false → s.entryHeld r.va = false →
      goesTo (exec (.wcAgeExpiry c n) s) (fun t => t.homes = s.homes ∧ t.skeins = s.skeins ∧ (t.core c).wc = [] ∧
        t.req? id = some { r with stage := .remote (s.portOf r.va), entry := some id, payload := e.bytes.length })) ∧
    (∀ (w : Watch) (x : Strand) (i : Nat) (due : Option Nat), Tab.get (s.core c).watches n = some w → s.isLocal w.va = true →
      w.strands = [(i, due)] → s.strand? w.skein i = some x → x.status = .parked (.watch n) →
      let woken (e : Instr) (p m : Nat) (v : Word) : Prop := goesTo (exec e s) (fun t => t.homes = s.homes ∧
        Tab.get (t.core c).watches n = none ∧ ∀ k j, t.strand? k j = if k = w.skein ∧ j = i then
          some { (x.wv w.reg ((s.settleStores w.skein c w.domain w.va p).watchValue w.skein c w.seq w.domain p w.va m v)).advance
            with status := .ready }
        else s.strand? k j)
      (w.stage = 4 → w.code = 0 → woken (.wakePacket c n ans) w.stamp w.moment w.val) ∧
      (∀ (dl : Nat) (a : Attr) (s2 : Stage2), w.stage = 2 → due = some dl → dl ≤ s.clock →
        judge s.homes w.domain w.gen w.va .read 0 true = .page a s2 → bit w.rights a.key = true →
        woken (.watchTimeout c n ans) s.nextId s.seq (pageWord s.homes s2 w.va))) ∧
    (∀ (f : Fetch), Tab.get s.fetches n = some f → f.stage = 4 → s.isLocal (f.line * 64) = true → f.answer = some (0, 0) →
      goesTo (exec (.instructionFetchReply n) s) (fun t => t.homes.mem = s.homes.mem ∧ t.skeins = s.skeins ∧
        Tab.get t.fetches n = none ∧ lineAt (Cells.get [] t.homes.icache f.cluster) f.domain f.gen (f.line * 64) =
          some { domain := f.domain, gen := f.gen, line := f.line, data := f.data }))

/-! ### Events of the homes (R154, R166, R226 to R234, R281, R288, R295 to R302, R366) -/

/-- R154, R157, R186, R288, R295: a home performs a request that its checks accept and that the limiter of its CXL port lets
through (R304), where no earlier write of its core to the line is held, at once or after its walk: a load's
reply carries the page's key, a store writes its bytes (another module's, those that its mask picks) and no other, an atomic
writes the operation's result and returns the old value. R346: a record for the secure manager is with it; R366: a pool line is dropped. -/
def Obligations.HomesServe : Prop :=
  ∀ (s : State) (id : Nat) (r : Req) (a : Attr) (s2 : Stage2), s.NoEventQueue →
    let base : Nat := physAddr s2.frame r.va
    let replied (t : State) (result : Nat) (moment : Nat → Prop) : Prop := ∃ y m, t.req? id = some y ∧ y.kind = r.kind ∧
      y.stage = .replied 0 m ∧ moment m ∧ y.result = result ∧ y.key = a.key
    let served (e : Instr) : Prop :=
      (r.kind = .load → goesTo (exec e s) (fun t => t.homes.mem = s.homes.mem ∧ t.skeins = s.skeins ∧
        replied t 0 (fun m => m = s.seq))) ∧
      (r.kind = .store → r.va % 16384 + r.data.length ≤ 16384 → goesTo (exec e s) (fun t =>
        (∀ p, Cells.get 0 t.homes.mem p =
          if base ≤ p ∧ p < base + r.data.length ∧ (r.core < 768 ∨ bit r.mask (p - base) = true) then r.data.getD (p - base) 0
          else Cells.get 0 s.homes.mem p) ∧
        t.skeins = s.skeins ∧ replied t 0 (fun m => r.core < 768 → m = s.seq + 1))) ∧
      (r.kind = .atomic → r.reg = 63 ∨ bit r.rdRights a.key = true → r.va % 16384 + r.size ≤ 16384 →
        (r.atomicStep (getBytes s.homes s2 r.va r.size)).length = r.size → goesTo (exec e s) (fun t =>
        s.WroteOnly t base (r.atomicStep (getBytes s.homes s2 r.va r.size)) ∧ t.skeins = s.skeins ∧
        replied t (ofBytes (getBytes s.homes s2 r.va r.size)) (fun m => m = s.seq + 1)))
    let passes (t : State) : Prop := (r.kind = .load ∨ s.writeHeld id r = false) ∧
      (t.poolTokens r.ctx r.domain r.va r.size r.tokens s2).isSome = true
    (s.req? id = some r → r.stage = .atHome → s.inOrder id r = true → passes s →
      judge s.homes r.domain r.gen r.va r.kind.access r.wrRights false = .page a s2 → served (.homeRequest (.request id))) ∧
    (∀ w s1, s.req? id = some r → r.stage = .walking → s.homes.walks.find? (fun e => e.2 == .request id) = some (w, .request id) →
      s.inOrder id r = true → s.walkTokens w = some s1 → passes ((s1.walkBytes w).endWalk (.request id)) →
      judge s.homes r.domain r.gen r.va r.kind.access r.wrRights true = .page a s2 → served (.walkComplete (.request id))) ∧
    (∀ f, Tab.get s.homes.faultRecs id = some f → f.toSm = true → f.delivered = false →
      goesTo (exec (.faultRecordDelivery id) s) (fun t => t = { s with homes := t.homes } ∧
        t.homes = { s.homes with faultRecs := t.homes.faultRecs } ∧
        ∃ y, Tab.get t.homes.faultRecs id = some y ∧ y.delivered = true)) ∧
    (∀ line, goesTo (exec (.backInvalidate id line) s) (fun t => t.homes.mem = s.homes.mem ∧ t.skeins = s.skeins ∧
      ∀ l ∈ t.homes.l2, l ∈ s.homes.l2 ∧ ¬ (l.domain = id ∧ l.line = line ∧
        ∃ e, Tab.get s.homes.stage2 (s2Key l.domain l.attr.dfn) = some e ∧ e.tier = 1)))

/-- R289, R290, R299 to R303, R309: the homes' commands on granules and extents. -/
def Obligations.PageCommands : Prop :=
  ∀ (s : State) (d g n m : Nat) (b : Bool), s.NoEventQueue →
    let gk : Nat := granOf d g
    let same (i : Instr) (f : State → Prop) : Prop := goesTo (exec i s) (fun t => t.skeins = s.skeins ∧ f t)
    let takes (i : Instr) (p : Attr × Stage2 → Prop) (st : Attr × Stage2 → GranState) : Prop :=
      ∀ e, g < 2 ^ 43 → s.present gk = some e → p e → s.granState gk = .mapped → Cells.get [] s.homes.granCmds gk = [] →
        same i (fun t => t.granState gk = st e ∧ t.homes.mem = s.homes.mem ∧ t.homes.stage2 = s.homes.stage2)
    let free (tier : Nat) : Prop := s.frameUsed n = false ∧ s.withdrawn n = false ∧ tier < 2 ∧
      frameFits (homeOf s.homes d (g * 16384)) tier n = true
    (takes (.migrate d g n) (fun e => free e.2.tier) (fun e => .moving n e.2.tier)) ∧
    (takes (.tiermove d g m n) (fun _ => free m) (fun _ => .moving n m)) ∧
    (takes (.compress d g) (fun e => e.1.cmpOk = true) (fun _ => .recoding true)) ∧
    (takes (.expand d g) (fun _ => True) (fun _ => .recoding false)) ∧
    (∀ a s2, s.granState gk = .moving n m → s.present gk = some (a, s2) →
      (∀ l ∈ s.homes.l2, l.dirty = 0) →
      same (.moveComplete d g) (fun t => s.WroteOnly t (n * 16384) (readBytes s.homes.mem (s2.frame * 16384) 16384) ∧
        t.granState gk = .mapped ∧
        Tab.get t.homes.stage2 (s2Key d a.dfn) = some { s2 with frame := n, tier := m })) ∧
    (∀ a s2, s.granState gk = .recoding b → s.present gk = some (a, s2) →
      same (.recodingComplete d g) (fun t => t.homes.mem = s.homes.mem ∧ t.granState gk = .mapped ∧
        Tab.get t.homes.stage2 (s2Key d a.dfn) = some { s2 with cmp := b })) ∧
    (∀ w, s.granState gk = .xrevoking w → n ∈ w → same (.filterInvalidation n d g) (fun t =>
      t.homes.mem = s.homes.mem ∧ t.granState gk = .xrevoking (w.map (fun c => if c = n then c + 256 else c)) ∧
      gk ∉ Cells.get [] t.homes.filter n ∧ ∀ l ∈ Cells.get [] t.homes.icache n,
        granKey (transDomain s.homes l.domain (l.line * 64)) (l.line * 64) ≠ gk)) ∧
    (s.granState gk = .xrevoking [n + 256] → same (.filterAck n d g) (fun t => t.granState gk = .mapped)) ∧
    (d < 65536 → n < 65536 → same (.extentGrant d n b) (fun t => t = { s with homes := { s.homes with
      ownership := Tab.set s.homes.ownership d (some { withdrawing := false, shared := b, domain := n }) } })) ∧
    (∀ e, Tab.get s.homes.ownership d = some e → same (.extentWithdraw d) (fun t => t = { s with homes := { s.homes with
      ownership := Tab.set s.homes.ownership d (if e.withdrawing then none else some { e with withdrawing := true }) } })) ∧
    (d < 65536 → s.bumping d = false → (∀ p, s.partOfDomain d = some p → s.partBusy p = false) →
      same (.genbump d) (fun t => t.homes = s.homes ∧ t.bumping d = true ∧ ∀ p, s.partOfDomain d = some p → ∀ c x,
        s.ctx? c = some x → x.domain = d → x.partition = p → x.state = .running →
        ∃ y, t.ctx? c = some y ∧ y.state = .preempting)) ∧
    (Tab.get s.homes.withdrawals d = none → same (.poolExtentWithdrawal d g n m) (fun t => t.homes.mem = s.homes.mem ∧
      (∃ y, Tab.get t.homes.withdrawals d = some y ∧ y.since = s.clock ∧ y.base = g) ∧
      ∀ k e, Tab.get t.homes.stage2 k = some e →
        Tab.get s.homes.stage2 k = some e ∧ ¬ (e.tier = 1 ∧ n ≤ e.frame ∧ e.frame < n + m))) ∧
    (∀ w, Tab.get s.homes.withdrawals d = some w → w.since + 850000 ≤ s.clock → w.released = false →
      same (.poolInflightTimeout d) (fun t => t.homes.mem = s.homes.mem ∧
        Tab.get t.homes.withdrawals d = some { w with inflight := [], released := true } ∧
        ∀ id r hi, Payload.request id ∈ w.inflight → s.req? id = some r → r.stage = .replied 0 hi →
          t.req? id = some { r with stage := .replied 7 s.seq }))

/-- R12, R227 to R234: the shadows at their homes: an open with its last home's answer, which is STALE_GEN after a bump of its
domain, as an arrival's is; an arrival, the write of an RST to its
shadow granule, the answer at the core, the votes of a publish, its commit, which puts the shadow's frame in the page's
place, its abort, and a replica that does not answer. -/
def Obligations.ShadowEvents : Prop :=
  ∀ (s : State) (op slot home : Nat) (o : ShdOp) (sh : Shadow), Tab.get s.shdops op = some o →
    s.shadow? o.ctx slot = some sh →
    let shadow (t : State) (f : Shadow → Prop) : Prop := ∃ y, t.shadow? o.ctx slot = some y ∧ f y
    let opIs (t : State) (f : ShdOp → Prop) : Prop := ∃ y, Tab.get t.shdops op = some y ∧ f y
    (o.kind = 0 → o.slot = slot → home ≠ 128 → home ∈ o.arrived → sh.openWait = [home] →
      goesTo (exec (.shadowOpenRequest op home) s) (fun t => t.homes = s.homes ∧ t.skeins = s.skeins ∧
        opIs t (fun y => y.stage = 1 ∧ y.answer =
          let owns := (sh.pages.filter (fun p => s.shHome (s.domainOf o.ctx) p.2 == home)).all
            (fun p => (ownerOf s.homes (s.domainOf o.ctx) p.2).isSome)
          if s.shdStale o = true then 0x106 else if owns = true ∨ o.answer = 0x106 then o.answer else 6) ∧
        shadow t (fun y => y.openWait = [] ∧ y.state = sh.state))) ∧
    (o.kind = 1 → o.stage = 0 → o.arrived ≠ [] → s.shdStale o = true →
      goesTo (exec (.shpubArrival op) s) (fun t => t.homes = s.homes ∧ t.skeins = s.skeins ∧
        opIs t (fun y => y.stage = 1 ∧ y.answer = 0x106) ∧ shadow t (fun y => y = sh))) ∧
    (∀ h i, o.kind = 1 → o.stage = 0 → o.arrived ≠ [] → s.shdStale o = false → o.vals = [(i, h)] →
      s.slotOf o.ctx h = some (slot, sh) → sh.state = .sopen →
      goesTo (exec (.shpubArrival op) s) (fun t => t.homes = s.homes ∧ t.skeins = s.skeins ∧ opIs t (fun y => y.stage = 1) ∧
        shadow t (fun y => y.arrived = sh.arrived + 1 ∧ if sh.arrived + 1 = sh.count then y.state = .preparing ∧
          y.started = s.clock ∧ y.openWait = s.shHomes (s.domainOf o.ctx) sh else y.state = .sopen))) ∧
    (o.stage = 2 → o.answer = 0 → o.strands.Nodup → (s.skein? o.skein).isSome = true → (s.weft? o.skein o.weft).isSome = true →
      let done (f : Strand → Strand) : Prop := goesTo (exec (.shdReply op) s) (fun t => Tab.get t.shdops op = none ∧
        (∃ wf, t.weft? o.skein o.weft = some wf ∧ wf.shadowWait = none) ∧
        ∀ k j, t.strand? k j = if k = o.skein ∧ j ∈ o.strands then (s.strand? k j).map f else s.strand? k j)
      (o.kind = 0 → o.slot = slot → s.blockHeld o.ctx sh = false → done (fun x =>
        (x.wv o.reg (BitVec.ofNat 32 ((sh.seq + 1) % 65536 * 64 + slot))).advance)) ∧
      (o.kind = 1 ∨ o.kind = 2 → done Strand.advance)) ∧
    (∀ (id : Nat) (r : Req) (a : Attr) (s2 : Stage2) (g : ShGranule), s.req? id = some r → r.kind = .rst → r.stage = .atHome →
      s.inOrder id r = true → s.writeHeld id r = false → r.ctx = o.ctx → s.slotOf o.ctx r.expect.toNat = some (slot, sh) → sh.state = .sopen →
      judge s.homes r.domain r.gen r.va .write r.wrRights true = .page a s2 → sh.replicas = [] → sh.base ≤ r.va →
      s.isLocal r.va = true → Tab.get sh.granules (shKey 0 r.va) = some g → r.va % 16384 + 4 ≤ 16384 →
      let old := readBytes s.homes.mem (physAddr g.frame r.va) 4
      goesTo (exec (.shadowWrite id) s) (fun t => s.WroteOnly t (physAddr g.frame r.va) (r.rstStep old).1 ∧
        t.skeins = s.skeins ∧ ∃ y, t.req? id = some y ∧ y.stage = .replied 0 (s.seq + 1) ∧
          y.result = (r.rstStep old).2.toNat)) ∧
    (home ≠ 128 → sh.state = .preparing → home ∈ sh.openWait →
      let dom := s.shDomain o.ctx slot
      let mine := sh.pages.filter (fun p => s.isLocal p.2 && s.homeFor dom p.2 == home)
      let gk (p : Nat × Nat) : Nat := granKey (transDomain s.homes dom p.2) p.2
      (∀ p ∈ mine, s.granState (gk p) = .mapped) →
      goesTo (exec (.publishPrepare o.ctx slot home) s) (fun t => t.homes.mem = s.homes.mem ∧ t.skeins = s.skeins ∧
        (∀ p ∈ mine, t.granState (gk p) = .prepared o.ctx slot) ∧
        shadow t (fun y => y.openWait = sh.openWait.filter (fun h => h != home) ∧
          y.votes = sh.votes ++ mine.filterMap (fun p =>
            (s.refusal o.ctx slot dom p.1 p.2 sh).map (fun v => (p.1, p.2, v.1, v.2)))))) ∧
    (o.ctx < 64 → sh.state = .preparing → sh.openWait = [] → sh.votes = [] → sh.reason = 0 → sh.abortWait = false →
      s.isLocal sh.block = false →
      goesTo (exec (.publishCommit o.ctx slot) s) (fun t => shadow t (fun y => y.state = .committed ∧ y.granules = []) ∧
        ∀ (a : Attr) (s2 : Stage2) (g : ShGranule), sh.replicas = [] → sh.size = 16384 → s.isLocal sh.base = true →
          s.page (s.domainOf o.ctx) sh.base = some (a, s2) → Tab.get sh.granules (shKey 0 sh.base) = some g →
          t.homes.mem = s.homes.mem ∧
          Tab.get t.homes.stage2 (s2Key (transDomain s.homes (s.domainOf o.ctx) sh.base) a.dfn) =
            some { s2 with frame := g.frame, tier := 0, poison := false })) ∧
    (∀ v, o.ctx < 64 → sh.state = .preparing → sh.openWait = [] → sh.votes = [v] → sh.reason = 0 → sh.abortWait = false →
      goesTo (exec (.publishAbort o.ctx slot) s) (fun t => t.skeins = s.skeins ∧
        shadow t (fun y => y.state = .failed ∧ y.granules = [] ∧ y.reason = Nat.min 15 v.2.2.2))) ∧
    (let late := sh.openWait.filter (fun h => sh.pages.any (fun p => p.1 ≠ 0 ∧ s.shHome (s.domainOf o.ctx) p.2 = h))
     o.ctx < 64 → sh.state = .preparing → late ≠ [] → sh.started + 850000 ≤ s.clock →
      goesTo (exec (.replicaTimeout o.ctx slot) s) (fun t => t.homes = s.homes ∧ t.skeins = s.skeins ∧
        shadow t (fun y => y.reason = 3 ∧ y.state = .preparing ∧
          y.openWait = sh.openWait.filter (fun h => !late.contains h))))

/-! ### Copies, the engine and the scratchpad by themselves (R196 to R207, R212, R220 to R224, R249) -/

/-- R220, R222, R224: the chunk of a copy that every home accepts is done, its bytes written; a copy that is through
retires; a refused one parks on a record; a denied one faults its context. R249: an operation starts its reads and then
takes effect. R196, R197, R202, R207, R212: a parity delta is applied, a rebuild puts what the bank held in the selvage
bank, a scrub corrects a single bit, an SPSCRUB's weft goes on. -/
def Obligations.UnitsWork : Prop :=
  ∀ (s : State) (n c : Nat) (ans : RemoteAns),
    (∀ (cp : Copy) (p : Piece) (a b : Attr) (s2 d2 : Stage2), s.copyReady n = some (cp, [p]) → s.judgePiece cp p = .ok →
      s.copyRemote cp = false → cp.kind = 3 → cp.shadow = none → cp.orig = [] → cp.bad = false →
      s.page (s.domainOf cp.ctx) p.src = some (a, s2) → s.page (s.domainOf cp.ctx) p.dst = some (b, d2) →
      s.isLocal p.src = true → s.isLocal p.dst = true → p.dst % 16384 + p.len ≤ 16384 →
      goesTo (exec (.copyChunk n ans) s) (fun t =>
        s.WroteOnly t (physAddr d2.frame p.dst) (getBytes s.homes s2 p.src p.len) ∧ t.skeins = s.skeins ∧
        ∃ y, Tab.get t.copies n = some y ∧ y.done = cp.done + cp.chunk)) ∧
    (∀ (cp : Copy) (sk : Skein), Tab.get s.copies n = some cp → cp.total ≤ cp.done → cp.frozen = false → cp.phase = 0 →
      s.skein? cp.skein = some sk →
      goesTo (exec (.copyRetire n) s) (fun t => t.homes = s.homes ∧ s.RegistersKept t ∧ Tab.get t.copies n = none ∧
        ∃ y, t.skein? cp.skein = some y ∧ y.doneCopies = sk.doneCopies ++
          [{ tag := cp.tag, seq := cp.seq, dest := cp.liveDest, bad := cp.shadowBad }])) ∧
    (∀ (cp : Copy) (ps : List Piece) (h : Piece × Nat × Nat × Nat) (sk : Skein) (f : Nat × State),
      s.copyReady n = some (cp, ps) → s.copyRemote cp = false → s.skein? cp.skein = some sk → (∀ p ∈ ps, 0 < p.len) →
      firstNack (ps.map (fun p => (p, s.judgePiece cp p))) = some h → fatalCode h.2.1 = false →
      s.openFault { ctx := cp.ctx, domain := s.domainOf cp.ctx, va := h.2.2.1, code := h.2.1, flags := h.2.2.2,
                    core := coreId cp.core, tag := cp.tag, skein := sk.index } = some f →
      exec (.copyNack n 0 ans) s = .next { f.2 with copies := Tab.upd f.2.copies n (fun y =>
        { y with parked := some f.1, parkedAt := s.clock, phase := 0 }) }) ∧
    (∀ (cp : Copy) (p : Piece) (ps : List Piece) (va : Nat) (sk : Skein) (b : Bolt) (x : Context),
      s.copyReady n = some (cp, p :: ps) → s.judgePiece cp p = .deny va → s.skein? cp.skein = some sk →
      s.bolt? sk.bolt = some b → b.state = .running → s.ctx? b.ctx = some x → x.state = .running →
      goesTo (exec (.copyViolation n ans) s) (fun t => (∃ y, t.ctx? b.ctx = some y ∧ y.state = .faulted) ∧
        ∃ y, t.bolt? sk.bolt = some y ∧ y.state = .killed)) ∧
    (∀ (o : EngineOp) (rest : List EngineOp), (s.core c).engine = o :: rest →
      (o.started = none → (∀ x ∈ o.reads, s.spanHeld x = false) → (∀ x ∈ o.peerReads, s.sameReads c x.2 = []) →
        goesTo (exec (.engineOpStart c) s) (fun t => t.homes = s.homes ∧ s.RegistersKept t ∧
        ∃ y, (t.core c).engine = y :: rest ∧ y.started = some s.clock ∧ y.kind = o.kind ∧ y.tile = o.tile)) ∧
      (∀ sk, o.started.isSome = true → s.skein? o.skein = some sk → o.kind = 3 →
        goesTo (exec (.engineOpDone c) s) (fun t => t.homes = s.homes ∧ s.RegistersKept t ∧ (t.core c).engine = rest ∧
          ∃ y, t.skein? o.skein = some y ∧ ∀ j, y.tile j = if j = o.tile then Tile.zero else sk.tile j)) ∧
      (∀ (sk : Skein) (xa xb : Span) (ab bb : List Byte) (t1 t2 : State), o.started.isSome = true →
        s.skein? o.skein = some sk → o.kind ≤ 2 → o.reads = [xa, xb] → s.spanHeld xa = false → s.spanHeld xb = false →
        (o.peerReads.foldl (fun t p => t.beginReads p.2 (o.first p.1)) (s.modCore c (fun x => { x with engine := rest }))).readOperand
          o.skein xa o.af o.readA = (t1, some ab) →
        t1.readOperand o.skein xb o.bf o.readB = (t2, some bb) → (t2.core c).abftinj = 0 → (t2.skein? o.skein).isSome = true →
        goesTo (exec (.engineOpDone c) s) (fun t => t.homes = t2.homes ∧ t2.RegistersKept t ∧
          ∃ y, t.skein? o.skein = some y ∧ y.tile o.tile = (sk.tile o.tile).mma
            { rm := 0, ftz := false, lvl2 := decide (sk.kern.level = 2) } o.kind o.af o.bf ab bb))) ∧
    (∀ e, (s.scratch c).queue.find? (fun q => q.group == n && q.complete) = some e →
      goesTo (exec (.parityApply c n) s) (fun t => t = { s with cores := t.cores } ∧
        (t.scratch c).data = (s.scratch c).data ∧ (t.scratch c).queue = (s.scratch c).queue.erase e ∧
        (t.scratch c).selWord n e.row = (s.scratch c).selWord n e.row ^^^ e.delta)) ∧
    (∀ m, n < 8 → m < 4 → (s.scratch c).group n = { BankGroup.normal with rebuilding := true, retired := m + 1 } →
      (s.scratch c).queue = [] → (s.scratch c).eccData = [] → (s.scratch c).eccSel = [] → (s.scratch c).poison = [] →
      goesTo (exec (.rebuildComplete c n) s) (fun t => ((t.scratch c).group n).rebuilding = false ∧
        (t.scratch c).data = (s.scratch c).data ∧ ∀ row < 768, (t.scratch c).word (wordAt n row m) =
          (s.scratch c).selWord n row ^^^ (s.scratch c).others n row m)) ∧
    (n < 24576 → s.rebuildsOn c = false → (s.scratch c).eccData = [] → (s.scratch c).eccSel = [] → (s.scratch c).standIn n = false →
      goesTo (exec (.scrubPass c [(n, 1)] []) s) (fun t => t = { s with cores := t.cores } ∧
        (t.scratch c).corr = min 4095 ((s.scratch c).corr + 1) ∧ (t.scratch c).data = (s.scratch c).data ∧
        (t.scratch c).eccData = [])) ∧
    (∀ (k : Nat) (sk : Skein) (wf : Weft), s.skein? k = some sk → s.weft? k n = some wf → sk.core = some c →
      wf.scrubWait = true → s.rebuildsOn c = false → (s.scratch c).eccData = [] → (s.scratch c).eccSel = [] →
      MovesStrands (.spscrubComplete k n) s (fun t => ∃ y, t.weft? k n = some y ∧ y.scrubWait = false))

/-! ### Gangs, faults, saves and restores (R261 to R274, R324 to R334) -/

/-- R264, R265: a binding record that meets no refusal fills its slot; the bolt of a record that keeps what the scheduler keeps
to (log 35) starts its skein, every strand at the entry PC; a skein with no live strand ends. R274, R331: the watchdog faults the context. R268, R324, R332, R333: a
pre-emption, its halt, the loads that it abandons, the save, the spill of an image, and the restore. -/
def Obligations.GangsRun : Prop :=
  ∀ (s : State) (c slot ctx part : Nat) (x : Context) (p : Partition), s.ctx? ctx = some x → x.partition = part →
    s.part? part = some p →
    let ctxIs (t : State) (f : Context → Prop) : Prop := ∃ y, t.ctx? ctx = some y ∧ f y
    let partIs (t : State) (f : Partition → Prop) : Prop := ∃ y, t.part? part = some y ∧ f y
    (∀ ws : List Word, c < 768 → slot < 32 → ws.length = 8 → bindValid ws = true → s.bindRefused c slot ws = false →
      (∀ y, Tab.get (s.core c).slots slot = some y → y.skein = none) →
      goesTo (exec (.bindRecordWrite c slot ws) s) (fun t => t = { s with cores := t.cores } ∧
        Tab.get (t.core c).slots slot = some { words := ws, status := 1, skein := none })) ∧
    (∀ (cl ls bolt id : Nat) (ws : List Word) (l : Launch), s.waitingBinds cl ctx ls bolt = [(c, slot, ws)] →
      s.launchAt ctx ls = some (id, l) → bindKind ws = 0 → bindNskein ws = 1 → bindSkein ws = 0 →
      s.schedKeeps cl id l none 0 [(c, slot, ws)] = true → s.rebuildsOn c = false →
      s.boltOf id bolt = none → bolt ∉ l.retired → l.kern.rstack ≤ 4 → x.state = .ready →
      (s.scratch c).usedWords (bindScratch ws) l.kern.scratch = [] →
      goesTo (exec (.boltStart cl ctx ls bolt) s) (fun t => t.homes = s.homes ∧ ctxIs t (fun y => y.state = .running) ∧
        ∃ b k bo sk, t.bolt? b = some bo ∧ bo.state = .running ∧ bo.skeins = [k] ∧ bo.index = bolt ∧ bo.ctx = ctx ∧
          t.skein? k = some sk ∧ sk.core = some c ∧ sk.ctx = ctx ∧ sk.bolt = b ∧ sk.kern = l.kern ∧
          ∀ i < bindNstrand ws, Tab.get sk.strands i = some (Strand.start l.kern.entry))) ∧
    (∀ (k : Nat) (sk : Skein), s.skein? k = some sk → sk.core = some c → sk.live = [] → s.mayIssue sk.ctx = true →
      (∀ e ∈ Tab.list s.copies, e.2.skein ≠ k) → (∀ o ∈ (s.core c).engine, o.skein ≠ k) →
      goesTo (exec (.skeinEnd k) s) (fun t => t.homes = s.homes ∧ t.skein? k = none)) ∧
    (∀ (b : Nat) (bo : Bolt), s.bolt? b = some bo → bo.ctx = ctx → bo.state = .running → x.state = .running → x.wdexp ≠ 0 →
      2 ^ x.wdexp ≤ bo.watchdog →
      goesTo (exec (.watchdog b) s) (fun t => ctxIs t (fun y => y.state = .faulted) ∧
        ∃ y, t.bolt? b = some y ∧ y.state = .killed ∧ y.skeins = [])) ∧
    (s.partBusy part = false → x.state = .running → p.preempt = none →
      goesTo (exec (.preempt .scheduler part (some ctx)) s) (fun t => t.homes = s.homes ∧ t.skeins = s.skeins ∧
        ctxIs t (fun y => y.state = .preempting) ∧
        partIs t (fun y => y.preempt = some s.clock ∧ ctx ∈ y.preempting ∧ y.haltedAt = none) ∧
        ∀ b bo, s.bolt? b = some bo → bo.ctx = ctx → bo.state = .running → ∃ y, t.bolt? b = some y ∧ y.state = .halting)) ∧
    (∀ t0 : Nat, p.preempt = some t0 → p.haltedAt = none →
      (s.toSave p ≠ [] → (∀ e ∈ s.skeinsOf (s.toSave p), s.skeinHalted e.1 e.2 p.abandoned = true) →
        goesTo (exec (.haltComplete part) s) (fun t => t.homes = s.homes ∧ s.RegistersKept t ∧
          partIs t (fun y => y.haltedAt = some s.clock) ∧
          ∀ e ∈ s.skeinsOf (s.toSave p), ∀ i st, s.strand? e.1 i = some st → ∃ y, t.strand? e.1 i = some y ∧ y.pc = st.pc ∧
            match st.status with
            | .pathwait _ => y.status = .ready
            | .parked _ => y.status = .ready
            | o => y.status = o)) ∧
      (p.abandoned = false → t0 + 6800 ≤ s.clock →
        goesTo (exec (.abandonTimeout part) s) (fun t => t.homes = s.homes ∧ s.RegistersKept t ∧
          partIs t (fun y => y.abandoned = true) ∧
          ∀ id r, s.req? id = some r → id < s.nextId → r.kind = .load → r.stopped = false →
            r.skein ∈ (s.skeinsOf (s.toSave p)).map Prod.fst →
            t.req? id = none ∧ ∀ st, s.strand? r.skein r.strand = some st → st.hold = some id →
              ∃ y, t.strand? r.skein r.strand = some y ∧ y.hold = none ∧ y.pc = st.pc))) ∧
    (x.state = .preempting → p.haltedAt.isSome = true → ctx ∈ p.preempting → x.destroyWait = false →
      (∀ j, (s.scratch j).eccData = [] ∧ (s.scratch j).eccSel = [] ∧ (s.scratch j).poison = [] ∧ s.rebuildsOn j = false) →
      goesTo (exec (.contextSaveComplete ctx) s) (fun t => ctxIs t (fun y => y.state = .saved) ∧
        ∀ k sk, s.skein? k = some sk → sk.ctx = ctx → ∃ y, t.skein? k = some y ∧ y.core = none ∧ y.strands = sk.strands ∧
          y.wefts = sk.wefts)) ∧
    (x.state = .saved →
      (∀ since, x.sharedSince = some since → x.restoring = none → x.spilling = none → since + 85000 ≤ s.clock →
        goesTo (exec (.imageSpillStart ctx) s) (fun t => t = { s with contexts := t.contexts } ∧
          ctxIs t (fun y => y = { x with spilling := some s.clock }))) ∧
      (x.spilling.isSome = true → goesTo (exec (.spillComplete ctx) s) (fun t => t.homes = s.homes ∧ t.skeins = s.skeins ∧
        ctxIs t (fun y => y.state = .spilled ∧ y.image = []))) ∧
      (s.partBusy part = false → s.bumping x.domain = false →
        goesTo (exec (.restore .scheduler ctx) s) (fun t => t.homes = s.homes ∧ t.skeins = s.skeins ∧
          ctxIs t (fun y => y.state = .saved ∧ y.restoring = some s.clock ∧ y.spilling = none)))) ∧
    (∀ (b : Nat) (bo : Bolt), p.pending = none → x.restoring.isSome = true → s.bolt? b = some bo → bo.ctx = ctx →
      (∀ e ∈ Tab.list s.bolts, e.2.ctx = ctx → e.2.state = .running ∧
        ∀ k ∈ e.2.skeins, ∀ i st, s.strand? k i = some st → st.status = .ready) →
      s.repliesDue ctx = false →
      goesTo (exec (.restoreComplete ctx) s) (fun t =>
        ctxIs t (fun y => y.state = .running ∧ y.restoring = none ∧ y.gen = Cells.get 0 s.homes.gens x.domain)))

/-! ### Queue commands (R291, R298 to R301, R311 to R317, R326 to R329, R339 to R346) -/

/-- R291, R299, R301, R311 to R313, R317, R326 to R329, R339 to R345: each command taken from a queue has its effect; a
completion writes its 16 bytes; a doorbell of a host core that works for the
queue's domain moves a ring's index or puts the queue in ERROR, and its QRESET ends that. R317:
READY and START. R298: REPLAY closes a record, and the strands parked on it issue again. -/
def Obligations.CommandsRun : Prop :=
  ∀ (s : State) (qn ctx n : Nat) (q : Queue) (b : List Byte) (x : Context),
    let t0 : State := (s.fetched 224 q.domain q.base 64).taken qn q
    let runs (i : Instr) (op : Nat) (used : List (Nat × Nat)) (after : State → Prop) : Prop :=
      s.Takes qn op used q b ctx → TakesCommand i s qn q after
    let ctxIs (t : State) (k : Nat) (f : Context → Prop) : Prop := ∃ y, t.ctx? k = some y ∧ f y
    let own : Prop := fieldAt b 16 1 = n ∧ s.ctx? n = some x ∧ x.domain = q.domain ∧ x.state ≠ .dead
    let noStored : Prop := s.ctx? ctx = some x ∧ ∀ e ∈ Tab.list s.launches, e.2.ctx = ctx → e.2.state ≠ .stored
    (∀ (rec hdr : List Byte) (r : LaunchRec) (kern : Kernel) (t1 t2 : State), fieldAt b 16 8 % 256 = 0 → fieldAt b 16 8 < 2 ^ 57 →
      s.ctx? ctx = some x → x.state ≠ .draining → x.state ≠ .dead → (∀ e ∈ Tab.list s.launches, e.2.ctx ≠ ctx) →
      t0.hostRead ctx (fieldAt b 16 8) 256 = .ok (rec, t1) → parseRecord rec = some r → r.span = false →
      t1.hostRead ctx r.kernVa 64 = .ok (hdr, t2) → t2.refuse ctx r hdr = .ok kern → s.entryFree ctx = true →
      runs (.launchCmd qn) 0x0001 [(16, 8)] (fun t => t.homes = s.homes ∧ ∃ l, Tab.get t.launches s.nextId = some l ∧
        l.ctx = ctx ∧ l.kern = kern ∧ l.args = r.args ∧ l.nbolt = r.nbolt ∧ l.lslot = s.freeSlot ∧
        l.state = if x.state.admits ∧ x.ev &&& r.wait = r.wait then .admitted else .stored)) ∧
    (noStored → runs (.evset qn) 0x0002 [(16, 32)] (fun t => t.homes = s.homes ∧
      ctxIs t ctx (fun y => y.ev = x.ev ||| fieldAt b 16 32))) ∧
    (noStored → runs (.evclear qn) 0x0003 [(16, 32)] (fun t => t.homes = s.homes ∧
      ctxIs t ctx (fun y => y.ev = x.ev - (x.ev &&& fieldAt b 16 32)))) ∧
    (∀ (a : Attr) (s2 : Stage2), s.ctx? ctx = some x → fieldAt b 16 8 % 32 = 0 → fieldAt b 16 8 < 2 ^ 57 →
      s.isLocal (fieldAt b 16 8) = true →
      judge s.homes x.domain x.gen (fieldAt b 16 8) .write (s.rightsVec 768 ctx 1) true = .page a s2 →
      runs (.evread qn) 0x0004 [(16, 8)] (fun t =>
        s.WroteOnly t (physAddr s2.frame (fieldAt b 16 8)) (bytesOf 32 x.ev))) ∧
    (∀ (id : Nat) (l : Launch), (Tab.list s.launches).find? (fun e => e.2.ctx == ctx && e.2.span &&
        e.2.sgen == fieldAt b 16 2 && e.2.state != .admitted) = some (id, l) →
      runs (.cancel qn) 0x0005 [(16, 2)] (fun t => t.homes = s.homes ∧ Tab.get t.launches id = none)) ∧
    (s.freeCtx = some n → fieldAt b 16 1 ≤ 1 → (∀ k < 16, fieldAt b (17 + k) 1 < 4) → fieldAt b 40 8 < 2 ^ 36 →
      runs (.build qn) 0x0101 [(16, 17), (40, 8)] (fun t => t.homes.mem = s.homes.mem ∧
        Tab.get t.homes.roots (q.domain * 1024 + s.modNo) = some (fieldAt b 40 8) ∧
        ctxIs t n (fun y => y.state = .building ∧ y.domain = q.domain ∧ y.partition = q.partition ∧
          y.priv = (fieldAt b 16 1 == 1) ∧ ∀ k < 16, Cells.get 0 y.keys k = fieldAt b (17 + k) 1))) ∧
    (own → x.state ≠ .preempting → x.state ≠ .draining → (∀ e ∈ Tab.list s.queues, e.2.kind = 0 → e.2.ctx ≠ n) →
      runs (.destroy qn) 0x0102 [(16, 1)] (fun t => ctxIs t n (fun y => y.state = .draining) ∧
        ∀ e ∈ Tab.list t.bolts, e.2.ctx ≠ n)) ∧
    (own → (∀ k < 16, fieldAt b (17 + k) 1 < 4) → runs (.setkeys qn) 0x0103 [(16, 17)] (fun t => t.homes = s.homes ∧
      ctxIs t n (fun y => ∀ k < 16, Cells.get 0 y.keys k = fieldAt b (17 + k) 1))) ∧
    (fieldAt b 16 2 < 1024 → fieldAt b 24 8 < 2 ^ 36 → runs (.setroot qn) 0x0104 [(16, 2), (24, 8)] (fun t =>
      t.homes = { s.homes with roots := t.homes.roots } ∧
      ∀ k, Tab.get t.homes.roots k = if k = q.domain * 1024 + fieldAt b 16 2 then some (fieldAt b 24 8) else
        Tab.get s.homes.roots k)) ∧
    (own → 4 ≤ fieldAt b 32 1 → fieldAt b 32 1 ≤ 16 → fieldAt b 24 8 + 256 * 2 ^ fieldAt b 32 1 ≤ 2 ^ 57 →
      runs (.ringset qn) 0x0105 [(16, 1), (24, 9)] (fun t => t.homes = s.homes ∧
        ctxIs t n (fun y => y = { x with ringVa := fieldAt b 24 8, ringSize := 2 ^ fieldAt b 32 1, ringTail := 0 }))) ∧
    (own → fieldAt b 24 8 % 16 = 0 → fieldAt b 32 8 ≤ 2 ^ 40 → fieldAt b 24 8 + fieldAt b 32 8 ≤ 2 ^ 57 → x.blocks = [] →
      runs (.rspool qn) 0x010C [(16, 1), (24, 16)] (fun t => t.homes = s.homes ∧
        ctxIs t n (fun y => y = { x with poolVa := fieldAt b 24 8, poolSize := fieldAt b 32 8 }))) ∧
    (∀ j, own → (List.range 64).find? (fun k => (Tab.get s.queues (n * 64 + k)).isNone) = some j →
      ringOk (fieldAt b 24 8) (fieldAt b 17 1) = true → fieldAt b 18 1 ≤ 7 → x.state ≠ .draining →
      runs (.qopen qn) 0x0106 [(16, 3), (24, 8)] (fun t => t.homes = s.homes ∧ Tab.get t.queues (n * 64 + j) =
        some (Queue.opened 0 n x.domain x.partition (fieldAt b 24 8) (fieldAt b 17 1) (fieldAt b 18 1)))) ∧
    (∀ (j : Nat) (y : Queue), own → fieldAt b 17 1 = j → j < 64 → n * 64 + j ≠ qn → Tab.get s.queues (n * 64 + j) = some y →
      y.kind = 0 → y.head = y.tail → y.drops = [] → y.dropped = 0 → s.inProgress (n * 64 + j) = 0 → y.state ≠ .closed → y.state ≠ .draining →
      runs (.qclose qn) 0x0107 [(16, 2)] (fun t => t.homes = s.homes ∧ Tab.get t.queues (n * 64 + j) = none)) ∧
    (∀ (id : Nat) (r : FaultRec),
      let replayed (t : State) : Prop := t.homes.mem = s.homes.mem ∧ Tab.get t.homes.faultRecs id = none ∧
        ∀ k i st, s.strand? k i = some st → t.strand? k i =
          some (if st.parkedOn = some id then { st with status := .ready } else st)
      Tab.get s.homes.faultRecs id = some r →
      (fieldAt b 16 4 = id → r.domain = q.domain → r.toSm = false →
        runs (.replay (some qn) 0) 0x0108 [(16, 4)] replayed) ∧
      (id < 2 ^ 32 → r.toSm = true → goesTo (exec (.replay none id) s) replayed)) ∧
    (let gone (gk : Nat) : Prop := granOf q.domain (fieldAt b 16 8 / 16384) ≤ gk ∧
       gk < granOf q.domain ((fieldAt b 16 8 + fieldAt b 24 8 + 16383) / 16384)
     fieldAt b 16 8 + fieldAt b 24 8 ≤ 2 ^ 57 → 0 < fieldAt b 24 8 → s.NoEventQueue →
      runs (.tinval qn) 0x0109 [(16, 16)] (fun t => t.homes.mem = s.homes.mem ∧ (∀ e ∈ t.homes.attrs, ¬ gone e.1) ∧
        ∀ l ∈ t.homes.l2, ¬ gone (l.domain * 2 ^ 43 + l.line / 64))) ∧
    (let gk := granOf q.domain (fieldAt b 16 8 / 16384)
     let listing := (s.homes.filter.filter (fun e => e.2.contains gk)).map Prod.fst
     fieldAt b 16 8 < 2 ^ 57 → pageGrans s.homes q.domain (fieldAt b 16 8) = 1 → s.granState gk = .mapped → (s.present gk).isSome = true →
      Cells.get [] s.homes.granCmds gk = [] → listing ≠ [] → s.NoEventQueue →
      runs (.protect qn) 0x010A [(16, 8)] (fun t => t.homes.mem = s.homes.mem ∧ t.granState gk = .xrevoking listing)) ∧
    (∀ (u : State) (nonce : List Byte),
      (fieldAt b 48 8 < 2 ^ 57 →
        t0.modWriteAll q.domain (q.rights t0).1 (q.rights t0).2.1 (fieldAt b 48 8) 256
          (quoteOf (t0.quoteBody ((b.drop 16).take 32) (some q.partition))) = (u, none) →
        runs (.attest (some qn) nonce) 0x010B [(16, 40)] (fun t => t.homes = u.homes)) ∧
      (nonce.length = 32 → s.dev.bootStep ≠ 0 →
        exec (.attest none nonce) s = .next (s.answer true 0 (quoteOf (s.quoteBody nonce none))))) ∧
    (∀ (tag caddr status result : Nat) (a : Attr) (s2 : Stage2), Tab.get s.queues qn = some q → qn < 2 ^ 32 → caddr ≠ 0 →
      caddr % 16 = 0 → caddr + 16 ≤ 2 ^ 57 → q.state ≠ .error → s.isLocal caddr = true →
      judge s.homes q.domain (q.rights s).1 caddr .write (q.rights s).2.1 true = .page a s2 →
      s.WroteOnly (s.finish qn tag caddr status result) (physAddr s2.frame caddr)
        (bytesOf 4 tag ++ bytesOf 2 status ++ bytesOf 2 0 ++ bytesOf 8 result)) ∧
    (∀ v : HostWrite, Tab.get s.queues qn = some q → q.state ≠ .closed → s.hostMay v q.domain = true →
      let ahead (p r : Nat) : Nat := (p + 2 ^ 32 - r) % 2 ^ 32
      let queueIs (i : Instr) (f : Queue → Prop) : Prop :=
        goesTo (exec i s) (fun t => t.homes = s.homes ∧ ∃ y, Tab.get t.queues qn = some y ∧ f y)
      (q.state ≠ .error → q.state ≠ .draining → q.kind ≤ 1 → ahead v.value.toNat q.head ≤ 2 ^ q.l →
        ahead v.value.toNat q.tail ≤ 2 ^ q.l →
        queueIs (.doorbell qn v) (fun y => y.tail = v.value.toNat ∧ y.head = q.head)) ∧
      (q.state ≠ .error → q.state ≠ .draining → q.kind = 2 → q.failed = none → q.waiting = [] →
        ahead q.tail v.value.toNat ≤ 2 ^ q.l → ahead v.value.toNat q.head ≤ 2 ^ q.l →
        queueIs (.doorbell qn v) (fun y => y.head = v.value.toNat ∧ y.tail = q.tail)) ∧
      (q.kind ≤ 1 → 2 ^ q.l < ahead v.value.toNat q.head → 2 ^ q.l < ahead q.tail v.value.toNat →
        queueIs (.doorbell qn v) (fun y => y = { q with state := .error, err := 1 })) ∧
      (v.value = 1 → q.state = .error → q.kind ≠ 0 → (q.kind = 1 → q.head = q.tail) → q.drops = [] → q.dropped = 0 →
        q.waiting = [] → q.failed = none →
        queueIs (.qreset qn v) (fun y => y.err = 0 ∧ y.state ≠ .error ∧ y.head = q.head ∧ y.tail = q.tail))) ∧
    (s.ctx? ctx = some x →
      (x.state = .building → goesTo (exec (.contextBuilt ctx) s) (fun t => ctxIs t ctx (fun y => y = { x with state := .ready }))) ∧
      (∀ (core : Nat) (e : Nat × Nat × Nat × Nat), x.keyWait.find? (fun e => e.1 == core) = some e →
        goesTo (exec (.keyTableUpdateApplied ctx core) s) (fun t =>
          ctxIs t ctx (fun y => y = { x with keyWait := x.keyWait.erase e })))) ∧
    (∀ (sgen id m : Nat) (l : Launch), Tab.get s.launches id = some l →
      (s.heldSpanOf ctx sgen = some (id, l) → l.spanList.head? ≠ some s.modNo ∨ (∀ k ∈ l.spanList, k ∈ l.ready) →
        goesTo (exec (.startToken ctx sgen) s) (fun t => t = { s with launches := t.launches, net := t.net, parts := t.parts } ∧
          Tab.get t.launches id = some { l with state := .admitted })) ∧
      ((Tab.list s.launches).find? (fun e => e.2.ctx == ctx && e.2.span && e.2.sgen == sgen &&
          e.2.state != .admitted) = some (id, l) → l.spanList.head? = some s.modNo → m ∈ l.spanList → m ∉ l.ready →
        m ≠ s.modNo →
        goesTo (exec (.readyToken ctx sgen m) s) (fun t => t = { s with launches := t.launches } ∧
          Tab.get t.launches id = some { l with ready := l.ready ++ [m] })))

/-! ### Partitions and the device (R305, R321 to R324, R335 to R337, R359, R360, R371 to R377, R405, R408 to R410) -/

/-- R321 to R324, R335, R336, R408, R409: CARVE lays out a partition, with its first context loading, its quadrants
scrubbed and its queues closed, and PARTITION_READY opens it; UNCARVE drains its contexts; PARTSET pre-empts what runs, and
then its extents are withdrawn and its settings written; an interval closes with a signed record; bring-up goes from step to
step as each stage verifies (the times of the steps are the model's choice, log 38), the operator's key, and a reset. The bytes
of a signed request are the model's choice (log 30). -/
def Obligations.PartitionsRun : Prop :=
  ∀ (s : State) (auth : Auth) (part : Nat) (p : Partition),
    let partIs (t : State) (f : Partition → Prop) : Prop := ∃ y, t.part? part = some y ∧ f y
    let ctxIs (t : State) (k : Nat) (f : Context → Prop) : Prop := ∃ y, t.ctx? k = some y ∧ f y
    (∀ (a : CarveArgs) (c : Nat), s.Serves auth (carveOps a) → s.dev.bootStep = 6 → s.carveStatus a = 0 → s.freeCtx = some c →
      (List.range 16).find? (fun k => (s.part? k).isNone) = some part →
      goesTo (exec (.carve auth a) s) (fun t => t.part? part = some (Partition.carvedAt a s.clock) ∧
        t.homes.mem = s.homes.mem.filter (fun e => (s.keptFrames (carveQuads a) a.domain).contains (e.1 / 16384)) ∧
        ctxIs t c (fun y => y.state = .building ∧ y.partition = part ∧ y.domain = a.domain ∧ y.priv = a.priv) ∧
        (∀ k ∈ [1, 2, 3], ∃ y, Tab.get t.queues (fixedQueue part k) = some y ∧ y.state = .closed ∧ y.kind = k ∧
          y.domain = a.domain) ∧ t.dev.opSeq = auth.seq.toNat)) ∧
    (s.part? part = some p → p.ready = false →
      goesTo (exec (.partitionReady part) s) (fun t => partIs t (fun y => y = { p with ready := true }) ∧
        (∀ c x, s.ctx? c = some x → x.partition = part → x.state = .building →
          ctxIs t c (fun y => y = { x with state := .ready })) ∧
        (s.pendOf opCarve part = [] → ∀ k ∈ [1, 2, 3], ∀ y, Tab.get s.queues (fixedQueue part k) = some y →
          Tab.get t.queues (fixedQueue part k) = some { y with state := .qopen }))) ∧
    (s.Serves auth (uncarveOps part) → s.part? part = some p → s.partBusy part = false →
      goesTo (exec (.uncarve auth part) s) (fun t => partIs t (fun y => y.closing = true) ∧
        ∀ c x, s.ctx? c = some x → x.partition = part → x.state = .ready ∨ x.state = .running →
          ctxIs t c (fun y => y.state = .draining))) ∧
    (∀ (ps : PartSettings) (gr wd : List (Nat × Nat)), s.part? part = some p →
      (s.Serves auth (partsetOps part ps gr wd) → s.partBusy part = false → settingsOk ps = true → rangesOk gr = true →
        rangesOk wd = true → s.capFits part p ps.cap = true → s.foreign p.domain gr = false →
        goesTo (exec (.partset auth part ps gr wd) s) (fun t => t.homes = s.homes ∧
          partIs t (fun y => y.pending = some (settingsNorm ps, gr, wd) ∧ y.settings = p.settings) ∧
          ∀ c x, s.ctx? c = some x → x.partition = part → x.state = .running →
            ctxIs t c (fun y => y = { x with state := .preempting }) ∧ partIs t (fun y => y.restoreAfter = true))) ∧
      (p.pending = some (ps, gr, wd) →
        ((∀ e ∈ extentsOf wd, s.ownedBy p.domain e = false) →
          partIs (s.applyPending part p) (fun y => y = { p with settings := ps, pending := none }) ∧
          ∀ e, Tab.get (s.applyPending part p).homes.ownership e =
            if e ∈ extentsOf gr then some { withdrawing := false, shared := false, domain := p.domain }
            else Tab.get s.homes.ownership e) ∧
        ((∃ e ∈ extentsOf wd, s.ownedBy p.domain e = true) → (s.applyPending part p).parts = s.parts ∧
          ∀ e ∈ extentsOf wd, ∀ o, Tab.get s.homes.ownership e = some o → s.ownedBy p.domain e = true →
            Tab.get (s.applyPending part p).homes.ownership e = some { o with withdrawing := true }))) ∧
    (s.part? part = some p → p.ready = true → p.intervalStart + p.settings.meter * 85000000 ≤ s.clock →
      goesTo (exec (.meterIntervalEnd part) s) (fun t => t.dev.recSeq = s.dev.recSeq + 1 ∧
        t.dev.ring.length = s.dev.ring.length + 1 ∧ partIs t (fun y => y.interval = p.interval + 1 ∧
          y.intervalStart = s.clock ∧ y.prevLeaf = p.leaf part s.clock ∧ y.meters = p.meters))) ∧
    (s.Serves auth resetOps → goesTo (exec (.reset auth) s) (fun t => t.clock = 0 ∧ t.parts = [] ∧ t.contexts = [] ∧ t.skeins = [] ∧
      t.homes.mem = [] ∧ t.dev.bootStep = 0 ∧ t.dev.opKey = s.dev.opKey ∧ t.dev.opSeq = auth.seq.toNat)) ∧
    (∀ (boot : BootArgs) (digest : List Byte) (ok : Bool),
      (s.dev.bootStep = 0 → s.dev.bootFailed = false → boot.stages.length = 5 → boot.stages.head? = some (digest, ok) →
        goesTo (exec (.resetRelease boot) s) (fun t => t.clock = 0 ∧ t.homes = s.homes ∧ t.dev.bootFailed = !ok ∧
          t.dev.bootStep = (if ok then 1 else 0) ∧ t.dev.bootLog = digest :: (if ok then s.dev.opKey.toList.map Config.shake256 else []) ∧
          t.dev.boot = if ok then some boot else s.dev.boot)) ∧
      (s.dev.boot = some boot → s.dev.bootFailed = false → bootClock (s.dev.bootStep + 1) ≤ s.clock →
        let t := s.bootOn
        (s.dev.bootStep = 5 → t.dev.bootStep = 6 ∧ t.dev.boot = none ∧ s.dev.ring.length < t.dev.ring.length) ∧
        (s.dev.bootStep < 5 → boot.stages[s.dev.bootStep]? = some (digest, ok) → t.dev.bootLog = s.dev.bootLog ++ [digest] ∧
          t.dev.bootFailed = (!ok) ∧ t.dev.bootStep = (if ok then s.dev.bootStep + 1 else s.dev.bootStep)))) ∧
    (∀ key : List Byte, key.length = 64 → s.served = true →
      let keyed (t : State) : Prop := t = { s with dev := t.dev } ∧ t.dev.opKey = some key
      (∀ old, s.dev.opKey = some old → s.authentic auth (opkeyOps key) = true →
        goesTo (exec (.setopkey auth key) s) (fun t => keyed t ∧ t.dev.opSeq = auth.seq.toNat)) ∧
      (s.dev.opKey = none → s.dev.provision = true → s.dev.provisionUsed = false →
        goesTo (exec (.setopkey auth key) s) (fun t => keyed t ∧ t.dev.provisionUsed = true)) ∧
      (∀ old, s.dev.opKey = some old → s.authentic auth (opkeyOps key) = false →
        exec (.setopkey auth key) s = .next (s.answer true 1 [])))

/-- R305, R359, R360, R371, R373, R375, R405, R408: a register write keeps the fields that the register has; a capture unit
starts afresh and then records; a host-core violation freezes its context; PWRCAP keeps LIMIT between 1,000 and 4,400;
READRING returns the signed records. -/
def Obligations.DeviceRuns : Prop :=
  ∀ (s : State) (v : Word) (n m : Nat) (auth : Auth) (w : Option Word),
    let only (i : Instr) (f : Device → Prop) : Prop := goesTo (exec i s) (fun t => t = { s with dev := t.dev } ∧ f t.dev)
    only (.registerWrite .linkcfg v) (fun d => bits d.linkcfg.toNat 31 28 = min 15 (max 9 (bits v.toNat 31 28)) ∧
      bits d.linkcfg.toNat 27 24 = max 1 (bits v.toNat 27 24) ∧ bits d.linkcfg.toNat 23 16 = bits v.toNat 23 16 ∧
      bits d.linkcfg.toNat 15 0 = 0) ∧
    only (.registerWrite .lsel v) (fun d => d.lsel = v &&& 0x03FF00FF) ∧
    goesTo (exec (.registerWrite .healthth v) s) (fun t => t.dev.healthth = v ∧ t.parts = s.parts ∧ t.skeins = s.skeins) ∧
    (∀ p : Partition, s.part? n = some p →
      (s.ctxsOfPart n).all (fun c => (s.ctx? c).elim true (fun x => x.state != .running)) = true →
      goesTo (exec (.registerWrite (.limiter n m) v) s) (fun t => t = { s with parts := t.parts } ∧
        t.part? n = some { p with settings := { p.settings with
          limLoom := if m = 0 then v &&& 0xFFFF00FF else p.settings.limLoom
          limFabric := if m = 1 then v &&& 0xFFFF00FF else p.settings.limFabric
          limPool := if m = 2 then v &&& 0xFFFF00FF else p.settings.limPool } })) ∧
    (∀ h : HostWrite, n < 16 → m < 32 → h.host = none ∨ (∃ k p, s.part? k = some p ∧ n ∈ p.quads ∧ s.hostMay h p.domain = true) →
      goesTo (exec (.capcfgWrite n m h) s) (fun t => t = { s with captures := t.captures } ∧
      Cells.get Capture.reset t.captures (n * 32 + m) = { cfg := h.value &&& 0x8F0000FF, min := 0xFFFFFFFF, max := 0, bins := [] })) ∧
    (∀ (cap : Capture) (j : Nat), Cells.get Capture.reset s.captures (n * 32 + m) = cap → m < 32 → cap.cfg.getLsbD 31 = true →
      cap.cfg.toNat % 256 = j → j < 8 → cap.sampled.any (fun t => decide (s.clock < t + samplePeriod (bits cap.cfg.toNat 27 24))) = false →
      (bits cap.cfg.toNat 27 24 = 1 → goesTo (exec (.captureSample n m) s) (fun t => t = { s with captures := t.captures } ∧
        Cells.get Capture.reset t.captures (n * 32 + m) = { cap.record (s.homeDepth (n * 8 + j)) with sampled := some s.clock })) ∧
      (bits cap.cfg.toNat 27 24 = 4 → goesTo (exec (.captureSample n m) s) (fun t => t = { s with captures := t.captures } ∧
        Cells.get Capture.reset t.captures (n * 32 + m) = { cap.record (s.watchEntries (n * 8 + j)) with sampled := some s.clock }))) ∧
    (n < 32 → n ∉ s.dev.frozenHosts → only (.hostMmioViolation n ⟨m, none⟩) (fun d => d.frozenHosts = s.dev.frozenHosts ++ [n]) ∧
      ∀ pt, goesTo (exec (.hostMmioViolation n ⟨m, pt⟩) s) (fun t => t.dev.frozenHosts = s.dev.frozenHosts ++ [n] ∧
        t.skeins = s.skeins ∧ t.contexts = s.contexts)) ∧
    only (.powerOverLimit n) (fun d => d = { s.dev with draw := min 0xFFFF n, withhold := decide (s.dev.limit * 8 < n) }) ∧
    (s.Serves auth (pwrcapOps w) → only (.pwrcap auth w) (fun d => d.opSeq = auth.seq.toNat ∧ d.draw = s.dev.draw ∧
      d.limit = w.elim s.dev.limit (fun x => min 4400 (max 1000 (bits x.toNat 31 16))) ∧
      ∃ b, d.answers = s.dev.answers ++ [{ port := true, status := 0, data := b }])) ∧
    (s.dev.bootStep ≠ 0 → exec .readring s =
      .next (s.answer true 0 ((s.dev.ring.filter (fun r => r.1)).flatMap Prod.snd)))

/-! ### The Loom and the fabric (R349 to R365) -/

/-- R349 to R354, R356, R359: the token, at the next station in its order, sends what waits; a flit that arrives with no bit
wrong and in sequence is delivered, one that fails its CRC is not; a flit
unacknowledged for 2 µs is sent again; the rotation lends the shadow to one wavelength after another, retraining and
calibration end; the wavelengths of a lost source are dark. R362 to R365: ports train once bring-up has come to them, go down,
come back, and move a weak or lost lane to the shadow lane where it is free; what a weak lane waits for, and what a port's
requests are answered while it is down, follow R353, R354 and R364. -/
def Obligations.LinksAndPorts : Prop :=
  ∀ (s : State) (ch st port lane : Nat) (offer : Bool),
    let l : Link := s.link (linkNo ch st)
    let linkIs (t : State) (f : Link → Prop) : Prop := f (t.link (linkNo ch st))
    let p : Port := s.port port
    (linkExists ch st = true →
      (∀ (ty : Nat) (w : Payload), s.linkDown ch st = false → l.fault = false → l.buffer = [] → l.toShadow = none →
        l.back = false → l.weakWait = [] → l.reports = [] → l.outq = [(ty, w)] → 1 ≤ ty → ty ≤ 3 → s.tokenNext ch st = true →
        (ty = 1 → ∀ pt d, limitPoint ch st = some pt → s.limited w = some d → ∀ y, s.part? d.1 = some y →
          bits (if pt = 96 then y.settings.limFabric else y.settings.limLoom).toNat 31 16 = 0) →
        goesTo (exec (.tokenArrival ch st) s) (fun t => t.homes = s.homes ∧ linkIs t (fun k => k.outq = [] ∧
          k.nextSeq = (l.nextSeq + 1) % 256 ∧ ∃ f, k.flying = l.flying ++ [f] ∧ k.buffer = [f] ∧ f.seq = l.nextSeq ∧
          f.type = ty ∧ f.payload = w ∧ f.sent = some s.clock))) ∧
      (∀ (f : Flit) (rest : List Flit) (flips fixed : List (Nat × Nat)), l.flying = f :: rest →
        (∀ (id : Nat) (r : Req) (code hi : Nat), f.seq = l.expect → l.expect < 256 → f.type = 2 → f.payload = .reply id → s.req? id = some r →
          r.stage = .replied code hi → r.core < 768 →
          goesTo (exec (.flitReceive ch st [] fixed) s) (fun t => t.homes = s.homes ∧
            t.req? id = some { r with stage := .returned code hi } ∧
            linkIs t (fun k => k.flying = rest ∧ k.expect = (l.expect + 1) % 256))) ∧
        ((∀ x ∈ l.buffer, x.fails < 1023) → f.decoded st flips = none →
          goesTo (exec (.flitReceive ch st flips fixed) s) (fun t => t.homes = s.homes ∧ t.reqs = s.reqs ∧
            linkIs t (fun k => k.flying = rest ∧ k.expect = l.expect ∧ k.buffer.length = l.buffer.length)))) ∧
      (l.toShadow = none → l.back = false → l.weakWait = [] → s.rotStep ≠ 0 → (∀ k < 16, s.waveOf ch st k ≠ .retired) →
        (s.shadowOf ch st = .standby → s.waveOf ch st l.rotation = .carrying →
          goesTo (exec (.rotationStep ch st) s) (fun t => t = { s with net := t.net } ∧
            t.waveOf ch st l.rotation = .recal s.clock ∧ linkIs t (fun k => k.toShadow = some (l.rotation, 0, 0)))) ∧
        (∀ since, s.shadowOf ch st = .lending lane → s.waveOf ch st lane = .recal since → since + s.rotStep ≤ s.clock →
          goesTo (exec (.rotationStep ch st) s) (fun t => t = { s with net := t.net } ∧ t.waveOf ch st lane = .carrying ∧
            linkIs t (fun k => k.back = true ∧ k.rotation = (lane + 1) % 16))))) ∧
    ((∃ f ∈ l.buffer, ∃ at', f.sent = some at' ∧ at' + 1700 ≤ s.clock) →
      goesTo (exec (.flitReplayTimeout ch st) s) (fun t => t = { s with net := t.net } ∧
        linkIs t (fun k => k = { l with buffer := l.buffer.map (fun f => { f with sent := none }) }))) ∧
    (∀ tries fixed, s.waveOf ch st lane = .retrain tries → s.shadowOf ch st = .lending lane →
      (fixed ≤ 1 → goesTo (exec (.retrainDone ch st lane fixed) s) (fun t => t.waveOf ch st lane = .carrying ∧
        linkIs t (fun k => k.back = true))) ∧
      (1 < fixed → bits s.dev.linkcfg.toNat 27 24 ≤ tries + 1 →
        goesTo (exec (.retrainDone ch st lane fixed) s) (fun t => t.waveOf ch st lane = .retired)) ∧
      (1 < fixed → tries + 1 < bits s.dev.linkcfg.toNat 27 24 →
        goesTo (exec (.retrainDone ch st lane fixed) s) (fun t => t.waveOf ch st lane = .retrain (tries + 1)))) ∧
    (∀ since, s.shadowOf ch st = .calibrating lane since → since + 54400 ≤ s.clock → l.weakWait = [] →
      goesTo (exec (.shadowCalibrationDone ch st) s) (fun t => t = { s with net := t.net } ∧ t.shadowOf ch st = .standby)) ∧
    (∀ source delay, source < 20 → 0 < delay → delay ≤ 1700 → source ∉ s.dev.darkSources →
      goesTo (exec (.loomLossOfLight source delay) s) (fun t => t.dev.darkSources = s.dev.darkSources ++ [source] ∧
        ∀ c k w, w < 16 → dieOf k = source / 5 → w / 4 = source % 5 → t.waveOf c k w = .dark)) ∧
    (port < 64 →
      (p.up = false → s.portsTrain = true →
        goesTo (exec (.portTraining port offer true) s) (fun t => t.homes = s.homes ∧ t.skeins = s.skeins ∧
          (t.port port).up = p.downSince.isNone ∧ (t.port port).trained = p.downSince.isSome ∧
          (t.port port).extended = offer ∧ (p.downSince.isNone = true → t.dev.ring ≠ s.dev.ring)) ∧
        (p.downSince.isSome = true → goesTo (exec (.portTraining port offer false) s) (fun t => t = { s with net := t.net } ∧
          t.port port = { p with trained := false }))) ∧
      (p.up = true →
        let down (i : Instr) : Prop := goesTo (exec i s) (fun t => (t.port port).up = false ∧
          (t.port port).downSince = some s.clock ∧
          ∀ e < 64, s.entryPort e = port → t.workingPorts ≠ [] → t.entryPort e ∈ t.workingPorts)
        down (.portDown port) ∧
        (p.extended = false → lane < 4 → lane ∉ p.lost → down (.fabricLaneLost port lane)) ∧
        (p.extended = true → lane < 5 → p.lost = [] →
          goesTo (exec (.fabricLaneLost port lane) s) (fun t => t.homes = s.homes ∧ (t.port port).up = true ∧
            (t.port port).lost = [lane] ∧ (t.port port).shadowLane = if lane = 4 then none else some lane)) ∧
        (∀ rep : LaneReport, p.extended = true → rep.lane < 4 → p.lost = [] →
          let retries := bits s.dev.linkcfg.toNat 27 24
          let weakens (g : Port → Prop) : Prop :=
            goesTo (exec (.fabricLaneWeak port rep) s) (fun t => t.homes = s.homes ∧ g (t.port port))
          let r := (Cells.get RxWave.fresh p.rx rep.lane).take rep.bits rep.fixed
          let q : Port := { p with rx := Cells.set RxWave.fresh p.rx rep.lane r }
          (p.shadowLane = some rep.lane → p.tries < retries →
            (rep.fixed ≤ 1 → weakens (fun y => y = { p with
              shadowLane := none, tries := 0, calibrating := some s.clock
              rx := Cells.set RxWave.fresh p.rx rep.lane RxWave.fresh })) ∧
            (1 < rep.fixed → weakens (fun y => y = { p with tries := p.tries + 1 }))) ∧
          (p.shadowLane ≠ some rep.lane →
            (r.weak (bits s.dev.linkcfg.toNat 31 28) = none → weakens (fun y => y = q)) ∧
            ((r.weak (bits s.dev.linkcfg.toNat 31 28)).isSome = true →
              (p.shadowLane = none → p.calibrating = none → weakens (fun y => y = { q with shadowLane := some rep.lane, tries := 0 })) ∧
              (p.shadowLane.isSome ∨ p.calibrating.isSome →
                (r.within (2 ^ 42) ≤ 4398 → weakens (fun y => y = { q with
                  weakWait := p.weakWait.filter (· != rep.lane) ++ [rep.lane] })) ∧
                (4398 < r.within (2 ^ 42) → weakens (fun y => y.up = true ∧ y.lost = [rep.lane] ∧
                  y.shadowLane = some rep.lane)))))))) ∧
    (∀ t0, p.downSince = some t0 →
      (p.trained = true → goesTo (exec (.portUp port) s) (fun t => t.homes = s.homes ∧
        (t.port port).up = true ∧ (t.port port).downSince = none ∧
        (s.entryBusy port = false → (∀ h ∈ s.net.portHold, h % 64 ≠ port) → s.net.kept = [] → t.entryPort port = port))) ∧
      (t0 + 850000 ≤ s.clock → s.net.portHold = [] → (∃ id r, s.req? id = some r ∧ r.stage = .remote port) →
        (∀ e ∈ s.net.through, e.port = port → s.farOut e = false) →
        goesTo (exec (.fabricResponseTimeout port) s) (fun t => ∀ id r, s.req? id = some r → r.stage = .remote port →
          t.req? id = some { r with stage := .returned (if r.kind.access.reads then 7 else 0) s.seq, result := 0 })))
end

