-- ==== Sys2Proof/Laws/Cells.lean ====
section
/-! SUPPORT. Laws/Cells.lean: what the maps of Machine/State.lean read after a write, and that a write keeps their
canonical form. -/

namespace Sys2Proof.Machine

variable {α : Type}

/-! ### Reading after a write -/

theorem Cells.get_of_dropWhile_le (d : α) (m : Cells α) (k a : Nat) (h : k < a) :
    Cells.get d (m.dropWhile (fun e => decide (e.1 ≤ k))) a = Cells.get d m a := by
  induction m with
  | nil => rfl
  | cons e t ih =>
    obtain ⟨j, v⟩ := e
    by_cases hj : j ≤ k
    · rw [List.dropWhile_cons_of_pos (by simpa using hj), ih]
      simp [Cells.get, show ¬ a < j by omega, show a ≠ j by omega]
    · rw [List.dropWhile_cons_of_neg (by simpa using hj)]

theorem Cells.get_of_dropWhile_ge (d : α) (m : Cells α) (k a : Nat) (h : a ≤ k) :
    Cells.get d (m.dropWhile (fun e => decide (e.1 ≤ k))) a = d := by
  induction m with
  | nil => rfl
  | cons e t ih =>
    obtain ⟨j, v⟩ := e
    by_cases hj : j ≤ k
    · rw [List.dropWhile_cons_of_pos (by simpa using hj), ih]
    · rw [List.dropWhile_cons_of_neg (by simpa using hj)]
      simp [Cells.get, show a < j by omega]

/-- A map reads what was written, and every other key as before; of every list, in canonical form or not. -/
theorem Cells.get_set [DecidableEq α] (d : α) (m : Cells α) (k a : Nat) (v : α) :
    Cells.get d (Cells.set d m k v) a = if a = k then v else Cells.get d m a := by
  induction m with
  | nil =>
    by_cases hv : v = d
    · simp [Cells.set, Cells.get, hv]
    · simp only [Cells.set, hv, if_false, Cells.get]
      split_ifs <;> first | rfl | omega
  | cons e t ih =>
    obtain ⟨j, w⟩ := e
    unfold Cells.set
    by_cases h1 : k < j
    · by_cases hv : v = d
      · simp only [h1, if_true, hv]
        split_ifs with h <;> simp [Cells.get, h, h1]
      · simp only [h1, if_true, hv, if_false, Cells.get]
        split_ifs <;> first | rfl | omega
    · by_cases h2 : k = j
      · subst h2
        by_cases hv : v = d
        · simp only [lt_irrefl, if_false, if_true, hv]
          rcases lt_trichotomy a k with h | h | h
          · rw [Cells.get_of_dropWhile_ge _ _ _ _ h.le]
            simp [Cells.get, h, h.ne]
          · rw [Cells.get_of_dropWhile_ge _ _ _ _ h.le, if_pos h]
          · rw [Cells.get_of_dropWhile_le _ _ _ _ h]
            simp [Cells.get, h.ne', show ¬ a < k by omega]
        · simp only [lt_irrefl, if_false, if_true, hv, Cells.get]
          split_ifs <;> first | rfl | omega
      · simp only [h1, h2, if_false, Cells.get, ih]
        split_ifs <;> first | rfl | omega

@[simp] theorem Cells.get_set_self [DecidableEq α] (d : α) (m : Cells α) (k : Nat) (v : α) :
    Cells.get d (Cells.set d m k v) k = v := by
  rw [Cells.get_set, if_pos rfl]

theorem Cells.get_set_ne [DecidableEq α] (d : α) (m : Cells α) (k a : Nat) (v : α) (h : a ≠ k) :
    Cells.get d (Cells.set d m k v) a = Cells.get d m a := by
  rw [Cells.get_set, if_neg h]

theorem Tab.get_set [DecidableEq α] (t : Tab α) (k a : Nat) (v : Option α) :
    Tab.get (Tab.set t k v) a = if a = k then v else Tab.get t a := Cells.get_set _ _ _ _ _

@[simp] theorem Tab.get_set_self [DecidableEq α] (t : Tab α) (k : Nat) (v : Option α) : Tab.get (Tab.set t k v) k = v :=
  Cells.get_set_self _ _ _ _

theorem Tab.get_set_ne [DecidableEq α] (t : Tab α) (k a : Nat) (v : Option α) (h : a ≠ k) :
    Tab.get (Tab.set t k v) a = Tab.get t a := Cells.get_set_ne _ _ _ _ _ h

/-- A change of one record. -/
theorem Tab.get_upd [DecidableEq α] (t : Tab α) (k a : Nat) (f : α → α) :
    Tab.get (Tab.upd t k f) a = if a = k then (Tab.get t a).map f else Tab.get t a := by
  unfold Tab.upd
  by_cases h : a = k
  · subst h
    cases hk : Tab.get t a <;> simp [hk]
  · cases hk : Tab.get t k <;> simp [h, Tab.get_set]

@[simp] theorem Tab.get_upd_self [DecidableEq α] (t : Tab α) (k : Nat) (f : α → α) :
    Tab.get (Tab.upd t k f) k = (Tab.get t k).map f := by simp [Tab.get_upd]

theorem Tab.get_upd_ne [DecidableEq α] (t : Tab α) (k a : Nat) (f : α → α) (h : a ≠ k) :
    Tab.get (Tab.upd t k f) a = Tab.get t a := by simp [Tab.get_upd, h]

/-! ### The canonical form -/

theorem Cells.wfFrom_mono [DecidableEq α] (d : α) (m : Cells α) (lo lo' : Nat) (h : lo' ≤ lo)
    (hm : Cells.wfFrom d lo m = true) : Cells.wfFrom d lo' m = true := by
  cases m with
  | nil => rfl
  | cons e t =>
    obtain ⟨k, v⟩ := e
    simp only [Cells.wfFrom, Bool.and_eq_true, decide_eq_true_eq] at hm ⊢
    exact ⟨⟨h.trans hm.1.1, hm.1.2⟩, hm.2⟩

theorem Cells.wfFrom_dropWhile [DecidableEq α] (d : α) (m : Cells α) (lo k : Nat) (hm : Cells.wfFrom d lo m = true) :
    Cells.wfFrom d lo (m.dropWhile (fun e => decide (e.1 ≤ k))) = true := by
  induction m generalizing lo with
  | nil => rfl
  | cons e t ih =>
    obtain ⟨j, v⟩ := e
    by_cases hj : j ≤ k
    · rw [List.dropWhile_cons_of_pos (by simpa using hj)]
      simp only [Cells.wfFrom, Bool.and_eq_true, decide_eq_true_eq] at hm
      exact ih _ (Cells.wfFrom_mono _ _ _ _ (by omega) hm.2)
    · rwa [List.dropWhile_cons_of_neg (by simpa using hj)]

theorem Cells.wfFrom_set [DecidableEq α] (d : α) (m : Cells α) (lo k : Nat) (v : α) (hk : lo ≤ k)
    (hm : Cells.wfFrom d lo m = true) : Cells.wfFrom d lo (Cells.set d m k v) = true := by
  induction m generalizing lo with
  | nil =>
    unfold Cells.set
    split_ifs with hv
    · rfl
    · simp [Cells.wfFrom, hk, hv]
  | cons e t ih =>
    obtain ⟨j, w⟩ := e
    have hm' := hm
    simp only [Cells.wfFrom, Bool.and_eq_true, decide_eq_true_eq] at hm'
    unfold Cells.set
    split_ifs with h1 hv h2 hv
    · exact hm
    · simp only [Cells.wfFrom, Bool.and_eq_true, decide_eq_true_eq]
      exact ⟨⟨hk, hv⟩, ⟨by omega, hm'.1.2⟩, hm'.2⟩
    · exact Cells.wfFrom_mono _ _ _ _ (by omega) (Cells.wfFrom_dropWhile _ _ _ _ hm'.2)
    · simp only [Cells.wfFrom, Bool.and_eq_true, decide_eq_true_eq]
      exact ⟨⟨hk, hv⟩, by subst h2; exact hm'.2⟩
    · simp only [Cells.wfFrom, Bool.and_eq_true, decide_eq_true_eq]
      exact ⟨hm'.1, ih _ (by omega) hm'.2⟩

/-- A write of one byte keeps the memory's canonical form. -/
theorem Memory.wf_set (m : Cells Byte) (a : Nat) (b : Byte) (h : Memory.wf m = true) :
    Memory.wf (Cells.set 0 m a b) = true := Cells.wfFrom_set _ _ _ _ _ (Nat.zero_le _) h

/-- A write of bytes keeps the memory's canonical form. -/
theorem Memory.wf_writeBytes (bs : List Byte) (m : Cells Byte) (a : Nat) (h : Memory.wf m = true) :
    Memory.wf (writeBytes m a bs) = true := by
  induction bs generalizing m a with
  | nil => exact h
  | cons b t ih => exact ih _ _ (Memory.wf_set _ _ _ h)

theorem Cells.wfFrom_filter [DecidableEq α] (d : α) (p : Nat × α → Bool) (m : Cells α) (lo : Nat)
    (h : Cells.wfFrom d lo m = true) : Cells.wfFrom d lo (m.filter p) = true := by
  induction m generalizing lo with
  | nil => rfl
  | cons e t ih =>
    obtain ⟨j, v⟩ := e
    simp only [Cells.wfFrom, Bool.and_eq_true, decide_eq_true_eq] at h
    have ht := ih _ h.2
    by_cases hp : p (j, v)
    · rw [List.filter_cons_of_pos hp]
      simp only [Cells.wfFrom, Bool.and_eq_true, decide_eq_true_eq]
      exact ⟨h.1, ht⟩
    · rw [List.filter_cons_of_neg hp]
      exact Cells.wfFrom_mono _ _ _ _ (by omega) ht

/-- Dropping bytes keeps the memory's canonical form. -/
theorem Memory.wf_filter (p : Nat × Byte → Bool) (m : Cells Byte) (h : Memory.wf m = true) :
    Memory.wf (m.filter p) = true := Cells.wfFrom_filter _ _ _ _ h

/-! ### Bytes -/

/-- One byte after a write of bytes: the byte written there, else what stood there. -/
theorem get_writeBytes (bs : List Byte) (m : Cells Byte) (a x : Nat) :
    Cells.get 0 (writeBytes m a bs) x =
      if a ≤ x ∧ x < a + bs.length then bs.getD (x - a) 0 else Cells.get 0 m x := by
  induction bs generalizing m a with
  | nil =>
    simp only [writeBytes, List.length_nil, Nat.add_zero]
    rw [if_neg (by omega)]
  | cons b t ih =>
    simp only [writeBytes, ih, List.length_cons, Cells.get_set]
    by_cases h0 : x = a
    · subst h0
      simp
    · by_cases h1 : a + 1 ≤ x ∧ x < a + 1 + t.length
      · rw [if_pos h1, if_pos ⟨by omega, by omega⟩]
        obtain ⟨n, hn⟩ : ∃ n, x - a = n + 1 := ⟨x - a - 1, by omega⟩
        rw [hn, show x - (a + 1) = n by omega]
        simp
      · rw [if_neg h1, if_neg h0, if_neg (by omega)]

theorem length_readBytes (m : Cells Byte) (a n : Nat) : (readBytes m a n).length = n := by
  induction n generalizing a with
  | zero => rfl
  | succ n ih => simp [readBytes, ih]

/-- Bytes read back as they were written. -/
theorem readBytes_writeBytes (bs : List Byte) (m : Cells Byte) (a : Nat) :
    readBytes (writeBytes m a bs) a bs.length = bs := by
  have h : ∀ (n b : Nat) (k : Nat), b = a + k → k + n = bs.length →
      readBytes (writeBytes m a bs) b n = bs.drop k := by
    intro n
    induction n with
    | zero =>
      intro b k _ hk
      simp [readBytes, List.drop_eq_nil_of_le (show bs.length ≤ k by omega)]
    | succ n ih =>
      intro b k hb hk
      have hlt : k < bs.length := by omega
      rw [readBytes, ih (b + 1) (k + 1) (by omega) (by omega), get_writeBytes, if_pos (by omega),
        List.drop_eq_getElem_cons hlt]
      simp [hb, List.getD_eq_getElem?_getD, hlt]
  simpa using h bs.length a 0 (by omega) (by omega)

end Sys2Proof.Machine
end

