-- ==== Sys2Proof/Laws/State.lean ====
section
/-! SUPPORT. Laws/State.lean: what each field of State reads after each update of Machine/Ops.lean. -/

namespace Sys2Proof.Machine

variable (s : State)

/-! ### State.modCore -/

@[simp] theorem State.modCore_clock (c : Nat) (f : CoreSt → CoreSt) : (s.modCore c f).clock = s.clock := rfl
@[simp] theorem State.modCore_seq (c : Nat) (f : CoreSt → CoreSt) : (s.modCore c f).seq = s.seq := rfl
@[simp] theorem State.modCore_free (c : Nat) (f : CoreSt → CoreSt) : (s.modCore c f).free = s.free := rfl
@[simp] theorem State.modCore_schedule (c : Nat) (f : CoreSt → CoreSt) : (s.modCore c f).schedule = s.schedule := rfl
@[simp] theorem State.modCore_cur (c : Nat) (f : CoreSt → CoreSt) : (s.modCore c f).cur = s.cur := rfl
@[simp] theorem State.modCore_nextId (c : Nat) (f : CoreSt → CoreSt) : (s.modCore c f).nextId = s.nextId := rfl
@[simp] theorem State.modCore_modNo (c : Nat) (f : CoreSt → CoreSt) : (s.modCore c f).modNo = s.modNo := rfl
@[simp] theorem State.modCore_cores (c : Nat) (f : CoreSt → CoreSt) :
    (s.modCore c f).cores = Cells.set CoreSt.reset s.cores c (f (s.core c)) := rfl
@[simp] theorem State.modCore_skeins (c : Nat) (f : CoreSt → CoreSt) : (s.modCore c f).skeins = s.skeins := rfl
@[simp] theorem State.modCore_bolts (c : Nat) (f : CoreSt → CoreSt) : (s.modCore c f).bolts = s.bolts := rfl
@[simp] theorem State.modCore_launches (c : Nat) (f : CoreSt → CoreSt) : (s.modCore c f).launches = s.launches := rfl
@[simp] theorem State.modCore_contexts (c : Nat) (f : CoreSt → CoreSt) : (s.modCore c f).contexts = s.contexts := rfl
@[simp] theorem State.modCore_parts (c : Nat) (f : CoreSt → CoreSt) : (s.modCore c f).parts = s.parts := rfl
@[simp] theorem State.modCore_queues (c : Nat) (f : CoreSt → CoreSt) : (s.modCore c f).queues = s.queues := rfl
@[simp] theorem State.modCore_pend (c : Nat) (f : CoreSt → CoreSt) : (s.modCore c f).pend = s.pend := rfl
@[simp] theorem State.modCore_l1 (c : Nat) (f : CoreSt → CoreSt) : (s.modCore c f).l1 = s.l1 := rfl
@[simp] theorem State.modCore_reqs (c : Nat) (f : CoreSt → CoreSt) : (s.modCore c f).reqs = s.reqs := rfl
@[simp] theorem State.modCore_copies (c : Nat) (f : CoreSt → CoreSt) : (s.modCore c f).copies = s.copies := rfl
@[simp] theorem State.modCore_shdops (c : Nat) (f : CoreSt → CoreSt) : (s.modCore c f).shdops = s.shdops := rfl
@[simp] theorem State.modCore_fetches (c : Nat) (f : CoreSt → CoreSt) : (s.modCore c f).fetches = s.fetches := rfl
@[simp] theorem State.modCore_homes (c : Nat) (f : CoreSt → CoreSt) : (s.modCore c f).homes = s.homes := rfl
@[simp] theorem State.modCore_net (c : Nat) (f : CoreSt → CoreSt) : (s.modCore c f).net = s.net := rfl
@[simp] theorem State.modCore_captures (c : Nat) (f : CoreSt → CoreSt) : (s.modCore c f).captures = s.captures := rfl
@[simp] theorem State.modCore_dev (c : Nat) (f : CoreSt → CoreSt) : (s.modCore c f).dev = s.dev := rfl

/-! ### State.modSkein -/

@[simp] theorem State.modSkein_clock (k : Nat) (f : Skein → Skein) : (s.modSkein k f).clock = s.clock := rfl
@[simp] theorem State.modSkein_seq (k : Nat) (f : Skein → Skein) : (s.modSkein k f).seq = s.seq := rfl
@[simp] theorem State.modSkein_free (k : Nat) (f : Skein → Skein) : (s.modSkein k f).free = s.free := rfl
@[simp] theorem State.modSkein_schedule (k : Nat) (f : Skein → Skein) : (s.modSkein k f).schedule = s.schedule := rfl
@[simp] theorem State.modSkein_cur (k : Nat) (f : Skein → Skein) : (s.modSkein k f).cur = s.cur := rfl
@[simp] theorem State.modSkein_nextId (k : Nat) (f : Skein → Skein) : (s.modSkein k f).nextId = s.nextId := rfl
@[simp] theorem State.modSkein_modNo (k : Nat) (f : Skein → Skein) : (s.modSkein k f).modNo = s.modNo := rfl
@[simp] theorem State.modSkein_cores (k : Nat) (f : Skein → Skein) : (s.modSkein k f).cores = s.cores := rfl
@[simp] theorem State.modSkein_skeins (k : Nat) (f : Skein → Skein) :
    (s.modSkein k f).skeins = Tab.upd s.skeins k f := rfl
@[simp] theorem State.modSkein_bolts (k : Nat) (f : Skein → Skein) : (s.modSkein k f).bolts = s.bolts := rfl
@[simp] theorem State.modSkein_launches (k : Nat) (f : Skein → Skein) : (s.modSkein k f).launches = s.launches := rfl
@[simp] theorem State.modSkein_contexts (k : Nat) (f : Skein → Skein) : (s.modSkein k f).contexts = s.contexts := rfl
@[simp] theorem State.modSkein_parts (k : Nat) (f : Skein → Skein) : (s.modSkein k f).parts = s.parts := rfl
@[simp] theorem State.modSkein_queues (k : Nat) (f : Skein → Skein) : (s.modSkein k f).queues = s.queues := rfl
@[simp] theorem State.modSkein_pend (k : Nat) (f : Skein → Skein) : (s.modSkein k f).pend = s.pend := rfl
@[simp] theorem State.modSkein_l1 (k : Nat) (f : Skein → Skein) : (s.modSkein k f).l1 = s.l1 := rfl
@[simp] theorem State.modSkein_reqs (k : Nat) (f : Skein → Skein) : (s.modSkein k f).reqs = s.reqs := rfl
@[simp] theorem State.modSkein_copies (k : Nat) (f : Skein → Skein) : (s.modSkein k f).copies = s.copies := rfl
@[simp] theorem State.modSkein_shdops (k : Nat) (f : Skein → Skein) : (s.modSkein k f).shdops = s.shdops := rfl
@[simp] theorem State.modSkein_fetches (k : Nat) (f : Skein → Skein) : (s.modSkein k f).fetches = s.fetches := rfl
@[simp] theorem State.modSkein_homes (k : Nat) (f : Skein → Skein) : (s.modSkein k f).homes = s.homes := rfl
@[simp] theorem State.modSkein_net (k : Nat) (f : Skein → Skein) : (s.modSkein k f).net = s.net := rfl
@[simp] theorem State.modSkein_captures (k : Nat) (f : Skein → Skein) : (s.modSkein k f).captures = s.captures := rfl
@[simp] theorem State.modSkein_dev (k : Nat) (f : Skein → Skein) : (s.modSkein k f).dev = s.dev := rfl

/-! ### State.modStrand -/

@[simp] theorem State.modStrand_clock (k i : Nat) (f : Strand → Strand) : (s.modStrand k i f).clock = s.clock := rfl
@[simp] theorem State.modStrand_seq (k i : Nat) (f : Strand → Strand) : (s.modStrand k i f).seq = s.seq := rfl
@[simp] theorem State.modStrand_free (k i : Nat) (f : Strand → Strand) : (s.modStrand k i f).free = s.free := rfl
@[simp] theorem State.modStrand_schedule (k i : Nat) (f : Strand → Strand) :
    (s.modStrand k i f).schedule = s.schedule := rfl
@[simp] theorem State.modStrand_cur (k i : Nat) (f : Strand → Strand) : (s.modStrand k i f).cur = s.cur := rfl
@[simp] theorem State.modStrand_nextId (k i : Nat) (f : Strand → Strand) : (s.modStrand k i f).nextId = s.nextId := rfl
@[simp] theorem State.modStrand_modNo (k i : Nat) (f : Strand → Strand) : (s.modStrand k i f).modNo = s.modNo := rfl
@[simp] theorem State.modStrand_cores (k i : Nat) (f : Strand → Strand) : (s.modStrand k i f).cores = s.cores := rfl
@[simp] theorem State.modStrand_skeins (k i : Nat) (f : Strand → Strand) :
    (s.modStrand k i f).skeins = Tab.upd s.skeins k (fun sk => { sk with strands := Tab.upd sk.strands i f }) := rfl
@[simp] theorem State.modStrand_bolts (k i : Nat) (f : Strand → Strand) : (s.modStrand k i f).bolts = s.bolts := rfl
@[simp] theorem State.modStrand_launches (k i : Nat) (f : Strand → Strand) :
    (s.modStrand k i f).launches = s.launches := rfl
@[simp] theorem State.modStrand_contexts (k i : Nat) (f : Strand → Strand) :
    (s.modStrand k i f).contexts = s.contexts := rfl
@[simp] theorem State.modStrand_parts (k i : Nat) (f : Strand → Strand) : (s.modStrand k i f).parts = s.parts := rfl
@[simp] theorem State.modStrand_queues (k i : Nat) (f : Strand → Strand) : (s.modStrand k i f).queues = s.queues := rfl
@[simp] theorem State.modStrand_pend (k i : Nat) (f : Strand → Strand) : (s.modStrand k i f).pend = s.pend := rfl
@[simp] theorem State.modStrand_l1 (k i : Nat) (f : Strand → Strand) : (s.modStrand k i f).l1 = s.l1 := rfl
@[simp] theorem State.modStrand_reqs (k i : Nat) (f : Strand → Strand) : (s.modStrand k i f).reqs = s.reqs := rfl
@[simp] theorem State.modStrand_copies (k i : Nat) (f : Strand → Strand) : (s.modStrand k i f).copies = s.copies := rfl
@[simp] theorem State.modStrand_shdops (k i : Nat) (f : Strand → Strand) : (s.modStrand k i f).shdops = s.shdops := rfl
@[simp] theorem State.modStrand_fetches (k i : Nat) (f : Strand → Strand) :
    (s.modStrand k i f).fetches = s.fetches := rfl
@[simp] theorem State.modStrand_homes (k i : Nat) (f : Strand → Strand) : (s.modStrand k i f).homes = s.homes := rfl
@[simp] theorem State.modStrand_net (k i : Nat) (f : Strand → Strand) : (s.modStrand k i f).net = s.net := rfl
@[simp] theorem State.modStrand_captures (k i : Nat) (f : Strand → Strand) :
    (s.modStrand k i f).captures = s.captures := rfl
@[simp] theorem State.modStrand_dev (k i : Nat) (f : Strand → Strand) : (s.modStrand k i f).dev = s.dev := rfl

/-! ### State.modStrands -/

@[simp] theorem State.modStrands_clock (k : Nat) (is : List Nat) (f : Nat → Strand → Strand) :
    (s.modStrands k is f).clock = s.clock := rfl
@[simp] theorem State.modStrands_seq (k : Nat) (is : List Nat) (f : Nat → Strand → Strand) :
    (s.modStrands k is f).seq = s.seq := rfl
@[simp] theorem State.modStrands_free (k : Nat) (is : List Nat) (f : Nat → Strand → Strand) :
    (s.modStrands k is f).free = s.free := rfl
@[simp] theorem State.modStrands_schedule (k : Nat) (is : List Nat) (f : Nat → Strand → Strand) :
    (s.modStrands k is f).schedule = s.schedule := rfl
@[simp] theorem State.modStrands_cur (k : Nat) (is : List Nat) (f : Nat → Strand → Strand) :
    (s.modStrands k is f).cur = s.cur := rfl
@[simp] theorem State.modStrands_nextId (k : Nat) (is : List Nat) (f : Nat → Strand → Strand) :
    (s.modStrands k is f).nextId = s.nextId := rfl
@[simp] theorem State.modStrands_modNo (k : Nat) (is : List Nat) (f : Nat → Strand → Strand) :
    (s.modStrands k is f).modNo = s.modNo := rfl
@[simp] theorem State.modStrands_cores (k : Nat) (is : List Nat) (f : Nat → Strand → Strand) :
    (s.modStrands k is f).cores = s.cores := rfl
@[simp] theorem State.modStrands_skeins (k : Nat) (is : List Nat) (f : Nat → Strand → Strand) :
    (s.modStrands k is f).skeins = Tab.upd s.skeins k (fun sk => { sk with strands := is.foldl (fun t i => Tab.upd t i (f i)) sk.strands }) := rfl
@[simp] theorem State.modStrands_bolts (k : Nat) (is : List Nat) (f : Nat → Strand → Strand) :
    (s.modStrands k is f).bolts = s.bolts := rfl
@[simp] theorem State.modStrands_launches (k : Nat) (is : List Nat) (f : Nat → Strand → Strand) :
    (s.modStrands k is f).launches = s.launches := rfl
@[simp] theorem State.modStrands_contexts (k : Nat) (is : List Nat) (f : Nat → Strand → Strand) :
    (s.modStrands k is f).contexts = s.contexts := rfl
@[simp] theorem State.modStrands_parts (k : Nat) (is : List Nat) (f : Nat → Strand → Strand) :
    (s.modStrands k is f).parts = s.parts := rfl
@[simp] theorem State.modStrands_queues (k : Nat) (is : List Nat) (f : Nat → Strand → Strand) :
    (s.modStrands k is f).queues = s.queues := rfl
@[simp] theorem State.modStrands_pend (k : Nat) (is : List Nat) (f : Nat → Strand → Strand) :
    (s.modStrands k is f).pend = s.pend := rfl
@[simp] theorem State.modStrands_l1 (k : Nat) (is : List Nat) (f : Nat → Strand → Strand) :
    (s.modStrands k is f).l1 = s.l1 := rfl
@[simp] theorem State.modStrands_reqs (k : Nat) (is : List Nat) (f : Nat → Strand → Strand) :
    (s.modStrands k is f).reqs = s.reqs := rfl
@[simp] theorem State.modStrands_copies (k : Nat) (is : List Nat) (f : Nat → Strand → Strand) :
    (s.modStrands k is f).copies = s.copies := rfl
@[simp] theorem State.modStrands_shdops (k : Nat) (is : List Nat) (f : Nat → Strand → Strand) :
    (s.modStrands k is f).shdops = s.shdops := rfl
@[simp] theorem State.modStrands_fetches (k : Nat) (is : List Nat) (f : Nat → Strand → Strand) :
    (s.modStrands k is f).fetches = s.fetches := rfl
@[simp] theorem State.modStrands_homes (k : Nat) (is : List Nat) (f : Nat → Strand → Strand) :
    (s.modStrands k is f).homes = s.homes := rfl
@[simp] theorem State.modStrands_net (k : Nat) (is : List Nat) (f : Nat → Strand → Strand) :
    (s.modStrands k is f).net = s.net := rfl
@[simp] theorem State.modStrands_captures (k : Nat) (is : List Nat) (f : Nat → Strand → Strand) :
    (s.modStrands k is f).captures = s.captures := rfl
@[simp] theorem State.modStrands_dev (k : Nat) (is : List Nat) (f : Nat → Strand → Strand) :
    (s.modStrands k is f).dev = s.dev := rfl

/-! ### State.modWeft -/

@[simp] theorem State.modWeft_clock (k w : Nat) (f : Weft → Weft) : (s.modWeft k w f).clock = s.clock := rfl
@[simp] theorem State.modWeft_seq (k w : Nat) (f : Weft → Weft) : (s.modWeft k w f).seq = s.seq := rfl
@[simp] theorem State.modWeft_free (k w : Nat) (f : Weft → Weft) : (s.modWeft k w f).free = s.free := rfl
@[simp] theorem State.modWeft_schedule (k w : Nat) (f : Weft → Weft) : (s.modWeft k w f).schedule = s.schedule := rfl
@[simp] theorem State.modWeft_cur (k w : Nat) (f : Weft → Weft) : (s.modWeft k w f).cur = s.cur := rfl
@[simp] theorem State.modWeft_nextId (k w : Nat) (f : Weft → Weft) : (s.modWeft k w f).nextId = s.nextId := rfl
@[simp] theorem State.modWeft_modNo (k w : Nat) (f : Weft → Weft) : (s.modWeft k w f).modNo = s.modNo := rfl
@[simp] theorem State.modWeft_cores (k w : Nat) (f : Weft → Weft) : (s.modWeft k w f).cores = s.cores := rfl
@[simp] theorem State.modWeft_skeins (k w : Nat) (f : Weft → Weft) :
    (s.modWeft k w f).skeins = Tab.upd s.skeins k (fun sk => { sk with wefts := Tab.upd sk.wefts w f }) := rfl
@[simp] theorem State.modWeft_bolts (k w : Nat) (f : Weft → Weft) : (s.modWeft k w f).bolts = s.bolts := rfl
@[simp] theorem State.modWeft_launches (k w : Nat) (f : Weft → Weft) : (s.modWeft k w f).launches = s.launches := rfl
@[simp] theorem State.modWeft_contexts (k w : Nat) (f : Weft → Weft) : (s.modWeft k w f).contexts = s.contexts := rfl
@[simp] theorem State.modWeft_parts (k w : Nat) (f : Weft → Weft) : (s.modWeft k w f).parts = s.parts := rfl
@[simp] theorem State.modWeft_queues (k w : Nat) (f : Weft → Weft) : (s.modWeft k w f).queues = s.queues := rfl
@[simp] theorem State.modWeft_pend (k w : Nat) (f : Weft → Weft) : (s.modWeft k w f).pend = s.pend := rfl
@[simp] theorem State.modWeft_l1 (k w : Nat) (f : Weft → Weft) : (s.modWeft k w f).l1 = s.l1 := rfl
@[simp] theorem State.modWeft_reqs (k w : Nat) (f : Weft → Weft) : (s.modWeft k w f).reqs = s.reqs := rfl
@[simp] theorem State.modWeft_copies (k w : Nat) (f : Weft → Weft) : (s.modWeft k w f).copies = s.copies := rfl
@[simp] theorem State.modWeft_shdops (k w : Nat) (f : Weft → Weft) : (s.modWeft k w f).shdops = s.shdops := rfl
@[simp] theorem State.modWeft_fetches (k w : Nat) (f : Weft → Weft) : (s.modWeft k w f).fetches = s.fetches := rfl
@[simp] theorem State.modWeft_homes (k w : Nat) (f : Weft → Weft) : (s.modWeft k w f).homes = s.homes := rfl
@[simp] theorem State.modWeft_net (k w : Nat) (f : Weft → Weft) : (s.modWeft k w f).net = s.net := rfl
@[simp] theorem State.modWeft_captures (k w : Nat) (f : Weft → Weft) : (s.modWeft k w f).captures = s.captures := rfl
@[simp] theorem State.modWeft_dev (k w : Nat) (f : Weft → Weft) : (s.modWeft k w f).dev = s.dev := rfl

/-! ### State.count -/

@[simp] theorem State.count_clock (k p n : Nat) : (s.count k p n).clock = s.clock := rfl
@[simp] theorem State.count_seq (k p n : Nat) : (s.count k p n).seq = s.seq := rfl
@[simp] theorem State.count_free (k p n : Nat) : (s.count k p n).free = s.free := rfl
@[simp] theorem State.count_schedule (k p n : Nat) : (s.count k p n).schedule = s.schedule := rfl
@[simp] theorem State.count_cur (k p n : Nat) : (s.count k p n).cur = s.cur := rfl
@[simp] theorem State.count_nextId (k p n : Nat) : (s.count k p n).nextId = s.nextId := rfl
@[simp] theorem State.count_modNo (k p n : Nat) : (s.count k p n).modNo = s.modNo := rfl
@[simp] theorem State.count_cores (k p n : Nat) : (s.count k p n).cores = s.cores := rfl
@[simp] theorem State.count_skeins (k p n : Nat) :
    (s.count k p n).skeins = Tab.upd s.skeins k (fun sk => sk.count p n) := rfl
@[simp] theorem State.count_bolts (k p n : Nat) : (s.count k p n).bolts = s.bolts := rfl
@[simp] theorem State.count_launches (k p n : Nat) : (s.count k p n).launches = s.launches := rfl
@[simp] theorem State.count_contexts (k p n : Nat) : (s.count k p n).contexts = s.contexts := rfl
@[simp] theorem State.count_parts (k p n : Nat) : (s.count k p n).parts = s.parts := rfl
@[simp] theorem State.count_queues (k p n : Nat) : (s.count k p n).queues = s.queues := rfl
@[simp] theorem State.count_pend (k p n : Nat) : (s.count k p n).pend = s.pend := rfl
@[simp] theorem State.count_l1 (k p n : Nat) : (s.count k p n).l1 = s.l1 := rfl
@[simp] theorem State.count_reqs (k p n : Nat) : (s.count k p n).reqs = s.reqs := rfl
@[simp] theorem State.count_copies (k p n : Nat) : (s.count k p n).copies = s.copies := rfl
@[simp] theorem State.count_shdops (k p n : Nat) : (s.count k p n).shdops = s.shdops := rfl
@[simp] theorem State.count_fetches (k p n : Nat) : (s.count k p n).fetches = s.fetches := rfl
@[simp] theorem State.count_homes (k p n : Nat) : (s.count k p n).homes = s.homes := rfl
@[simp] theorem State.count_net (k p n : Nat) : (s.count k p n).net = s.net := rfl
@[simp] theorem State.count_captures (k p n : Nat) : (s.count k p n).captures = s.captures := rfl
@[simp] theorem State.count_dev (k p n : Nat) : (s.count k p n).dev = s.dev := rfl

/-! ### State.modBolt -/

@[simp] theorem State.modBolt_clock (b : Nat) (f : Bolt → Bolt) : (s.modBolt b f).clock = s.clock := rfl
@[simp] theorem State.modBolt_seq (b : Nat) (f : Bolt → Bolt) : (s.modBolt b f).seq = s.seq := rfl
@[simp] theorem State.modBolt_free (b : Nat) (f : Bolt → Bolt) : (s.modBolt b f).free = s.free := rfl
@[simp] theorem State.modBolt_schedule (b : Nat) (f : Bolt → Bolt) : (s.modBolt b f).schedule = s.schedule := rfl
@[simp] theorem State.modBolt_cur (b : Nat) (f : Bolt → Bolt) : (s.modBolt b f).cur = s.cur := rfl
@[simp] theorem State.modBolt_nextId (b : Nat) (f : Bolt → Bolt) : (s.modBolt b f).nextId = s.nextId := rfl
@[simp] theorem State.modBolt_modNo (b : Nat) (f : Bolt → Bolt) : (s.modBolt b f).modNo = s.modNo := rfl
@[simp] theorem State.modBolt_cores (b : Nat) (f : Bolt → Bolt) : (s.modBolt b f).cores = s.cores := rfl
@[simp] theorem State.modBolt_skeins (b : Nat) (f : Bolt → Bolt) : (s.modBolt b f).skeins = s.skeins := rfl
@[simp] theorem State.modBolt_bolts (b : Nat) (f : Bolt → Bolt) : (s.modBolt b f).bolts = Tab.upd s.bolts b f := rfl
@[simp] theorem State.modBolt_launches (b : Nat) (f : Bolt → Bolt) : (s.modBolt b f).launches = s.launches := rfl
@[simp] theorem State.modBolt_contexts (b : Nat) (f : Bolt → Bolt) : (s.modBolt b f).contexts = s.contexts := rfl
@[simp] theorem State.modBolt_parts (b : Nat) (f : Bolt → Bolt) : (s.modBolt b f).parts = s.parts := rfl
@[simp] theorem State.modBolt_queues (b : Nat) (f : Bolt → Bolt) : (s.modBolt b f).queues = s.queues := rfl
@[simp] theorem State.modBolt_pend (b : Nat) (f : Bolt → Bolt) : (s.modBolt b f).pend = s.pend := rfl
@[simp] theorem State.modBolt_l1 (b : Nat) (f : Bolt → Bolt) : (s.modBolt b f).l1 = s.l1 := rfl
@[simp] theorem State.modBolt_reqs (b : Nat) (f : Bolt → Bolt) : (s.modBolt b f).reqs = s.reqs := rfl
@[simp] theorem State.modBolt_copies (b : Nat) (f : Bolt → Bolt) : (s.modBolt b f).copies = s.copies := rfl
@[simp] theorem State.modBolt_shdops (b : Nat) (f : Bolt → Bolt) : (s.modBolt b f).shdops = s.shdops := rfl
@[simp] theorem State.modBolt_fetches (b : Nat) (f : Bolt → Bolt) : (s.modBolt b f).fetches = s.fetches := rfl
@[simp] theorem State.modBolt_homes (b : Nat) (f : Bolt → Bolt) : (s.modBolt b f).homes = s.homes := rfl
@[simp] theorem State.modBolt_net (b : Nat) (f : Bolt → Bolt) : (s.modBolt b f).net = s.net := rfl
@[simp] theorem State.modBolt_captures (b : Nat) (f : Bolt → Bolt) : (s.modBolt b f).captures = s.captures := rfl
@[simp] theorem State.modBolt_dev (b : Nat) (f : Bolt → Bolt) : (s.modBolt b f).dev = s.dev := rfl

/-! ### State.modCtx -/

@[simp] theorem State.modCtx_clock (c : Nat) (f : Context → Context) : (s.modCtx c f).clock = s.clock := rfl
@[simp] theorem State.modCtx_seq (c : Nat) (f : Context → Context) : (s.modCtx c f).seq = s.seq := rfl
@[simp] theorem State.modCtx_free (c : Nat) (f : Context → Context) : (s.modCtx c f).free = s.free := rfl
@[simp] theorem State.modCtx_schedule (c : Nat) (f : Context → Context) : (s.modCtx c f).schedule = s.schedule := rfl
@[simp] theorem State.modCtx_cur (c : Nat) (f : Context → Context) : (s.modCtx c f).cur = s.cur := rfl
@[simp] theorem State.modCtx_nextId (c : Nat) (f : Context → Context) : (s.modCtx c f).nextId = s.nextId := rfl
@[simp] theorem State.modCtx_modNo (c : Nat) (f : Context → Context) : (s.modCtx c f).modNo = s.modNo := rfl
@[simp] theorem State.modCtx_cores (c : Nat) (f : Context → Context) : (s.modCtx c f).cores = s.cores := rfl
@[simp] theorem State.modCtx_skeins (c : Nat) (f : Context → Context) : (s.modCtx c f).skeins = s.skeins := rfl
@[simp] theorem State.modCtx_bolts (c : Nat) (f : Context → Context) : (s.modCtx c f).bolts = s.bolts := rfl
@[simp] theorem State.modCtx_launches (c : Nat) (f : Context → Context) : (s.modCtx c f).launches = s.launches := rfl
@[simp] theorem State.modCtx_contexts (c : Nat) (f : Context → Context) :
    (s.modCtx c f).contexts = Tab.upd s.contexts c f := rfl
@[simp] theorem State.modCtx_parts (c : Nat) (f : Context → Context) : (s.modCtx c f).parts = s.parts := rfl
@[simp] theorem State.modCtx_queues (c : Nat) (f : Context → Context) : (s.modCtx c f).queues = s.queues := rfl
@[simp] theorem State.modCtx_pend (c : Nat) (f : Context → Context) : (s.modCtx c f).pend = s.pend := rfl
@[simp] theorem State.modCtx_l1 (c : Nat) (f : Context → Context) : (s.modCtx c f).l1 = s.l1 := rfl
@[simp] theorem State.modCtx_reqs (c : Nat) (f : Context → Context) : (s.modCtx c f).reqs = s.reqs := rfl
@[simp] theorem State.modCtx_copies (c : Nat) (f : Context → Context) : (s.modCtx c f).copies = s.copies := rfl
@[simp] theorem State.modCtx_shdops (c : Nat) (f : Context → Context) : (s.modCtx c f).shdops = s.shdops := rfl
@[simp] theorem State.modCtx_fetches (c : Nat) (f : Context → Context) : (s.modCtx c f).fetches = s.fetches := rfl
@[simp] theorem State.modCtx_homes (c : Nat) (f : Context → Context) : (s.modCtx c f).homes = s.homes := rfl
@[simp] theorem State.modCtx_net (c : Nat) (f : Context → Context) : (s.modCtx c f).net = s.net := rfl
@[simp] theorem State.modCtx_captures (c : Nat) (f : Context → Context) : (s.modCtx c f).captures = s.captures := rfl
@[simp] theorem State.modCtx_dev (c : Nat) (f : Context → Context) : (s.modCtx c f).dev = s.dev := rfl

/-! ### State.modPart -/

@[simp] theorem State.modPart_clock (p : Nat) (f : Partition → Partition) : (s.modPart p f).clock = s.clock := rfl
@[simp] theorem State.modPart_seq (p : Nat) (f : Partition → Partition) : (s.modPart p f).seq = s.seq := rfl
@[simp] theorem State.modPart_free (p : Nat) (f : Partition → Partition) : (s.modPart p f).free = s.free := rfl
@[simp] theorem State.modPart_schedule (p : Nat) (f : Partition → Partition) :
    (s.modPart p f).schedule = s.schedule := rfl
@[simp] theorem State.modPart_cur (p : Nat) (f : Partition → Partition) : (s.modPart p f).cur = s.cur := rfl
@[simp] theorem State.modPart_nextId (p : Nat) (f : Partition → Partition) : (s.modPart p f).nextId = s.nextId := rfl
@[simp] theorem State.modPart_modNo (p : Nat) (f : Partition → Partition) : (s.modPart p f).modNo = s.modNo := rfl
@[simp] theorem State.modPart_cores (p : Nat) (f : Partition → Partition) : (s.modPart p f).cores = s.cores := rfl
@[simp] theorem State.modPart_skeins (p : Nat) (f : Partition → Partition) : (s.modPart p f).skeins = s.skeins := rfl
@[simp] theorem State.modPart_bolts (p : Nat) (f : Partition → Partition) : (s.modPart p f).bolts = s.bolts := rfl
@[simp] theorem State.modPart_launches (p : Nat) (f : Partition → Partition) :
    (s.modPart p f).launches = s.launches := rfl
@[simp] theorem State.modPart_contexts (p : Nat) (f : Partition → Partition) :
    (s.modPart p f).contexts = s.contexts := rfl
@[simp] theorem State.modPart_parts (p : Nat) (f : Partition → Partition) :
    (s.modPart p f).parts = Tab.upd s.parts p f := rfl
@[simp] theorem State.modPart_queues (p : Nat) (f : Partition → Partition) : (s.modPart p f).queues = s.queues := rfl
@[simp] theorem State.modPart_pend (p : Nat) (f : Partition → Partition) : (s.modPart p f).pend = s.pend := rfl
@[simp] theorem State.modPart_l1 (p : Nat) (f : Partition → Partition) : (s.modPart p f).l1 = s.l1 := rfl
@[simp] theorem State.modPart_reqs (p : Nat) (f : Partition → Partition) : (s.modPart p f).reqs = s.reqs := rfl
@[simp] theorem State.modPart_copies (p : Nat) (f : Partition → Partition) : (s.modPart p f).copies = s.copies := rfl
@[simp] theorem State.modPart_shdops (p : Nat) (f : Partition → Partition) : (s.modPart p f).shdops = s.shdops := rfl
@[simp] theorem State.modPart_fetches (p : Nat) (f : Partition → Partition) : (s.modPart p f).fetches = s.fetches := rfl
@[simp] theorem State.modPart_homes (p : Nat) (f : Partition → Partition) : (s.modPart p f).homes = s.homes := rfl
@[simp] theorem State.modPart_net (p : Nat) (f : Partition → Partition) : (s.modPart p f).net = s.net := rfl
@[simp] theorem State.modPart_captures (p : Nat) (f : Partition → Partition) :
    (s.modPart p f).captures = s.captures := rfl
@[simp] theorem State.modPart_dev (p : Nat) (f : Partition → Partition) : (s.modPart p f).dev = s.dev := rfl

/-! ### State.modReq -/

@[simp] theorem State.modReq_clock (r : Nat) (f : Req → Req) : (s.modReq r f).clock = s.clock := rfl
@[simp] theorem State.modReq_seq (r : Nat) (f : Req → Req) : (s.modReq r f).seq = s.seq := rfl
@[simp] theorem State.modReq_free (r : Nat) (f : Req → Req) : (s.modReq r f).free = s.free := rfl
@[simp] theorem State.modReq_schedule (r : Nat) (f : Req → Req) : (s.modReq r f).schedule = s.schedule := rfl
@[simp] theorem State.modReq_cur (r : Nat) (f : Req → Req) : (s.modReq r f).cur = s.cur := rfl
@[simp] theorem State.modReq_nextId (r : Nat) (f : Req → Req) : (s.modReq r f).nextId = s.nextId := rfl
@[simp] theorem State.modReq_modNo (r : Nat) (f : Req → Req) : (s.modReq r f).modNo = s.modNo := rfl
@[simp] theorem State.modReq_cores (r : Nat) (f : Req → Req) : (s.modReq r f).cores = s.cores := rfl
@[simp] theorem State.modReq_skeins (r : Nat) (f : Req → Req) : (s.modReq r f).skeins = s.skeins := rfl
@[simp] theorem State.modReq_bolts (r : Nat) (f : Req → Req) : (s.modReq r f).bolts = s.bolts := rfl
@[simp] theorem State.modReq_launches (r : Nat) (f : Req → Req) : (s.modReq r f).launches = s.launches := rfl
@[simp] theorem State.modReq_contexts (r : Nat) (f : Req → Req) : (s.modReq r f).contexts = s.contexts := rfl
@[simp] theorem State.modReq_parts (r : Nat) (f : Req → Req) : (s.modReq r f).parts = s.parts := rfl
@[simp] theorem State.modReq_queues (r : Nat) (f : Req → Req) : (s.modReq r f).queues = s.queues := rfl
@[simp] theorem State.modReq_pend (r : Nat) (f : Req → Req) : (s.modReq r f).pend = s.pend := rfl
@[simp] theorem State.modReq_l1 (r : Nat) (f : Req → Req) : (s.modReq r f).l1 = s.l1 := rfl
@[simp] theorem State.modReq_reqs (r : Nat) (f : Req → Req) : (s.modReq r f).reqs = Tab.upd s.reqs r f := rfl
@[simp] theorem State.modReq_copies (r : Nat) (f : Req → Req) : (s.modReq r f).copies = s.copies := rfl
@[simp] theorem State.modReq_shdops (r : Nat) (f : Req → Req) : (s.modReq r f).shdops = s.shdops := rfl
@[simp] theorem State.modReq_fetches (r : Nat) (f : Req → Req) : (s.modReq r f).fetches = s.fetches := rfl
@[simp] theorem State.modReq_homes (r : Nat) (f : Req → Req) : (s.modReq r f).homes = s.homes := rfl
@[simp] theorem State.modReq_net (r : Nat) (f : Req → Req) : (s.modReq r f).net = s.net := rfl
@[simp] theorem State.modReq_captures (r : Nat) (f : Req → Req) : (s.modReq r f).captures = s.captures := rfl
@[simp] theorem State.modReq_dev (r : Nat) (f : Req → Req) : (s.modReq r f).dev = s.dev := rfl

/-! ### State.dropReq -/

@[simp] theorem State.dropReq_clock (r : Nat) : (s.dropReq r).clock = s.clock := rfl
@[simp] theorem State.dropReq_seq (r : Nat) : (s.dropReq r).seq = s.seq := rfl
@[simp] theorem State.dropReq_free (r : Nat) : (s.dropReq r).free = s.free := rfl
@[simp] theorem State.dropReq_schedule (r : Nat) : (s.dropReq r).schedule = s.schedule := rfl
@[simp] theorem State.dropReq_cur (r : Nat) : (s.dropReq r).cur = s.cur := rfl
@[simp] theorem State.dropReq_nextId (r : Nat) : (s.dropReq r).nextId = s.nextId := rfl
@[simp] theorem State.dropReq_modNo (r : Nat) : (s.dropReq r).modNo = s.modNo := rfl
@[simp] theorem State.dropReq_cores (r : Nat) : (s.dropReq r).cores = s.cores := rfl
@[simp] theorem State.dropReq_skeins (r : Nat) : (s.dropReq r).skeins = s.skeins := rfl
@[simp] theorem State.dropReq_bolts (r : Nat) : (s.dropReq r).bolts = s.bolts := rfl
@[simp] theorem State.dropReq_launches (r : Nat) : (s.dropReq r).launches = s.launches := rfl
@[simp] theorem State.dropReq_contexts (r : Nat) : (s.dropReq r).contexts = s.contexts := rfl
@[simp] theorem State.dropReq_parts (r : Nat) : (s.dropReq r).parts = s.parts := rfl
@[simp] theorem State.dropReq_queues (r : Nat) : (s.dropReq r).queues = s.queues := rfl
@[simp] theorem State.dropReq_pend (r : Nat) : (s.dropReq r).pend = s.pend := rfl
@[simp] theorem State.dropReq_l1 (r : Nat) : (s.dropReq r).l1 = s.l1 := rfl
@[simp] theorem State.dropReq_reqs (r : Nat) : (s.dropReq r).reqs = Tab.set s.reqs r none := rfl
@[simp] theorem State.dropReq_copies (r : Nat) : (s.dropReq r).copies = s.copies := rfl
@[simp] theorem State.dropReq_shdops (r : Nat) : (s.dropReq r).shdops = s.shdops := rfl
@[simp] theorem State.dropReq_fetches (r : Nat) : (s.dropReq r).fetches = s.fetches := rfl
@[simp] theorem State.dropReq_homes (r : Nat) : (s.dropReq r).homes = s.homes := rfl
@[simp] theorem State.dropReq_net (r : Nat) : (s.dropReq r).net = s.net := rfl
@[simp] theorem State.dropReq_captures (r : Nat) : (s.dropReq r).captures = s.captures := rfl
@[simp] theorem State.dropReq_dev (r : Nat) : (s.dropReq r).dev = s.dev := rfl

/-! ### State.modHomes -/

@[simp] theorem State.modHomes_clock (f : Homes → Homes) : (s.modHomes f).clock = s.clock := rfl
@[simp] theorem State.modHomes_seq (f : Homes → Homes) : (s.modHomes f).seq = s.seq := rfl
@[simp] theorem State.modHomes_free (f : Homes → Homes) : (s.modHomes f).free = s.free := rfl
@[simp] theorem State.modHomes_schedule (f : Homes → Homes) : (s.modHomes f).schedule = s.schedule := rfl
@[simp] theorem State.modHomes_cur (f : Homes → Homes) : (s.modHomes f).cur = s.cur := rfl
@[simp] theorem State.modHomes_nextId (f : Homes → Homes) : (s.modHomes f).nextId = s.nextId := rfl
@[simp] theorem State.modHomes_modNo (f : Homes → Homes) : (s.modHomes f).modNo = s.modNo := rfl
@[simp] theorem State.modHomes_cores (f : Homes → Homes) : (s.modHomes f).cores = s.cores := rfl
@[simp] theorem State.modHomes_skeins (f : Homes → Homes) : (s.modHomes f).skeins = s.skeins := rfl
@[simp] theorem State.modHomes_bolts (f : Homes → Homes) : (s.modHomes f).bolts = s.bolts := rfl
@[simp] theorem State.modHomes_launches (f : Homes → Homes) : (s.modHomes f).launches = s.launches := rfl
@[simp] theorem State.modHomes_contexts (f : Homes → Homes) : (s.modHomes f).contexts = s.contexts := rfl
@[simp] theorem State.modHomes_parts (f : Homes → Homes) : (s.modHomes f).parts = s.parts := rfl
@[simp] theorem State.modHomes_queues (f : Homes → Homes) : (s.modHomes f).queues = s.queues := rfl
@[simp] theorem State.modHomes_pend (f : Homes → Homes) : (s.modHomes f).pend = s.pend := rfl
@[simp] theorem State.modHomes_l1 (f : Homes → Homes) : (s.modHomes f).l1 = s.l1 := rfl
@[simp] theorem State.modHomes_reqs (f : Homes → Homes) : (s.modHomes f).reqs = s.reqs := rfl
@[simp] theorem State.modHomes_copies (f : Homes → Homes) : (s.modHomes f).copies = s.copies := rfl
@[simp] theorem State.modHomes_shdops (f : Homes → Homes) : (s.modHomes f).shdops = s.shdops := rfl
@[simp] theorem State.modHomes_fetches (f : Homes → Homes) : (s.modHomes f).fetches = s.fetches := rfl
@[simp] theorem State.modHomes_homes (f : Homes → Homes) : (s.modHomes f).homes = f s.homes := rfl
@[simp] theorem State.modHomes_net (f : Homes → Homes) : (s.modHomes f).net = s.net := rfl
@[simp] theorem State.modHomes_captures (f : Homes → Homes) : (s.modHomes f).captures = s.captures := rfl
@[simp] theorem State.modHomes_dev (f : Homes → Homes) : (s.modHomes f).dev = s.dev := rfl

/-! ### State.modLink -/

@[simp] theorem State.modLink_clock (l : Nat) (f : Link → Link) : (s.modLink l f).clock = s.clock := rfl
@[simp] theorem State.modLink_seq (l : Nat) (f : Link → Link) : (s.modLink l f).seq = s.seq := rfl
@[simp] theorem State.modLink_free (l : Nat) (f : Link → Link) : (s.modLink l f).free = s.free := rfl
@[simp] theorem State.modLink_schedule (l : Nat) (f : Link → Link) : (s.modLink l f).schedule = s.schedule := rfl
@[simp] theorem State.modLink_cur (l : Nat) (f : Link → Link) : (s.modLink l f).cur = s.cur := rfl
@[simp] theorem State.modLink_nextId (l : Nat) (f : Link → Link) : (s.modLink l f).nextId = s.nextId := rfl
@[simp] theorem State.modLink_modNo (l : Nat) (f : Link → Link) : (s.modLink l f).modNo = s.modNo := rfl
@[simp] theorem State.modLink_cores (l : Nat) (f : Link → Link) : (s.modLink l f).cores = s.cores := rfl
@[simp] theorem State.modLink_skeins (l : Nat) (f : Link → Link) : (s.modLink l f).skeins = s.skeins := rfl
@[simp] theorem State.modLink_bolts (l : Nat) (f : Link → Link) : (s.modLink l f).bolts = s.bolts := rfl
@[simp] theorem State.modLink_launches (l : Nat) (f : Link → Link) : (s.modLink l f).launches = s.launches := rfl
@[simp] theorem State.modLink_contexts (l : Nat) (f : Link → Link) : (s.modLink l f).contexts = s.contexts := rfl
@[simp] theorem State.modLink_parts (l : Nat) (f : Link → Link) : (s.modLink l f).parts = s.parts := rfl
@[simp] theorem State.modLink_queues (l : Nat) (f : Link → Link) : (s.modLink l f).queues = s.queues := rfl
@[simp] theorem State.modLink_pend (l : Nat) (f : Link → Link) : (s.modLink l f).pend = s.pend := rfl
@[simp] theorem State.modLink_l1 (l : Nat) (f : Link → Link) : (s.modLink l f).l1 = s.l1 := rfl
@[simp] theorem State.modLink_reqs (l : Nat) (f : Link → Link) : (s.modLink l f).reqs = s.reqs := rfl
@[simp] theorem State.modLink_copies (l : Nat) (f : Link → Link) : (s.modLink l f).copies = s.copies := rfl
@[simp] theorem State.modLink_shdops (l : Nat) (f : Link → Link) : (s.modLink l f).shdops = s.shdops := rfl
@[simp] theorem State.modLink_fetches (l : Nat) (f : Link → Link) : (s.modLink l f).fetches = s.fetches := rfl
@[simp] theorem State.modLink_homes (l : Nat) (f : Link → Link) : (s.modLink l f).homes = s.homes := rfl
@[simp] theorem State.modLink_net (l : Nat) (f : Link → Link) :
    (s.modLink l f).net = { s.net with links := Cells.set Link.fresh s.net.links l (f (s.link l)) } := rfl
@[simp] theorem State.modLink_captures (l : Nat) (f : Link → Link) : (s.modLink l f).captures = s.captures := rfl
@[simp] theorem State.modLink_dev (l : Nat) (f : Link → Link) : (s.modLink l f).dev = s.dev := rfl

/-! ### State.enqueue -/

@[simp] theorem State.enqueue_clock (channel station type : Nat) (p : Payload) :
    (s.enqueue channel station type p).clock = s.clock := rfl
@[simp] theorem State.enqueue_seq (channel station type : Nat) (p : Payload) :
    (s.enqueue channel station type p).seq = s.seq := rfl
@[simp] theorem State.enqueue_free (channel station type : Nat) (p : Payload) :
    (s.enqueue channel station type p).free = s.free := rfl
@[simp] theorem State.enqueue_schedule (channel station type : Nat) (p : Payload) :
    (s.enqueue channel station type p).schedule = s.schedule := rfl
@[simp] theorem State.enqueue_cur (channel station type : Nat) (p : Payload) :
    (s.enqueue channel station type p).cur = s.cur := rfl
@[simp] theorem State.enqueue_nextId (channel station type : Nat) (p : Payload) :
    (s.enqueue channel station type p).nextId = s.nextId := rfl
@[simp] theorem State.enqueue_modNo (channel station type : Nat) (p : Payload) :
    (s.enqueue channel station type p).modNo = s.modNo := rfl
@[simp] theorem State.enqueue_cores (channel station type : Nat) (p : Payload) :
    (s.enqueue channel station type p).cores = s.cores := rfl
@[simp] theorem State.enqueue_skeins (channel station type : Nat) (p : Payload) :
    (s.enqueue channel station type p).skeins = s.skeins := rfl
@[simp] theorem State.enqueue_bolts (channel station type : Nat) (p : Payload) :
    (s.enqueue channel station type p).bolts = s.bolts := rfl
@[simp] theorem State.enqueue_launches (channel station type : Nat) (p : Payload) :
    (s.enqueue channel station type p).launches = s.launches := rfl
@[simp] theorem State.enqueue_contexts (channel station type : Nat) (p : Payload) :
    (s.enqueue channel station type p).contexts = s.contexts := rfl
@[simp] theorem State.enqueue_parts (channel station type : Nat) (p : Payload) :
    (s.enqueue channel station type p).parts = s.parts := rfl
@[simp] theorem State.enqueue_queues (channel station type : Nat) (p : Payload) :
    (s.enqueue channel station type p).queues = s.queues := rfl
@[simp] theorem State.enqueue_pend (channel station type : Nat) (p : Payload) :
    (s.enqueue channel station type p).pend = s.pend := rfl
@[simp] theorem State.enqueue_l1 (channel station type : Nat) (p : Payload) :
    (s.enqueue channel station type p).l1 = s.l1 := rfl
@[simp] theorem State.enqueue_reqs (channel station type : Nat) (p : Payload) :
    (s.enqueue channel station type p).reqs = s.reqs := rfl
@[simp] theorem State.enqueue_copies (channel station type : Nat) (p : Payload) :
    (s.enqueue channel station type p).copies = s.copies := rfl
@[simp] theorem State.enqueue_shdops (channel station type : Nat) (p : Payload) :
    (s.enqueue channel station type p).shdops = s.shdops := rfl
@[simp] theorem State.enqueue_fetches (channel station type : Nat) (p : Payload) :
    (s.enqueue channel station type p).fetches = s.fetches := rfl
@[simp] theorem State.enqueue_homes (channel station type : Nat) (p : Payload) :
    (s.enqueue channel station type p).homes = s.homes := rfl
@[simp] theorem State.enqueue_captures (channel station type : Nat) (p : Payload) :
    (s.enqueue channel station type p).captures = s.captures := rfl
@[simp] theorem State.enqueue_dev (channel station type : Nat) (p : Payload) :
    (s.enqueue channel station type p).dev = s.dev := rfl

/-! ### State.sendToHome -/

@[simp] theorem State.sendToHome_clock (core home va type : Nat) (p : Payload) :
    (s.sendToHome core home va type p).clock = s.clock := rfl
@[simp] theorem State.sendToHome_seq (core home va type : Nat) (p : Payload) :
    (s.sendToHome core home va type p).seq = s.seq := rfl
@[simp] theorem State.sendToHome_free (core home va type : Nat) (p : Payload) :
    (s.sendToHome core home va type p).free = s.free := rfl
@[simp] theorem State.sendToHome_schedule (core home va type : Nat) (p : Payload) :
    (s.sendToHome core home va type p).schedule = s.schedule := rfl
@[simp] theorem State.sendToHome_cur (core home va type : Nat) (p : Payload) :
    (s.sendToHome core home va type p).cur = s.cur := rfl
@[simp] theorem State.sendToHome_nextId (core home va type : Nat) (p : Payload) :
    (s.sendToHome core home va type p).nextId = s.nextId := rfl
@[simp] theorem State.sendToHome_modNo (core home va type : Nat) (p : Payload) :
    (s.sendToHome core home va type p).modNo = s.modNo := rfl
@[simp] theorem State.sendToHome_cores (core home va type : Nat) (p : Payload) :
    (s.sendToHome core home va type p).cores = s.cores := rfl
@[simp] theorem State.sendToHome_skeins (core home va type : Nat) (p : Payload) :
    (s.sendToHome core home va type p).skeins = s.skeins := rfl
@[simp] theorem State.sendToHome_bolts (core home va type : Nat) (p : Payload) :
    (s.sendToHome core home va type p).bolts = s.bolts := rfl
@[simp] theorem State.sendToHome_launches (core home va type : Nat) (p : Payload) :
    (s.sendToHome core home va type p).launches = s.launches := rfl
@[simp] theorem State.sendToHome_contexts (core home va type : Nat) (p : Payload) :
    (s.sendToHome core home va type p).contexts = s.contexts := rfl
@[simp] theorem State.sendToHome_parts (core home va type : Nat) (p : Payload) :
    (s.sendToHome core home va type p).parts = s.parts := rfl
@[simp] theorem State.sendToHome_queues (core home va type : Nat) (p : Payload) :
    (s.sendToHome core home va type p).queues = s.queues := rfl
@[simp] theorem State.sendToHome_pend (core home va type : Nat) (p : Payload) :
    (s.sendToHome core home va type p).pend = s.pend := rfl
@[simp] theorem State.sendToHome_l1 (core home va type : Nat) (p : Payload) :
    (s.sendToHome core home va type p).l1 = s.l1 := rfl
@[simp] theorem State.sendToHome_reqs (core home va type : Nat) (p : Payload) :
    (s.sendToHome core home va type p).reqs = s.reqs := rfl
@[simp] theorem State.sendToHome_copies (core home va type : Nat) (p : Payload) :
    (s.sendToHome core home va type p).copies = s.copies := rfl
@[simp] theorem State.sendToHome_shdops (core home va type : Nat) (p : Payload) :
    (s.sendToHome core home va type p).shdops = s.shdops := rfl
@[simp] theorem State.sendToHome_fetches (core home va type : Nat) (p : Payload) :
    (s.sendToHome core home va type p).fetches = s.fetches := rfl
@[simp] theorem State.sendToHome_homes (core home va type : Nat) (p : Payload) :
    (s.sendToHome core home va type p).homes = s.homes := rfl
@[simp] theorem State.sendToHome_captures (core home va type : Nat) (p : Payload) :
    (s.sendToHome core home va type p).captures = s.captures := rfl
@[simp] theorem State.sendToHome_dev (core home va type : Nat) (p : Payload) :
    (s.sendToHome core home va type p).dev = s.dev := rfl

/-! ### State.sendToCore -/

@[simp] theorem State.sendToCore_clock (core home va : Nat) (p : Payload) :
    (s.sendToCore core home va p).clock = s.clock := rfl
@[simp] theorem State.sendToCore_seq (core home va : Nat) (p : Payload) :
    (s.sendToCore core home va p).seq = s.seq := rfl
@[simp] theorem State.sendToCore_free (core home va : Nat) (p : Payload) :
    (s.sendToCore core home va p).free = s.free := rfl
@[simp] theorem State.sendToCore_schedule (core home va : Nat) (p : Payload) :
    (s.sendToCore core home va p).schedule = s.schedule := rfl
@[simp] theorem State.sendToCore_cur (core home va : Nat) (p : Payload) :
    (s.sendToCore core home va p).cur = s.cur := rfl
@[simp] theorem State.sendToCore_nextId (core home va : Nat) (p : Payload) :
    (s.sendToCore core home va p).nextId = s.nextId := rfl
@[simp] theorem State.sendToCore_modNo (core home va : Nat) (p : Payload) :
    (s.sendToCore core home va p).modNo = s.modNo := rfl
@[simp] theorem State.sendToCore_cores (core home va : Nat) (p : Payload) :
    (s.sendToCore core home va p).cores = s.cores := rfl
@[simp] theorem State.sendToCore_skeins (core home va : Nat) (p : Payload) :
    (s.sendToCore core home va p).skeins = s.skeins := rfl
@[simp] theorem State.sendToCore_bolts (core home va : Nat) (p : Payload) :
    (s.sendToCore core home va p).bolts = s.bolts := rfl
@[simp] theorem State.sendToCore_launches (core home va : Nat) (p : Payload) :
    (s.sendToCore core home va p).launches = s.launches := rfl
@[simp] theorem State.sendToCore_contexts (core home va : Nat) (p : Payload) :
    (s.sendToCore core home va p).contexts = s.contexts := rfl
@[simp] theorem State.sendToCore_parts (core home va : Nat) (p : Payload) :
    (s.sendToCore core home va p).parts = s.parts := rfl
@[simp] theorem State.sendToCore_queues (core home va : Nat) (p : Payload) :
    (s.sendToCore core home va p).queues = s.queues := rfl
@[simp] theorem State.sendToCore_pend (core home va : Nat) (p : Payload) :
    (s.sendToCore core home va p).pend = s.pend := rfl
@[simp] theorem State.sendToCore_l1 (core home va : Nat) (p : Payload) : (s.sendToCore core home va p).l1 = s.l1 := rfl
@[simp] theorem State.sendToCore_reqs (core home va : Nat) (p : Payload) :
    (s.sendToCore core home va p).reqs = s.reqs := rfl
@[simp] theorem State.sendToCore_copies (core home va : Nat) (p : Payload) :
    (s.sendToCore core home va p).copies = s.copies := rfl
@[simp] theorem State.sendToCore_shdops (core home va : Nat) (p : Payload) :
    (s.sendToCore core home va p).shdops = s.shdops := rfl
@[simp] theorem State.sendToCore_fetches (core home va : Nat) (p : Payload) :
    (s.sendToCore core home va p).fetches = s.fetches := rfl
@[simp] theorem State.sendToCore_homes (core home va : Nat) (p : Payload) :
    (s.sendToCore core home va p).homes = s.homes := rfl
@[simp] theorem State.sendToCore_captures (core home va : Nat) (p : Payload) :
    (s.sendToCore core home va p).captures = s.captures := rfl
@[simp] theorem State.sendToCore_dev (core home va : Nat) (p : Payload) :
    (s.sendToCore core home va p).dev = s.dev := rfl

/-! ### State.modWatch -/

@[simp] theorem State.modWatch_clock (c e : Nat) (f : Watch → Watch) : (s.modWatch c e f).clock = s.clock := rfl
@[simp] theorem State.modWatch_seq (c e : Nat) (f : Watch → Watch) : (s.modWatch c e f).seq = s.seq := rfl
@[simp] theorem State.modWatch_free (c e : Nat) (f : Watch → Watch) : (s.modWatch c e f).free = s.free := rfl
@[simp] theorem State.modWatch_schedule (c e : Nat) (f : Watch → Watch) :
    (s.modWatch c e f).schedule = s.schedule := rfl
@[simp] theorem State.modWatch_cur (c e : Nat) (f : Watch → Watch) : (s.modWatch c e f).cur = s.cur := rfl
@[simp] theorem State.modWatch_nextId (c e : Nat) (f : Watch → Watch) : (s.modWatch c e f).nextId = s.nextId := rfl
@[simp] theorem State.modWatch_modNo (c e : Nat) (f : Watch → Watch) : (s.modWatch c e f).modNo = s.modNo := rfl
@[simp] theorem State.modWatch_skeins (c e : Nat) (f : Watch → Watch) : (s.modWatch c e f).skeins = s.skeins := rfl
@[simp] theorem State.modWatch_bolts (c e : Nat) (f : Watch → Watch) : (s.modWatch c e f).bolts = s.bolts := rfl
@[simp] theorem State.modWatch_launches (c e : Nat) (f : Watch → Watch) :
    (s.modWatch c e f).launches = s.launches := rfl
@[simp] theorem State.modWatch_contexts (c e : Nat) (f : Watch → Watch) :
    (s.modWatch c e f).contexts = s.contexts := rfl
@[simp] theorem State.modWatch_parts (c e : Nat) (f : Watch → Watch) : (s.modWatch c e f).parts = s.parts := rfl
@[simp] theorem State.modWatch_queues (c e : Nat) (f : Watch → Watch) : (s.modWatch c e f).queues = s.queues := rfl
@[simp] theorem State.modWatch_pend (c e : Nat) (f : Watch → Watch) : (s.modWatch c e f).pend = s.pend := rfl
@[simp] theorem State.modWatch_l1 (c e : Nat) (f : Watch → Watch) : (s.modWatch c e f).l1 = s.l1 := rfl
@[simp] theorem State.modWatch_reqs (c e : Nat) (f : Watch → Watch) : (s.modWatch c e f).reqs = s.reqs := rfl
@[simp] theorem State.modWatch_copies (c e : Nat) (f : Watch → Watch) : (s.modWatch c e f).copies = s.copies := rfl
@[simp] theorem State.modWatch_shdops (c e : Nat) (f : Watch → Watch) : (s.modWatch c e f).shdops = s.shdops := rfl
@[simp] theorem State.modWatch_fetches (c e : Nat) (f : Watch → Watch) : (s.modWatch c e f).fetches = s.fetches := rfl
@[simp] theorem State.modWatch_homes (c e : Nat) (f : Watch → Watch) : (s.modWatch c e f).homes = s.homes := rfl
@[simp] theorem State.modWatch_net (c e : Nat) (f : Watch → Watch) : (s.modWatch c e f).net = s.net := rfl
@[simp] theorem State.modWatch_captures (c e : Nat) (f : Watch → Watch) :
    (s.modWatch c e f).captures = s.captures := rfl
@[simp] theorem State.modWatch_dev (c e : Nat) (f : Watch → Watch) : (s.modWatch c e f).dev = s.dev := rfl

/-! ### State.fresh -/

@[simp] theorem State.fresh_clock : (s.fresh).clock = s.clock := rfl
@[simp] theorem State.fresh_seq : (s.fresh).seq = s.seq := rfl
@[simp] theorem State.fresh_free : (s.fresh).free = s.free := rfl
@[simp] theorem State.fresh_schedule : (s.fresh).schedule = s.schedule := rfl
@[simp] theorem State.fresh_cur : (s.fresh).cur = s.cur := rfl
@[simp] theorem State.fresh_nextId : (s.fresh).nextId = s.nextId + 1 := rfl
@[simp] theorem State.fresh_modNo : (s.fresh).modNo = s.modNo := rfl
@[simp] theorem State.fresh_cores : (s.fresh).cores = s.cores := rfl
@[simp] theorem State.fresh_skeins : (s.fresh).skeins = s.skeins := rfl
@[simp] theorem State.fresh_bolts : (s.fresh).bolts = s.bolts := rfl
@[simp] theorem State.fresh_launches : (s.fresh).launches = s.launches := rfl
@[simp] theorem State.fresh_contexts : (s.fresh).contexts = s.contexts := rfl
@[simp] theorem State.fresh_parts : (s.fresh).parts = s.parts := rfl
@[simp] theorem State.fresh_queues : (s.fresh).queues = s.queues := rfl
@[simp] theorem State.fresh_pend : (s.fresh).pend = s.pend := rfl
@[simp] theorem State.fresh_l1 : (s.fresh).l1 = s.l1 := rfl
@[simp] theorem State.fresh_reqs : (s.fresh).reqs = s.reqs := rfl
@[simp] theorem State.fresh_copies : (s.fresh).copies = s.copies := rfl
@[simp] theorem State.fresh_shdops : (s.fresh).shdops = s.shdops := rfl
@[simp] theorem State.fresh_fetches : (s.fresh).fetches = s.fetches := rfl
@[simp] theorem State.fresh_homes : (s.fresh).homes = s.homes := rfl
@[simp] theorem State.fresh_net : (s.fresh).net = s.net := rfl
@[simp] theorem State.fresh_captures : (s.fresh).captures = s.captures := rfl
@[simp] theorem State.fresh_dev : (s.fresh).dev = s.dev := rfl

/-! ### State.freeBool -/

@[simp] theorem State.freeBool_clock : s.freeBool.2.clock = s.clock := rfl
@[simp] theorem State.freeBool_seq : s.freeBool.2.seq = s.seq := rfl
@[simp] theorem State.freeBool_free : s.freeBool.2.free = s.free + 1 := rfl
@[simp] theorem State.freeBool_schedule : s.freeBool.2.schedule = s.schedule := rfl
@[simp] theorem State.freeBool_cur : s.freeBool.2.cur = s.cur := rfl
@[simp] theorem State.freeBool_nextId : s.freeBool.2.nextId = s.nextId := rfl
@[simp] theorem State.freeBool_modNo : s.freeBool.2.modNo = s.modNo := rfl
@[simp] theorem State.freeBool_cores : s.freeBool.2.cores = s.cores := rfl
@[simp] theorem State.freeBool_skeins : s.freeBool.2.skeins = s.skeins := rfl
@[simp] theorem State.freeBool_bolts : s.freeBool.2.bolts = s.bolts := rfl
@[simp] theorem State.freeBool_launches : s.freeBool.2.launches = s.launches := rfl
@[simp] theorem State.freeBool_contexts : s.freeBool.2.contexts = s.contexts := rfl
@[simp] theorem State.freeBool_parts : s.freeBool.2.parts = s.parts := rfl
@[simp] theorem State.freeBool_queues : s.freeBool.2.queues = s.queues := rfl
@[simp] theorem State.freeBool_pend : s.freeBool.2.pend = s.pend := rfl
@[simp] theorem State.freeBool_l1 : s.freeBool.2.l1 = s.l1 := rfl
@[simp] theorem State.freeBool_reqs : s.freeBool.2.reqs = s.reqs := rfl
@[simp] theorem State.freeBool_copies : s.freeBool.2.copies = s.copies := rfl
@[simp] theorem State.freeBool_shdops : s.freeBool.2.shdops = s.shdops := rfl
@[simp] theorem State.freeBool_fetches : s.freeBool.2.fetches = s.fetches := rfl
@[simp] theorem State.freeBool_homes : s.freeBool.2.homes = s.homes := rfl
@[simp] theorem State.freeBool_net : s.freeBool.2.net = s.net := rfl
@[simp] theorem State.freeBool_captures : s.freeBool.2.captures = s.captures := rfl
@[simp] theorem State.freeBool_dev : s.freeBool.2.dev = s.dev := rfl

/-! ### State.freeByte -/

@[simp] theorem State.freeByte_clock : s.freeByte.2.clock = s.clock := rfl
@[simp] theorem State.freeByte_seq : s.freeByte.2.seq = s.seq := rfl
@[simp] theorem State.freeByte_free : s.freeByte.2.free = s.free + 1 := rfl
@[simp] theorem State.freeByte_schedule : s.freeByte.2.schedule = s.schedule := rfl
@[simp] theorem State.freeByte_cur : s.freeByte.2.cur = s.cur := rfl
@[simp] theorem State.freeByte_nextId : s.freeByte.2.nextId = s.nextId := rfl
@[simp] theorem State.freeByte_modNo : s.freeByte.2.modNo = s.modNo := rfl
@[simp] theorem State.freeByte_cores : s.freeByte.2.cores = s.cores := rfl
@[simp] theorem State.freeByte_skeins : s.freeByte.2.skeins = s.skeins := rfl
@[simp] theorem State.freeByte_bolts : s.freeByte.2.bolts = s.bolts := rfl
@[simp] theorem State.freeByte_launches : s.freeByte.2.launches = s.launches := rfl
@[simp] theorem State.freeByte_contexts : s.freeByte.2.contexts = s.contexts := rfl
@[simp] theorem State.freeByte_parts : s.freeByte.2.parts = s.parts := rfl
@[simp] theorem State.freeByte_queues : s.freeByte.2.queues = s.queues := rfl
@[simp] theorem State.freeByte_pend : s.freeByte.2.pend = s.pend := rfl
@[simp] theorem State.freeByte_l1 : s.freeByte.2.l1 = s.l1 := rfl
@[simp] theorem State.freeByte_reqs : s.freeByte.2.reqs = s.reqs := rfl
@[simp] theorem State.freeByte_copies : s.freeByte.2.copies = s.copies := rfl
@[simp] theorem State.freeByte_shdops : s.freeByte.2.shdops = s.shdops := rfl
@[simp] theorem State.freeByte_fetches : s.freeByte.2.fetches = s.fetches := rfl
@[simp] theorem State.freeByte_homes : s.freeByte.2.homes = s.homes := rfl
@[simp] theorem State.freeByte_net : s.freeByte.2.net = s.net := rfl
@[simp] theorem State.freeByte_captures : s.freeByte.2.captures = s.captures := rfl
@[simp] theorem State.freeByte_dev : s.freeByte.2.dev = s.dev := rfl

/-! ### Records that an update names -/

@[simp] theorem State.core_modCore (c a : Nat) (f : CoreSt → CoreSt) :
    (s.modCore c f).core a = if a = c then f (s.core c) else s.core a := by
  unfold State.core; rw [State.modCore_cores, Cells.get_set]; rfl

@[simp] theorem State.skein?_modSkein (k a : Nat) (f : Skein → Skein) :
    (s.modSkein k f).skein? a = if a = k then (s.skein? a).map f else s.skein? a := Tab.get_upd _ _ _ _

@[simp] theorem State.bolt?_modBolt (b a : Nat) (f : Bolt → Bolt) :
    (s.modBolt b f).bolt? a = if a = b then (s.bolt? a).map f else s.bolt? a := Tab.get_upd _ _ _ _

@[simp] theorem State.ctx?_modCtx (c a : Nat) (f : Context → Context) :
    (s.modCtx c f).ctx? a = if a = c then (s.ctx? a).map f else s.ctx? a := Tab.get_upd _ _ _ _

@[simp] theorem State.part?_modPart (p a : Nat) (f : Partition → Partition) :
    (s.modPart p f).part? a = if a = p then (s.part? a).map f else s.part? a := Tab.get_upd _ _ _ _

@[simp] theorem State.req?_modReq (r a : Nat) (f : Req → Req) :
    (s.modReq r f).req? a = if a = r then (s.req? a).map f else s.req? a := Tab.get_upd _ _ _ _

@[simp] theorem State.req?_dropReq (r a : Nat) :
    (s.dropReq r).req? a = if a = r then none else s.req? a := Tab.get_set _ _ _ _

@[simp] theorem State.link_modLink (l a : Nat) (f : Link → Link) :
    (s.modLink l f).link a = if a = l then f (s.link l) else s.link a := by
  unfold State.link; rw [State.modLink_net, Cells.get_set]; rfl

end Sys2Proof.Machine
end

