-- ==== Sys2Proof/Laws/Lanes.lean ====
section
/-! SUPPORT. Laws/Lanes.lean: what the frame of a word does once it can run, and what a per-lane word leaves: the strands
of its issue set changed, and nothing else. -/

namespace Sys2Proof.Machine

/-! ### Nothing changes but strands -/

theorem State.OnlyStrands.refl (s : State) : s.OnlyStrands s :=
  ⟨rfl, fun _ => rfl, fun _ _ => rfl, fun sk h => ⟨sk, h, rfl⟩⟩

theorem State.OnlyStrands.cur {s t : State} (h : s.OnlyStrands t) : t.cur = s.cur := by rw [h.1]

theorem State.OnlyStrands.trans {s t u : State} (h : s.OnlyStrands t) (h' : t.OnlyStrands u) : s.OnlyStrands u := by
  have hc := h.cur
  obtain ⟨a1, a2, a3, a4⟩ := h
  obtain ⟨b1, b2, b3, b4⟩ := h'
  rw [hc] at b3 b4
  refine ⟨by rw [b1, a1], fun c => by rw [b2 c, a2 c], fun k hk => by rw [b3 k hk, a3 k hk], fun sk hs => ?_⟩
  obtain ⟨x, hx, ex⟩ := a4 sk hs
  obtain ⟨y, hy, ey⟩ := b4 x hx
  exact ⟨y, hy, by rw [ey, ex]⟩

/-- A change of the issue's skein that touches its strands and counters alone. -/
theorem State.onlyStrands_modSkein (s : State) (f : Skein → Skein)
    (hf : ∀ sk, f sk = { sk with strands := (f sk).strands, pmc := (f sk).pmc }) :
    s.OnlyStrands (s.modSkein s.cur.skein f) := by
  refine ⟨rfl, fun _ => rfl, fun k hk => ?_, fun sk hs => ?_⟩
  · rw [State.skein?_modSkein, if_neg hk]
  · exact ⟨f sk, by rw [State.skein?_modSkein, if_pos rfl, hs]; rfl, hf sk⟩

/-- A change of what a core's reuse table holds. -/
theorem State.onlyStrands_reuse (s : State) (c : Nat) (f : CoreSt → CoreSt)
    (hf : ∀ x, f x = { x with reuse := (f x).reuse }) : s.OnlyStrands (s.modCore c f) := by
  refine ⟨rfl, fun a => ?_, fun _ _ => rfl, fun sk hs => ⟨sk, hs, rfl⟩⟩
  rw [State.core_modCore]
  split_ifs with h
  · subst h; exact hf _
  · rfl

theorem State.onlyStrands_free (s : State) (n : Nat) : s.OnlyStrands { s with free := n } :=
  ⟨rfl, fun _ => rfl, fun _ _ => rfl, fun sk h => ⟨sk, h, rfl⟩⟩

/-! ### Strands after an update -/

theorem State.strand?_modSkein (s : State) (k a i : Nat) (f : Skein → Skein) :
    (s.modSkein k f).strand? a i =
      if a = k then (s.skein? a).bind (fun sk => Tab.get (f sk).strands i) else s.strand? a i := by
  unfold State.strand?
  rw [State.skein?_modSkein]
  split_ifs
  · cases s.skein? a <;> rfl
  · rfl

@[simp] theorem State.strand?_count (s : State) (k a i p n : Nat) : (s.count k p n).strand? a i = s.strand? a i := by
  unfold State.count
  rw [State.strand?_modSkein]
  split_ifs with h
  · subst h; rfl
  · rfl

theorem State.onlyStrands_count (s : State) (p n : Nat) : s.OnlyStrands (s.count s.cur.skein p n) :=
  s.onlyStrands_modSkein _ (fun _ => rfl)

/-- One strand of a skein changes. -/
theorem State.strand?_modStrand (s : State) (k i a j : Nat) (f : Strand → Strand) :
    (s.modStrand k i f).strand? a j = if a = k ∧ j = i then (s.strand? a j).map f else s.strand? a j := by
  unfold State.modStrand
  rw [State.strand?_modSkein]
  by_cases ha : a = k
  · subst ha
    by_cases hj : j = i
    · subst hj
      simp only [State.strand?, if_true, and_self]
      cases s.skein? a <;> simp
    · simp only [State.strand?, if_true, hj, and_false, if_false]
      cases s.skein? a <;> simp [Tab.get_upd_ne _ _ _ _ hj]
  · simp [ha]

/-! ### A word's frame -/

/-- Where no request is of the kind that is asked for, nothing waits (R183). -/
theorem State.waitOn_clear (s : State) (act : List Nat) (need : Req → Bool)
    (h : ∀ e ∈ Tab.list s.reqs, need e.2 = false) : s.waitOn act need = .clear := by
  have hf : (Tab.list s.reqs).filter (fun e => need e.2) = [] := by
    rw [List.filter_eq_nil_iff]
    intro e he
    simp [h e he]
  unfold State.waitOn
  simp only [hf]
  rfl

theorem State.waiting_clear (s : State) (act : List Nat) (need : Req → Bool) (body : State → Attempt)
    (h : ∀ e ∈ Tab.list s.reqs, need e.2 = false) : s.waiting act need body = body s := by
  rw [State.waiting, s.waitOn_clear act need h]

/-- A word that can run does what its body does; it counts, and reports the denials that are left, where it issued (R54,
R75, R79, R183). -/
theorem State.word_canRun {s : State} {sk : Skein} {i : Instr} (h : s.CanRun sk i) (body : Skein → State → Attempt) :
    s.word i body = .next (if (body sk s).1 then (body sk s).2.reportDenied.count s.cur.skein 0 1
      else (body sk s).2.unissued) := by
  obtain ⟨hi, ht, hn, ha, hb⟩ := h
  have hq : (Instr.accesses i && s.acquirePending sk) = false := by
    cases hx : Instr.accesses i <;> simp [hx, ha]
  have hl : ∀ (act regs : List Nat), ∀ e ∈ Tab.list s.reqs, ldgaOn s.cur.skein act regs e.2 = false := by
    intro act regs e he
    by_cases hk : e.2.kind = .ldga
    · simp [ldgaOn, hn e he hk]
    · simp [ldgaOn, hk]
  unfold State.word
  rw [hi.1]
  simp only [ht]
  rw [s.waiting_clear _ _ _ (hl _ _)]
  simp only [hb, hq, Bool.false_eq_true, if_false]

/-- With no denial reported, none is left to report, and a trap is of the strands it names alone. -/
theorem State.reportDenied_nil {s : State} (h : s.cur.denied = []) : s.reportDenied = s := by
  simp [State.reportDenied, h]

theorem State.trapHere_nil {s : State} (h : s.cur.denied = []) (ts : List TrapReq) :
    s.trapHere ts = s.takeTraps s.cur.skein s.cur.weft s.cur.pc ts := by
  unfold State.trapHere
  have : ({ s with cur := { s.cur with denied := [] } } : State) = s := by rw [← h]
  simp only [this, h, List.nil_append]

/-! ### Lanes -/

/-- A strand of the issue set that the skein has. -/
theorem State.mem_issueSet (s : State) (i : Nat) (t : Strand) :
    (i, t) ∈ s.issueSet ↔ i ∈ s.cur.strands ∧ s.strand? s.cur.skein i = some t := by
  unfold State.issueSet
  rw [List.mem_filterMap]
  constructor
  · rintro ⟨j, hj, h⟩
    obtain ⟨x, hx, hxt⟩ := Option.map_eq_some_iff.1 h
    obtain ⟨rfl, rfl⟩ := Prod.mk.inj hxt
    exact ⟨hj, hx⟩
  · rintro ⟨hj, h⟩
    exact ⟨i, hj, by rw [h]; rfl⟩

/-- Folding records into a table: what a key reads is the last record given for it, or what it read before. -/
theorem Tab.get_foldl_set {β γ : Type} [DecidableEq γ] (f : β → Nat) (g : β → γ) (l : List β) (t : Tab γ) (a : Nat)
    (hn : (l.map f).Nodup) :
    Tab.get (l.foldl (fun t o => Tab.set t (f o) (some (g o))) t) a =
      match l.find? (fun o => f o == a) with
      | some o => some (g o)
      | none => Tab.get t a := by
  induction l generalizing t with
  | nil => rfl
  | cons o l ih =>
    rw [List.map_cons, List.nodup_cons] at hn
    rw [List.foldl_cons, ih _ hn.2]
    by_cases ha : f o = a
    · have hl : l.find? (fun o => f o == a) = none := by
        rw [List.find?_eq_none]
        intro x hx hxa
        exact hn.1 (List.mem_map.2 ⟨x, hx, by rw [ha]; simpa using hxa⟩)
      simp [hl, ha]
    · rw [List.find?_cons_of_neg (by simpa using ha)]
      cases l.find? (fun o => f o == a) with
      | some x => rfl
      | none => exact Tab.get_set_ne _ _ _ _ (fun h => ha h.symm)

/-- The outcome a strand has. -/
theorem State.find_laneOuts {s : State} {sk : Skein} (h : s.Issuing sk) (f : Nat → Strand → LaneOut) (i : Nat) :
    (s.laneOuts f).find? (fun o => o.1 == i) =
      if i ∈ s.cur.strands then (s.strand? s.cur.skein i).map (fun x => (i, f i x)) else none := by
  have hall : ∀ j ∈ s.cur.strands, ∃ x, s.strand? s.cur.skein j = some x := by
    intro j hj
    obtain ⟨x, hx⟩ := Option.isSome_iff_exists.1 (h.2.2.2.2.2 j hj)
    exact ⟨x, by simp [State.strand?, h.1, hx]⟩
  unfold State.laneOuts State.issueSet
  generalize s.cur.strands = l at hall ⊢
  induction l with
  | nil => rfl
  | cons j l ih =>
    obtain ⟨x, hx⟩ := hall j (List.mem_cons_self ..)
    have ih' := ih (fun a ha => hall a (List.mem_cons_of_mem _ ha))
    rw [List.filterMap_cons_some (b := (j, x)) (by rw [hx]; rfl), List.map_cons]
    by_cases hji : j = i
    · subst hji
      rw [List.find?_cons_of_pos (by simp), if_pos (List.mem_cons_self ..), hx]
      rfl
    · rw [List.find?_cons_of_neg (by simpa using hji), ih']
      simp only [List.mem_cons, show ¬ i = j from fun h => hji h.symm, false_or]

theorem State.laneOuts_keys {s : State} {sk : Skein} (h : s.Issuing sk) (f : Nat → Strand → LaneOut) :
    ((s.laneOuts f).map Prod.fst).Nodup := by
  have : ∀ l : List Nat, l.Nodup →
      (((l.filterMap (fun i => (s.strand? s.cur.skein i).map (fun t => (i, t)))).map
        (fun e => (e.1, f e.1 e.2))).map Prod.fst).Nodup := by
    intro l hl
    refine (hl.sublist ?_)
    induction l with
    | nil => exact List.Sublist.refl _
    | cons j l ih =>
      rw [List.nodup_cons] at hl
      cases hx : s.strand? s.cur.skein j with
      | none => rw [List.filterMap_cons_none (by rw [hx]; rfl)]; exact (ih hl.2).cons _
      | some x =>
        rw [List.filterMap_cons_some (b := (j, x)) (by rw [hx]; rfl)]
        exact (ih hl.2).cons_cons _
  exact this _ h.2.2.2.2.1

/-- Outcomes of which none traps: every strand of the issue set takes its own, and nothing else changes (R42, R82). -/
theorem State.putLanes_ok {s : State} {sk : Skein} (h : s.Issuing sk) (f : Nat → Strand → LaneOut)
    (hf : ∀ i ∈ s.cur.strands, ∀ x, s.strand? s.cur.skein i = some x → (f i x).trap? i = none) :
    s.OnlyStrands (s.putLanes (s.laneOuts f)) ∧
    ∀ k i, (s.putLanes (s.laneOuts f)).strand? k i =
      if k = s.cur.skein ∧ i ∈ s.cur.strands then (s.strand? k i).map (fun x => (f i x).strand) else s.strand? k i := by
  have hno : (s.laneOuts f).filterMap (fun o => o.2.trap? o.1) = [] := by
    rw [List.filterMap_eq_nil_iff]
    intro o ho
    obtain ⟨e, he, rfl⟩ := List.mem_map.1 ho
    obtain ⟨h1, h2⟩ := (s.mem_issueSet e.1 e.2).1 he
    exact hf _ h1 _ h2
  unfold State.putLanes
  simp only [hno]
  refine ⟨s.onlyStrands_modSkein _ (fun _ => rfl), fun k i => ?_⟩
  rw [State.strand?_modSkein]
  by_cases hk : k = s.cur.skein
  · subst hk
    simp only [if_true, true_and, h.1, Option.bind_some]
    rw [Tab.get_foldl_set Prod.fst (fun o => o.2.strand) _ _ _ (State.laneOuts_keys h f), State.find_laneOuts h f i]
    have hsi : s.strand? s.cur.skein i = Tab.get sk.strands i := by simp [State.strand?, h.1]
    split_ifs with hi
    · obtain ⟨x, hx⟩ := Option.isSome_iff_exists.1 (h.2.2.2.2.2 i hi)
      rw [hsi, hx]; rfl
    · exact hsi.symm
  · simp [hk]

/-! ### Write-back and the reuse table -/

/-- Naming writes counts, and changes no strand (R66). -/
theorem State.noteWrites_only (w : Nat) (regs : List Nat) (s : State) :
    s.OnlyStrands (s.noteWrites s.cur.skein w regs) ∧
    ∀ k i, (s.noteWrites s.cur.skein w regs).strand? k i = s.strand? k i := by
  unfold State.noteWrites
  induction regs generalizing s with
  | nil => exact ⟨.refl s, fun _ _ => rfl⟩
  | cons r l ih =>
    simp only [List.foldl_cons]
    split
    · exact ih s
    · split_ifs
      · have h1 := s.onlyStrands_free (s.free + 1)
        have h2 := h1.trans (State.onlyStrands_count { s with free := s.free + 1 } 9 1)
        obtain ⟨a, b⟩ := ih (({ s with free := s.free + 1 } : State).count s.cur.skein 9 1)
        exact ⟨h2.trans a, fun k i => (b k i).trans (State.strand?_count ..)⟩
      · obtain ⟨a, b⟩ := ih { s with free := s.free + 1 }
        exact ⟨(s.onlyStrands_free _).trans a, b⟩
      · exact ih s

/-- Entering an instruction changes the reuse table of one core (R67, R71). -/
theorem State.reuseEnter_only (s : State) (core : Nat) (e : ReuseEntry) :
    s.OnlyStrands (s.reuseEnter core e) ∧ ∀ k i, (s.reuseEnter core e).strand? k i = s.strand? k i := by
  unfold State.reuseEnter
  exact ⟨(s.onlyStrands_free (s.free + 2)).trans (State.onlyStrands_reuse _ _ _ (fun _ => rfl)), fun _ _ => rfl⟩

/-- What retiring outcomes leaves is what giving them leaves, but for counters and the reuse table (R66, R70, R71). -/
theorem State.retire_only (s : State) (sk : Skein) (i : Instr) (dst : List Nat) (outs : List (Nat × LaneOut))
    (h : s.OnlyStrands (s.putLanes outs)) :
    s.OnlyStrands (s.retire sk i dst outs) ∧
    ∀ k j, (s.retire sk i dst outs).strand? k j = (s.putLanes outs).strand? k j := by
  have hc := h.cur
  unfold State.retire
  simp only
  split_ifs with h1 h2 h3 h3
  · exact ⟨h.trans (hc ▸ State.onlyStrands_count _ 1 1), fun _ _ => State.strand?_count ..⟩
  all_goals
    obtain ⟨a, b⟩ := State.noteWrites_only s.cur.weft (s.newNames sk i dst) (s.putLanes outs)
    rw [hc] at a b
    first
    | exact ⟨(h.trans a).trans (State.reuseEnter_only ..).1, fun k j => ((State.reuseEnter_only ..).2 k j).trans (b k j)⟩
    | exact ⟨h.trans a, b⟩
    | exact ⟨h.trans (State.reuseEnter_only ..).1, fun k j => (State.reuseEnter_only ..).2 k j⟩
    | exact ⟨h, fun _ _ => rfl⟩

/-- A per-lane word that can run, and traps in no strand of its issue set: each takes its outcome, and nothing else
changes. -/
theorem State.lanes_done {s : State} {sk : Skein} {i : Instr} (h : s.CanRun sk i)
    (f : Skein → Nat → Strand → LaneOut)
    (hf : ∀ j ∈ s.cur.strands, ∀ x, s.strand? s.cur.skein j = some x → (f sk j x).trap? j = none) :
    goesTo (s.lanes i f) (fun t => s.OnlyStrands t ∧ ∀ k j, t.strand? k j =
      if k = s.cur.skein ∧ j ∈ s.cur.strands then (s.strand? k j).map (fun x => (f sk j x).strand)
      else s.strand? k j) := by
  obtain ⟨a, b⟩ := State.putLanes_ok h.1 (f sk) hf
  obtain ⟨c, d⟩ := s.retire_only sk i (Instr.use i).dst _ a
  refine ⟨_, State.word_canRun h _, ?_⟩
  rw [if_pos rfl, State.reportDenied_nil (c.cur ▸ h.1.2.1)]
  refine ⟨c.trans (c.cur ▸ State.onlyStrands_count _ 0 1), fun k j => ?_⟩
  rw [State.strand?_count, d, b]

/-- A guarded word without traps: the guard-true strands become `w` of themselves and go on (R42). -/
theorem State.lanes_guarded {s : State} {sk : Skein} {i : Instr} (h : s.CanRun sk i) (g : BitVec 3)
    (w : Skein → Nat → Strand → Strand) :
    goesTo (s.lanes i (fun sk j => guarded g (fun x => .ok (w sk j x)))) (fun t =>
      s.StrandsDone t g.toNat (fun j x => (w sk j x).advance) ∧ s.OnlyStrands t) := by
  have hn : ∀ j ∈ s.cur.strands, ∀ x, s.strand? s.cur.skein j = some x →
      (guarded g (fun x => LaneOut.ok (w sk j x)) x).trap? j = none := by
    intro j _ x _
    unfold guarded
    split_ifs <;> rfl
  obtain ⟨t, ht, ho, hs⟩ := State.lanes_done h (fun sk j => guarded g (fun x => .ok (w sk j x))) hn
  refine ⟨t, ht, fun k j => ?_, ho⟩
  rw [hs]
  split_ifs with hk
  · congr 1
    funext x
    unfold guarded
    split_ifs <;> rfl
  · rfl

end Sys2Proof.Machine
end

