-- ==== Sys2Proof/Laws/Memory.lean ====
section
/-! SUPPORT. Laws/Memory.lean: what a write at its point of visibility does to the bytes of memory, and that it keeps their
canonical form. -/

namespace Sys2Proof.Machine

/-! ### A write at a page (R154) -/

theorem putBytes_wf (tdom moment core seq reached frame : Nat) (bs : List Byte) (h : Homes) (va : Nat)
    (hm : Memory.wf h.mem = true) : Memory.wf (putBytes h tdom moment core seq reached frame va bs).mem = true := by
  induction bs generalizing h va with
  | nil => exact hm
  | cons b t ih => exact ih _ _ (Memory.wf_set _ _ _ hm)

/-- The bytes that a write leaves: those of the data at its addresses, every other as before. -/
theorem get_putBytes (tdom moment core seq reached frame : Nat) (bs : List Byte) (h : Homes) (va p : Nat)
    (hp : ∀ j < bs.length, physAddr frame (va + j) = physAddr frame va + j) :
    Cells.get 0 (putBytes h tdom moment core seq reached frame va bs).mem p =
      if physAddr frame va ≤ p ∧ p < physAddr frame va + bs.length then bs.getD (p - physAddr frame va) 0
      else Cells.get 0 h.mem p := by
  induction bs generalizing h va with
  | nil =>
    rw [putBytes, if_neg (by simp)]
  | cons b t ih =>
    cases t with
    | nil =>
      simp only [putBytes, Cells.get_set, List.length_singleton]
      by_cases hpa : p = physAddr frame va
      · subst hpa; simp
      · rw [if_neg hpa, if_neg (by omega)]
    | cons b' t =>
      have h1 : physAddr frame (va + 1) = physAddr frame va + 1 := hp 1 (by simp)
      rw [putBytes, ih _ _ (fun j hj => by
        rw [show va + 1 + j = va + (j + 1) by omega, hp (j + 1) (by simpa using hj), h1]; omega)]
      simp only [h1, Cells.get_set, List.length_cons]
      by_cases hpa : p = physAddr frame va
      · subst hpa
        rw [if_neg (by omega), if_pos rfl, if_pos ⟨le_rfl, by omega⟩]
        simp
      · by_cases hr : physAddr frame va + 1 ≤ p ∧ p < physAddr frame va + 1 + (t.length + 1)
        · rw [if_pos hr, if_pos (by omega), show p - physAddr frame va = (p - (physAddr frame va + 1)) + 1 by omega]
          rfl
        · rw [if_neg hr, if_neg hpa, if_neg (by omega)]

@[simp] theorem clearPoison_mem (h : Homes) (s2 : Stage2) (va : Nat) : (clearPoison h s2 va).mem = h.mem := by
  unfold clearPoison; simp only; split_ifs <;> rfl

@[simp] theorem rewriteGranule_mem (h : Homes) (tdom : Nat) (a : Attr) (s2 : Stage2) (va n : Nat) :
    (rewriteGranule h tdom a s2 va n).mem = h.mem := by
  unfold rewriteGranule; simp only; split_ifs <;> rfl

@[simp] theorem touchLine_mem (h : Homes) (tdom va n : Nat) (a : Attr) (s2 : Stage2) (ret : Nat) (d : Bool) :
    (touchLine h tdom va n a s2 ret d).mem = h.mem := by
  unfold touchLine; simp only; split <;> rfl

/-- What a write does to memory is what its bytes do: the line, the history and poison are beside it. -/
@[simp] theorem performWrite_mem (h : Homes) (tdom moment core seq reached va : Nat) (a : Attr) (s2 : Stage2) (data : List Byte) :
    (performWrite h tdom moment core seq reached va a s2 data).mem =
      (putBytes h tdom moment core seq reached s2.frame va data).mem := by
  simp [performWrite]

/-! ### A write as an effect (R154, R281) -/

/-- Waking watches changes no byte. -/
@[simp] theorem State.wakeWatches_homes (s : State) (tdom va n : Nat) (s2 : Stage2) :
    (s.wakeWatches tdom va n s2).homes = s.homes := by
  unfold State.wakeWatches
  suffices h : ∀ (l : List (Nat × Nat × Nat × Word)) (t : State),
      (l.foldl (fun t w => (t.modWatch w.1 w.2.1 (fun x => { x with stage := 3, code := 0, val := w.2.2.2, moment := t.seq })).sendToCore
        w.1 (homeOf t.homes tdom w.2.2.1) w.2.2.1 (.wake w.1 w.2.1)) t).homes = t.homes from h _ _
  intro l
  induction l with
  | nil => intro t; rfl
  | cons w l ih => intro t; rw [List.foldl_cons, ih]; rfl

/-- Nor a strand. -/
@[simp] theorem State.wakeWatches_skeins (s : State) (tdom va n : Nat) (s2 : Stage2) :
    (s.wakeWatches tdom va n s2).skeins = s.skeins := by
  unfold State.wakeWatches
  suffices h : ∀ (l : List (Nat × Nat × Nat × Word)) (t : State),
      (l.foldl (fun t w => (t.modWatch w.1 w.2.1 (fun x => { x with stage := 3, code := 0, val := w.2.2.2, moment := t.seq })).sendToCore
        w.1 (homeOf t.homes tdom w.2.2.1) w.2.2.1 (.wake w.1 w.2.1)) t).skeins = t.skeins from h _ _
  intro l
  induction l with
  | nil => intro t; rfl
  | cons w l ih => intro t; rw [List.foldl_cons, ih]; rfl

theorem State.effectWrite_sound (s : State) (tdom core seq reached va : Nat) (a : Attr) (s2 : Stage2) (data : List Byte)
    (h : s.Sound) : (s.effectWrite tdom core seq reached va a s2 data).Sound := by
  unfold State.Sound State.effectWrite
  simp only [State.wakeWatches_homes, performWrite_mem]
  exact putBytes_wf _ _ _ _ _ _ _ _ _ h

@[simp] theorem State.effectWrite_skeins (s : State) (tdom core seq reached va : Nat) (a : Attr) (s2 : Stage2) (data : List Byte) :
    (s.effectWrite tdom core seq reached va a s2 data).skeins = s.skeins := by
  simp [State.effectWrite]

/-- A write inside one granule: its bytes, and no other, change. -/
theorem State.get_effectWrite (s : State) (tdom core seq reached va : Nat) (a : Attr) (s2 : Stage2) (data : List Byte) (p : Nat)
    (hg : va % 16384 + data.length ≤ 16384) :
    Cells.get 0 (s.effectWrite tdom core seq reached va a s2 data).homes.mem p =
      if physAddr s2.frame va ≤ p ∧ p < physAddr s2.frame va + data.length then data.getD (p - physAddr s2.frame va) 0
      else Cells.get 0 s.homes.mem p := by
  unfold State.effectWrite
  simp only [State.wakeWatches_homes, performWrite_mem]
  refine get_putBytes _ _ _ _ _ _ _ _ _ _ (fun j hj => ?_)
  unfold physAddr
  omega

theorem State.spent_sound (s : State) (va n : Nat) (h : s.Sound) : (s.spent va n).Sound := by
  unfold State.spent; split_ifs <;> exact h

theorem State.modWrite_sound {s t : State} {domain gen wr core seq va : Nat} {data : List Byte} (h : s.Sound)
    (ht : s.modWrite domain gen wr core seq va data = .ok t) : t.Sound := by
  unfold State.modWrite at ht
  split at ht
  · split at ht <;> cases ht
    exact State.spent_sound _ _ _ h
  · split at ht <;> cases ht
    exact State.effectWrite_sound _ _ _ _ _ _ _ _ _ h

theorem State.modWriteAll_sound (domain gen wr : Nat) (fuel : Nat) (s : State) (va : Nat) (data : List Byte) (h : s.Sound) :
    (s.modWriteAll domain gen wr va fuel data).1.Sound := by
  induction fuel generalizing s va data with
  | zero => exact h
  | succ n ih =>
    unfold State.modWriteAll
    simp only
    split_ifs
    · exact h
    · split
      · exact State.spent_sound _ _ _ h
      · next t ht => exact ih _ _ _ (State.modWrite_sound h ht)

/-! ### Accesses of the module's own units on the Loom (R347), fault records (R296) -/

/-- An access on the Loom changes nothing of the homes. -/
@[simp] theorem State.unitSent_homes (s : State) (station domain va n : Nat) :
    (s.unitSent station domain va n).homes = s.homes := by
  unfold State.unitSent
  simp only
  split_ifs
  · rfl
  · cases s.partOfDomain domain <;> rfl
  · rfl

@[simp] theorem State.spent_homes (s : State) (va n : Nat) : (s.spent va n).homes = s.homes := by
  unfold State.spent; split_ifs <;> rfl

@[simp] theorem State.fetched_homes (s : State) (station domain va n : Nat) :
    (s.fetched station domain va n).homes = s.homes := by
  simp [State.fetched]

/-- Opening or joining a fault record changes no byte of memory. -/
theorem State.openRecord_mem {s t : State} {a : FaultAsk} {id : Nat} (h : s.openRecord a = some (id, t)) :
    t.homes.mem = s.homes.mem := by
  unfold State.openRecord at h
  simp only at h
  split at h
  · cases h; rfl
  · split_ifs at h
    cases h; rfl

theorem State.unitNack_mem {s t : State} {ctx domain va code flags : Nat} (h : s.unitNack ctx domain va code flags = some t) :
    t.homes.mem = s.homes.mem := by
  unfold State.unitNack at h
  split_ifs at h
  · cases h; rfl
  · obtain ⟨r, hr, rfl⟩ := Option.map_eq_some_iff.mp h
    exact State.openRecord_mem hr

/-- The writes that the homes owe keep memory in canonical form. -/
theorem State.writeOwed_sound (s : State) (w : OwedWrite) (h : s.Sound) : (s.writeOwed w).Sound := by
  unfold State.writeOwed
  simp only
  split_ifs
  · exact h
  · split
    · next u hu => exact State.modWrite_sound h hu
    · next c _ =>
      cases hn : s.unitNack w.ctx w.domain w.va c 1 with
      | none => exact h
      | some u => exact (congrArg Memory.wf (State.unitNack_mem hn)).trans h

theorem State.settleOwed_sound (s : State) (h : s.Sound) : s.settleOwed.Sound := by
  unfold State.settleOwed
  split_ifs
  · exact h
  · generalize s.homes.owed = l
    have h0 : (s.modHomes (fun h => { h with owed := [] })).Sound := h
    generalize s.modHomes (fun h => { h with owed := [] }) = t at h0
    induction l generalizing t with
    | nil => exact h0
    | cons w l ih => exact ih _ (State.writeOwed_sound t w h0)

theorem State.owe_sound (s : State) (ctx part : Nat) (ps : List (Nat × List Byte)) (h : s.Sound) : (s.owe ctx part ps).Sound :=
  State.settleOwed_sound _ h

/-! ### Rings and records (R340, R346) -/

theorem State.ringWrite_sound {s t : State} {qn : Nat} {record : List Byte} (h : s.Sound)
    (ht : s.ringWrite qn record = some t) : t.Sound := by
  unfold State.ringWrite at ht
  simp only at ht
  split at ht
  · cases ht; exact h
  · split at ht
    · next u hu =>
      cases ht
      have hm := State.modWrite_sound (t := u) h hu
      simpa [State.Sound] using hm
    · obtain ⟨u, hu, rfl⟩ := Option.map_eq_some_iff.mp ht
      simpa [State.Sound, State.unitNack_mem hu] using h

theorem State.drainEvents_sound (n : Nat) (s : State) (qn : Nat) (h : s.Sound) : (s.drainEvents n qn).Sound := by
  induction n generalizing s with
  | zero => exact h
  | succ n ih =>
    unfold State.drainEvents
    split
    · exact h
    · split
      · exact h
      · split_ifs
        · split
          · exact h
          · next t ht => exact ih _ (State.ringWrite_sound (s := ({ s with queues := Tab.set s.queues qn _ } : State)) h ht)
        · exact h

theorem State.toEventQueue_sound (s : State) (qn : Nat) (record : List Byte) (h : s.Sound) :
    (s.toEventQueue qn record).Sound := by
  unfold State.toEventQueue
  split
  · exact h
  · simp only
    repeat' split
    all_goals first | exact h | exact State.drainEvents_sound _ _ _ h

/-- A record raised keeps memory in canonical form. -/
theorem State.raise_sound (s : State) (host : Bool) (code sev src : Nat) (part ctx : Option Nat) (dest : List Nat)
    (body : List Byte) (h : s.Sound) : (s.raise host code sev src part ctx dest body).Sound := by
  unfold State.raise
  simp only
  generalize hs : (if host = true then _ else s : State) = s1
  have h1 : s1.Sound := by subst hs; split_ifs <;> exact h
  clear hs
  induction dest generalizing s1 with
  | nil => exact h1
  | cons p l ih =>
    rw [List.foldl_cons]
    apply ih
    split
    · exact h1
    · exact State.toEventQueue_sound _ _ _ h1

end Sys2Proof.Machine
end

