-- ==== Sys2Proof/Laws/Strand.lean ====
section
/-! SUPPORT. Laws/Strand.lean: what a strand's registers read after a write (R45, R61 to R64). -/

namespace Sys2Proof.Machine

variable (t : Strand)

/-! ### Vector registers -/

/-- v63 reads zero, and a write to it is discarded. -/
@[simp] theorem Strand.rv_63 : t.rv 63 = 0 := rfl
@[simp] theorem Strand.wv_63 (x : Word) : t.wv 63 x = t := rfl
theorem Strand.wv_high {r : Nat} (h : 63 ≤ r) (x : Word) : t.wv r x = t := by simp [Strand.wv, show ¬ r < 63 by omega]
theorem Strand.rv_high {r : Nat} (h : 63 ≤ r) : t.rv r = 0 := by simp [Strand.rv, show ¬ r < 63 by omega]

theorem Strand.rv_wv (r q : Nat) (x : Word) : (t.wv r x).rv q = if q = r ∧ r < 63 then x else t.rv q := by
  unfold Strand.wv Strand.rv
  by_cases hr : r < 63
  · simp only [hr, if_true, Cells.get_set, and_true]
    by_cases hq : q = r
    · subst hq; simp [hr]
    · simp [hq]
  · simp [hr]

@[simp] theorem Strand.rpr_wv (r p : Nat) (x : Word) : (t.wv r x).rpr p = t.rpr p := by
  unfold Strand.wv; split_ifs <;> rfl
@[simp] theorem Strand.rn_wv (r n : Nat) (x : Word) : (t.wv r x).rn n = t.rn n := by
  unfold Strand.wv; split_ifs <;> rfl

/-- What a write of a vector register leaves: every field but the vector registers. -/
theorem Strand.wv_eq (r : Nat) (x : Word) : t.wv r x = { t with v := (t.wv r x).v, bad := (t.wv r x).bad } := by
  unfold Strand.wv; split_ifs <;> rfl

/-- Where the file can correct every word, a write leaves no other mark. -/
@[simp] theorem Strand.bad_wv (h : t.bad = []) (r : Nat) (x : Word) : (t.wv r x).bad = [] := by
  unfold Strand.wv; split_ifs <;> simp [h, Cells.set]

/-! ### Pairs -/

theorem lo32_pair (a b : Word) : lo32 (pair a b) = a := by
  ext i hi
  have h := BitVec.getLsbD_append (x := b) (y := a) (i := i)
  simp only [lo32, pair, BitVec.getElem_setWidth]
  exact h.trans (by simp [hi, BitVec.getLsbD_eq_getElem])

theorem hi32_pair (a b : Word) : hi32 (pair a b) = b := by
  ext i hi
  have h := BitVec.getLsbD_append (x := b) (y := a) (i := 32 + i)
  simp only [hi32, pair, BitVec.getElem_setWidth, BitVec.getLsbD_ushiftRight]
  exact h.trans (by simp [hi, BitVec.getLsbD_eq_getElem])

/-- A pair reads what was written, where both its registers exist. -/
theorem Strand.rv_wp (r q : Nat) (x : Dword) : (t.wp r x).rv q =
    if q = r + 1 ∧ r + 1 < 63 then hi32 x else if q = r ∧ r < 63 then lo32 x else t.rv q := by
  unfold Strand.wp
  rw [Strand.rv_wv, Strand.rv_wv]

theorem Strand.wp_eq (r : Nat) (x : Dword) : t.wp r x = { t with v := (t.wp r x).v, bad := (t.wp r x).bad } := by
  unfold Strand.wp
  rw [Strand.wv_eq _ (r + 1), Strand.wv_eq t r]

@[simp] theorem Strand.bad_wp (h : t.bad = []) (r : Nat) (x : Dword) : (t.wp r x).bad = [] :=
  Strand.bad_wv _ (Strand.bad_wv _ h _ _) _ _

/-! ### Predicates and index registers -/

@[simp] theorem Strand.rpr_7 : t.rpr 7 = true := rfl
@[simp] theorem Strand.wpr_7 (x : Bool) : t.wpr 7 x = t := rfl

theorem Strand.rpr_wpr (p q : Nat) (x : Bool) : (t.wpr p x).rpr q = if q = p ∧ p < 7 then x else t.rpr q := by
  unfold Strand.wpr Strand.rpr
  by_cases hp : p < 7
  · simp only [hp, if_true, Cells.get_set, and_true]
    by_cases hq : q = p
    · subst hq; simp [hp]
    · simp [hq]
  · simp [hp]

@[simp] theorem Strand.rv_wpr (p r : Nat) (x : Bool) : (t.wpr p x).rv r = t.rv r := by
  unfold Strand.wpr; split_ifs <;> rfl

theorem Strand.rn_wn (n m : Nat) (x : BitVec 20) : (t.wn n x).rn m = if m = n then x else t.rn m :=
  Cells.get_set _ _ _ _ _

@[simp] theorem Strand.rv_wn (n r : Nat) (x : BitVec 20) : (t.wn n x).rv r = t.rv r := rfl
@[simp] theorem Strand.rpr_wn (n p : Nat) (x : BitVec 20) : (t.wn n x).rpr p = t.rpr p := rfl

/-! ### Advancing and entering a handler -/

@[simp] theorem Strand.rv_advance (r : Nat) : t.advance.rv r = t.rv r := rfl
@[simp] theorem Strand.rpr_advance (p : Nat) : t.advance.rpr p = t.rpr p := rfl
@[simp] theorem Strand.rn_advance (n : Nat) : t.advance.rn n = t.rn n := rfl
@[simp] theorem Strand.status_advance : t.advance.status = t.status := rfl
@[simp] theorem Strand.pc_advance : t.advance.pc = nextPc t.pc := rfl

/-- Entry changes no register of the program (R148). -/
@[simp] theorem Strand.rv_enter (c : Nat) (x p : Word) (r : Nat) : (t.enter c x p).rv r = t.rv r := rfl
@[simp] theorem Strand.rpr_enter (c : Nat) (x p : Word) (q : Nat) : (t.enter c x p).rpr q = t.rpr q := rfl
@[simp] theorem Strand.pc_enter (c : Nat) (x p : Word) : (t.enter c x p).pc = t.trapvec := rfl
@[simp] theorem Strand.tpc_enter (c : Nat) (x p : Word) : (t.enter c x p).tpc = p := rfl
@[simp] theorem Strand.active_enter (c : Nat) (x p : Word) : (t.enter c x p).active = true := rfl

end Sys2Proof.Machine
end

