-- ==== Sys2Proof/Laws/Traps.lean ====
section
/-! SUPPORT. Laws/Traps.lean: what taking a trap leaves where it enters, and when it faults or is held (R148, R150). -/

namespace Sys2Proof.Machine

/-- A strand that can take a trap: it has a handler that R40 accepts, and is in none. -/
def Strand.canEnter (kern : Kernel) (x : Strand) : Bool :=
  !x.active && x.trapvec != 0xFFFFFFFF && pcOk kern x.trapvec.toNat

/-- Changes of strands, one after another: each strand takes the change that names it. -/
theorem State.strand?_foldl_modStrand {β : Type} (k : Nat) (g : β → Nat) (f : β → Strand → Strand) (l : List β)
    (hn : (l.map g).Nodup) (s : State) (a j : Nat) :
    (l.foldl (fun t r => t.modStrand k (g r) (f r)) s).strand? a j =
      match (if a = k then l.find? (fun r => g r == j) else none) with
      | some r => (s.strand? a j).map (f r)
      | none => s.strand? a j := by
  induction l generalizing s with
  | nil => simp
  | cons r l ih =>
    rw [List.map_cons, List.nodup_cons] at hn
    rw [List.foldl_cons, ih hn.2]
    by_cases ha : a = k
    · simp only [ha, if_true]
      by_cases hj : g r = j
      · have hl : l.find? (fun r => g r == j) = none := by
          rw [List.find?_eq_none]
          intro x hx hxa
          exact hn.1 (List.mem_map.2 ⟨x, hx, by rw [hj]; simpa using hxa⟩)
        rw [List.find?_cons_of_pos (by simpa using hj), hl]
        simp [State.strand?_modStrand, hj]
      · rw [List.find?_cons_of_neg (by simpa using hj)]
        cases l.find? (fun r => g r == j) <;>
          simp [State.strand?_modStrand, show ¬ j = g r from fun h => hj h.symm]
    · simp [ha, State.strand?_modStrand]

/-- A fold of strand changes touches the skeins alone. -/
theorem State.foldl_modStrand_eq {β : Type} (k : Nat) (g : β → Nat) (f : β → Strand → Strand) (l : List β) (s : State) :
    l.foldl (fun t r => t.modStrand k (g r) (f r)) s =
      { s with skeins := (l.foldl (fun t r => t.modStrand k (g r) (f r)) s).skeins } := by
  induction l generalizing s with
  | nil => rfl
  | cons r l ih => rw [List.foldl_cons, ih]; rfl

theorem State.strand?_modWeft (s : State) (k w a j : Nat) (f : Weft → Weft) :
    (s.modWeft k w f).strand? a j = s.strand? a j := by
  unfold State.modWeft
  rw [State.strand?_modSkein]
  split_ifs with h
  · subst h; rfl
  · rfl

/-- Strands that can enter, in a weft of which none is in a handler: each enters with its own cause and value, TMASK names
them, and nothing but strands and the weft changes (R148). -/
theorem State.takeTraps_enter {s : State} {sk : Skein} {k w : Nat} {pc : Word} {ts : List TrapReq}
    (hk : s.skein? k = some sk) (hw : sk.someActive w = false)
    (hc : ∀ r ∈ ts, ∀ x, Tab.get sk.strands r.strand = some x → x.canEnter sk.kern = true) :
    s.takeTraps k w pc ts = ts.foldl (fun t r => t.modStrand k r.strand (fun x => x.enter r.cause r.val pc))
      (s.modWeft k w (fun x => { x with tmask := laneMask w (ts.map TrapReq.strand) })) := by
  unfold State.takeTraps
  simp only [hk]
  split
  · next r hr =>
    have hp := List.find?_some hr
    cases hx : Tab.get sk.strands r.strand with
    | none => simp [hx] at hp
    | some x =>
      have := hc r (List.mem_of_find?_eq_some hr) x hx
      simp only [hx, Bool.or_eq_true, beq_iff_eq] at hp
      simp only [Strand.canEnter, Bool.and_eq_true, Bool.not_eq_true', bne_iff_ne, ne_eq] at this
      rcases hp with hp | hp
      · simp [hp] at this
      · exact absurd hp this.1.2
  · simp only [hw, Bool.false_eq_true, if_false]
    split
    · next r hr =>
      obtain ⟨q, hq, hp⟩ := List.exists_of_findSome?_eq_some hr
      cases hx : Tab.get sk.strands q.strand with
      | none => simp [hx] at hp
      | some x =>
        have := hc q hq x hx
        simp only [Strand.canEnter, Bool.and_eq_true] at this
        simp [hx, this.2] at hp
    · rfl

/-- The strands after such an entry. -/
theorem State.strand?_takeTraps_enter {s : State} {sk : Skein} {k w : Nat} {pc : Word} {ts : List TrapReq}
    (hk : s.skein? k = some sk) (hw : sk.someActive w = false) (hn : (ts.map TrapReq.strand).Nodup)
    (hc : ∀ r ∈ ts, ∀ x, Tab.get sk.strands r.strand = some x → x.canEnter sk.kern = true) (a j : Nat) :
    (s.takeTraps k w pc ts).strand? a j =
      match (if a = k then ts.find? (fun r => r.strand == j) else none) with
      | some r => (s.strand? a j).map (fun x => x.enter r.cause r.val pc)
      | none => s.strand? a j := by
  rw [State.takeTraps_enter hk hw hc,
    State.strand?_foldl_modStrand k TrapReq.strand (fun r x => x.enter r.cause r.val pc) ts hn]
  simp only [State.strand?_modWeft]
  cases (if a = k then ts.find? (fun r => r.strand == j) else none) <;> rfl

/-- Where a strand of the weft is in a handler, and those that trap have handlers, they are held (R150). -/
theorem State.takeTraps_held {s : State} {sk : Skein} {k w : Nat} {pc : Word} {ts : List TrapReq}
    (hk : s.skein? k = some sk) (hw : sk.someActive w = true)
    (hc : ∀ r ∈ ts, ∀ x, Tab.get sk.strands r.strand = some x → x.active = false ∧ x.trapvec ≠ 0xFFFFFFFF) :
    s.takeTraps k w pc ts = ts.foldl (fun t r => t.modStrand k r.strand (fun x =>
      { x with status := .traphold r.cause r.val pc s.seq, pc := pc, hold := none })) { s with seq := s.seq + 1 } := by
  unfold State.takeTraps
  simp only [hk]
  split
  · next r hr =>
    have hp := List.find?_some hr
    cases hx : Tab.get sk.strands r.strand with
    | none => simp [hx] at hp
    | some x =>
      have := hc r (List.mem_of_find?_eq_some hr) x hx
      simp only [hx, Bool.or_eq_true, beq_iff_eq] at hp
      rcases hp with hp | hp
      · simp [hp] at this
      · exact absurd hp this.2
  · simp only [hw, if_true]

/-- A word whose encoding traps: the whole issue set takes the trap, with the word as its value (R51 to R54). -/
theorem State.word_traps {s : State} {sk : Skein} {i : Instr} {c : Nat} (hk : s.skein? s.cur.skein = some sk)
    (ht : wordTrap sk.kern (s.privOf sk) i = some c) (body : Skein → State → Attempt) :
    s.word i body = .next (s.takeTraps s.cur.skein s.cur.weft s.cur.pc
      (s.cur.strands.map (fun j => { strand := j, cause := c, val := s.cur.word }))) := by
  unfold State.word
  simp only [hk, ht]

/-! ### Floating words (R34) -/

/-- A floating word whose flags trap in no strand: the destination is written, and with Q = 0 the flags are ORed. -/
theorem fpDone_ok (q : BitVec 1) (tval : Nat) (fl : FpFlags) (w t : Strand) (h : q = 0 → t.fpTraps fl = false)
    (hw : w.fpflags = t.fpflags) (j : Nat) :
    (fpDone (q == 1) tval fl w t).trap? j = none ∧ (fpDone (q == 1) tval fl w t).strand = (t.withFlags q w fl).advance := by
  unfold fpDone Strand.withFlags
  by_cases hq : q = 1
  · simp [hq, LaneOut.trap?, LaneOut.strand]
  · have hq0 : q = 0 := (by decide : ∀ q : BitVec 1, q ≠ 1 → q = 0) q hq
    by_cases hf : fl = 0
    · subst hf hq0
      simp only [or_true, if_true, LaneOut.trap?, LaneOut.strand, true_and]
      rw [if_neg (by decide)]
      congr 1
      cases w
      simp_all
    · subst hq0
      have h' := h rfl
      rw [if_neg (not_or.2 ⟨by decide, hf⟩), if_neg (by simp [h'])]
      simp [LaneOut.trap?, LaneOut.strand]

end Sys2Proof.Machine
end

