-- ==== Sys2Proof/Tests/Slice0.lean ====
section
/-! SUPPORT. Tests/Slice0.lean: words written out from the spec's encoding tables, ill-formed terms refused, a state that
meets the hypotheses of each statement, and single steps checked against the spec's own examples. -/

set_option maxRecDepth 100000
set_option Elab.async false

namespace Sys2Proof.Tests

open Sys2Proof Sys2Proof.Machine

/-! ### Words: the examples of the spec's files -/

/-- The worked encoding after R54, and the branch below it. -/
theorem test_decode_packet : decodeWord 0x83C10BF0 = .ok (.add 1 7 1 2 63) ∧ decodeWord 0x21C824A2 = .ok (.fmul 0 7 8 9 10 0) ∧
    decodeWord 0x508C10A0 = .ok (.ldg 0 2 12 4 2 4 0 0) ∧ decodeWord 0x407FFFFD = .ok (.br 1 0x3FFFFD) := by decide
/-- R93 to R110. -/
theorem test_decode_lanes : decodeWord 0x11C10803 = .ok (.shli 0 7 1 2 3) ∧ decodeWord 0x13C4FFFF = .ok (.movi 0 7 4 0xFFFF) ∧
    decodeWord 0x19C90836 = .ok (.icmp 0 7 1 1 2 3 6) ∧ decodeWord 0x23CA0830 = .ok (.fma 0 7 10 2 3 0) ∧
    decodeWord 0x2BC10AB0 = .ok (.pk4 0 7 1 2 5 1) ∧ decodeWord 0x2DC607E1 = .ok (.rdx 0 7 6 1 62) ∧
    decodeWord 0x2DC60432 = .ok (.wrx 0 7 6 1 3) ∧ decodeWord 0x2FC02400 = .ok (.nset 0 7 0 9) := by decide
/-- The tables after R120, R128 and R133. -/
theorem test_decode_weft : decodeWord 0x37C000A0 = .ok (.setw 0 2 4 0) ∧ decodeWord 0x37C00019 = .ok (.setw 0 0 3 1) ∧
    decodeWord 0x37C00200 = .ok (.slice 0) ∧ decodeWord 0x37C00201 = .ok (.wsync 0 7) ∧
    decodeWord 0x31C10839 = .ok (.shflx 0 7 1 2 3 1) ∧ decodeWord 0x31CA100D = .ok (.vote 0 7 1 2 4 1) ∧
    decodeWord 0x35C10808 = .ok (.redfFaddt 0 7 1 2 1) := by decide
theorem test_decode_control : decodeWord 0x43C00005 = .ok (.call 7 5) ∧ decodeWord 0x49C00000 = .ok (.ret 7) ∧
    decodeWord 0x49C00001 = .ok (.exit 7) ∧ decodeWord 0x49C01802 = .ok (.brx 7 6) ∧ decodeWord 0x49C01803 = .ok (.callx 7 6) ∧
    decodeWord 0x49C00004 = .ok (.tret 7) ∧ decodeWord 0x49C00005 = .ok (.tretr 7) ∧ decodeWord 0x49C00006 = .ok (.yield 7) ∧
    decodeWord 0x49C00007 = .ok (.breakp 7) ∧ decodeWord 0x49C50008 = .ok (.trap 7 5) ∧
    decodeWord 0x49C00C09 = .ok (.waitt 7 3) ∧ decodeWord 0x47C00000 = .ok (.join 7) := by decide
/-- The tables after R81, R190, R211, R217 and R234. -/
theorem test_decode_memory : decodeWord 0x79C10003 = .ok (.mfs 0 7 1 3) ∧ decodeWord 0x7BC01411 = .ok (.mts 0 7 5 0x011) ∧
    decodeWord 0x51C21020 = .ok (.ldg 0 7 2 4 0 4 0 0) ∧ decodeWord 0x53C910D1 = .ok (.stg 0 7 9 4 3 2 0 1) ∧
    decodeWord 0x55C32124 = .ok (.lds 0 7 3 8 4 4 1 0) ∧ decodeWord 0x59C1102A = .ok (.atgFadd 0 7 1 4 2) ∧
    decodeWord 0x5BC61087 = .ok (.atg64Cas 0 7 6 4 8) ∧ decodeWord 0x5DC12020 = .ok (.atsAdd 0 7 1 8 2) ∧
    decodeWord 0x5FC00102 = .ok (.fenceAcq 0 7 2) ∧ decodeWord 0x61C810B0 = .ok (.ldga 0 7 8 4 2 6 0) ∧
    decodeWord 0x63C01021 = .ok (.prefL2 0 7 4 0 4) := by decide
theorem test_decode_units : decodeWord 0x7DC10000 = .ok (.spstat 0 7 1) ∧ decodeWord 0x7DC01402 = .ok (.spretire 0 7 5) ∧
    decodeWord 0x65C04003 = .ok (.cpyG2s 0 7 16 3) ∧ decodeWord 0x65C02185 = .ok (.cpyG2g 0 7 8 5) ∧
    decodeWord 0x65C06201 = .ok (.cpyS2sm 0 7 24 1) ∧ decodeWord 0x67C10203 = .ok (.cwaitQuery 0 7 1 3) ∧
    decodeWord 0x6BC01074 = .ok (.mst 0 7 4 7) ∧ decodeWord 0x69C14000 = .ok (.shopen 0 7 1 16) ∧
    decodeWord 0x69C20403 = .ok (.shstat 0 7 2 1) := by decide
/-- The table after R258. -/
theorem test_decode_engine : decodeWord 0x71C08240 = .ok (.mma 0 0 8 9 0 0) ∧ decodeWord 0x71CC8253 = .ok (.mma 0 3 8 9 2 3) ∧
    decodeWord 0x73C4A2E4 = .ok (.mmat 0 1 10 11 4 4) ∧ decodeWord 0x75C8C36D = .ok (.mmas 0 2 12 13 5 5) ∧
    decodeWord 0x77C30000 = .ok (.mzero 0 3) ∧ decodeWord 0x77C35080 = .ok (.mload 0 3 20) ∧
    decodeWord 0x77C35110 = .ok (.mdrain 0 3 20 1) ∧ decodeWord 0x77C30180 = .ok (.mchk 0 3) := by decide

/-! ### Words: one of each row, its fields put together as the opcode table places them -/

theorem test_words_1 :
  ∀ e ∈ ([ (0x838C20A0, .add 1 6 12 8 10), (0x838C20A1, .sub 1 6 12 8 10), (0x838C20A2, .mul 1 6 12 8 10),
    (0x838C20A3, .mulh 1 6 12 8 10), (0x838C20A4, .mulhu 1 6 12 8 10), (0x838C20A5, .and 1 6 12 8 10),
    (0x838C20A6, .or 1 6 12 8 10), (0x838C20A7, .xor 1 6 12 8 10), (0x838C20A8, .andn 1 6 12 8 10),
    (0x838C20A9, .shl 1 6 12 8 10), (0x838C20AA, .shr 1 6 12 8 10), (0x838C20AB, .sar 1 6 12 8 10),
    (0x838C20AC, .min 1 6 12 8 10), (0x838C20AD, .max 1 6 12 8 10), (0x838C20AE, .minu 1 6 12 8 10),
    (0x838C20AF, .maxu 1 6 12 8 10), (0x858C20A0, .addsat 1 6 12 8 10), (0x858C20A1, .subsat 1 6 12 8 10),
    (0x858C20A2, .addsatu 1 6 12 8 10), (0x858C20A3, .subsatu 1 6 12 8 10) ] : List (Word × Instr)),
    decodeWord e.1 = .ok e.2 ∧ encode e.2 = some e.1 := by decide
theorem test_words_2 :
  ∀ e ∈ ([ (0x858C20A4, .div 1 6 12 8 10), (0x858C20A5, .divu 1 6 12 8 10), (0x858C20A6, .rem 1 6 12 8 10),
    (0x858C20A7, .remu 1 6 12 8 10), (0x858C2008, .popc 1 6 12 8), (0x858C2009, .clz 1 6 12 8),
    (0x858C200A, .ctz 1 6 12 8), (0x858C200B, .brev 1 6 12 8), (0x858C200C, .abs 1 6 12 8),
    (0x858C200D, .neg 1 6 12 8), (0x858C20AE, .absdiff 1 6 12 8 10), (0x878C20A0, .add64 1 6 12 8 10),
    (0x878C20A1, .sub64 1 6 12 8 10), (0x878C20A2, .shl64 1 6 12 8 10), (0x878C20A3, .shr64 1 6 12 8 10),
    (0x878C20A4, .sar64 1 6 12 8 10), (0x878C20A5, .mulw 1 6 12 8 10), (0x878C20A6, .mulwu 1 6 12 8 10),
    (0x878C20A7, .and64 1 6 12 8 10), (0x878C20A8, .or64 1 6 12 8 10) ] : List (Word × Instr)),
    decodeWord e.1 = .ok e.2 ∧ encode e.2 = some e.1 := by decide
theorem test_words_3 :
  ∀ e ∈ ([ (0x878C20A9, .xor64 1 6 12 8 10), (0x878C20AA, .addw 1 6 12 8 10), (0x878C20AB, .addws 1 6 12 8 10),
    (0x878C20AC, .lea2 1 6 12 8 10), (0x878C20AD, .lea4 1 6 12 8 10), (0x878C20AE, .lea8 1 6 12 8 10),
    (0x878C20AF, .lea16 1 6 12 8 10), (0x898C22A5, .addi 1 6 12 8 0x2A5), (0x8B8C22A5, .andi 1 6 12 8 0x2A5),
    (0x8D8C22A5, .ori 1 6 12 8 0x2A5), (0x8F8C22A5, .xori 1 6 12 8 0x2A5), (0x918C2013, .shli 1 6 12 8 19),
    (0x918C2113, .shri 1 6 12 8 19), (0x918C2213, .sari 1 6 12 8 19), (0x918C2313, .roli 1 6 12 8 19),
    (0x938CA5C3, .movi 1 6 12 0xA5C3), (0x958CA5C3, .movhi 1 6 12 0xA5C3), (0x978C22A5, .add64i 1 6 12 8 0x2A5),
    (0x99B220A5, .icmp 1 6 6 2 8 10 5), (0x9BB220AB, .fcmp 1 6 6 2 8 10 1 3) ] : List (Word × Instr)),
    decodeWord e.1 = .ok e.2 ∧ encode e.2 = some e.1 := by decide
theorem test_words_4 :
  ∀ e ∈ ([ (0x9CCC20A0, .sel 1 3 12 8 10), (0x9F831420, .pand 1 6 3 5 2), (0x9F831421, .por 1 6 3 5 2),
    (0x9F831422, .pxor 1 6 3 5 2), (0x9F831423, .pandn 1 6 3 5 2), (0x9F831404, .pnot 1 6 3 5),
    (0x9F831405, .pmov 1 6 3 5), (0x9F8C1406, .ptov 1 6 12 5), (0x9F832007, .vtop 1 6 3 8),
    (0xA18C20A8, .fadd 1 6 12 8 10 1), (0xA18C20A9, .fsub 1 6 12 8 10 1), (0xA18C20AA, .fmul 1 6 12 8 10 1),
    (0xA18C20AB, .fdiv 1 6 12 8 10 1), (0xA18C20AC, .fmin 1 6 12 8 10 1), (0xA18C20AD, .fmax 1 6 12 8 10 1),
    (0xA18C20AE, .fcopysign 1 6 12 8 10 1), (0xA18C20AF, .fscale 1 6 12 8 10 1), (0xA38C20A8, .fma 1 6 12 8 10 1),
    (0xA38C20A9, .fms 1 6 12 8 10 1), (0xA38C20AA, .fnma 1 6 12 8 10 1) ] : List (Word × Instr)),
    decodeWord e.1 = .ok e.2 ∧ encode e.2 = some e.1 := by decide
theorem test_words_5 :
  ∀ e ∈ ([ (0xA38C20AB, .fnms 1 6 12 8 10 1), (0xA58C2008, .rcp 1 6 12 8 1), (0xA58C2009, .rsq 1 6 12 8 1),
    (0xA58C200A, .sqrt 1 6 12 8 1), (0xA58C200B, .exp2 1 6 12 8 1), (0xA58C200C, .log2 1 6 12 8 1),
    (0xA58C200D, .sinpi 1 6 12 8 1), (0xA58C200E, .cospi 1 6 12 8 1), (0xA58C200F, .tanh 1 6 12 8 1),
    (0xA78C20AC, .hadd 1 6 12 8 10 1 1), (0xA78C20AD, .hsub 1 6 12 8 10 1 1), (0xA78C20AE, .hmul 1 6 12 8 10 1 1),
    (0xA78C20AF, .hfma 1 6 12 8 10 1 1), (0xA98C2000, .ftoi 1 6 12 8), (0xA98C2001, .ftoiz 1 6 12 8),
    (0xA98C2002, .ftou 1 6 12 8), (0xA98C2003, .itof 1 6 12 8), (0xA98C2004, .utof 1 6 12 8),
    (0xA98C20A5, .pkh 1 6 12 8 10), (0xA98C20A6, .pkb 1 6 12 8 10) ] : List (Word × Instr)),
    decodeWord e.1 = .ok e.2 ∧ encode e.2 = some e.1 := by decide
theorem test_words_6 :
  ∀ e ∈ ([ (0xA98C2007, .xthl 1 6 12 8), (0xA98C2008, .xthh 1 6 12 8), (0xA98C2009, .xtbl 1 6 12 8),
    (0xA98C200A, .xtbh 1 6 12 8), (0xA98C200B, .frnd 1 6 12 8), (0xA98C200C, .frndz 1 6 12 8),
    (0xAB8C20B0, .pk8 1 6 12 8 2 1 1), (0xAB8C21A0, .xt8 1 6 12 8 2 1), (0xAB8C2250, .pk4 1 6 12 8 2 1),
    (0xAB8C2340, .xt4 1 6 12 8 2), (0xAD8C2000, .mov 1 6 12 8), (0xAD8C0651, .rdx 1 6 12 1 37),
    (0xAD8C0652, .wrx 1 6 12 1 37), (0xAF812000, .nset 1 6 1 8), (0xAF8C0401, .nget 1 6 12 1),
    (0xAF812002, .nadv 1 6 1 8), (0xAF810003, .nclr 1 6 1), (0xB18C20A8, .shfl 1 6 12 8 10 1),
    (0xB18C20A9, .shflx 1 6 12 8 10 1), (0xB18C20AA, .shflu 1 6 12 8 10 1) ] : List (Word × Instr)),
    decodeWord e.1 = .ok e.2 ∧ encode e.2 = some e.1 := by decide
theorem test_words_7 :
  ∀ e ∈ ([ (0xB18C20AB, .shfld 1 6 12 8 10 1), (0xB18C20AC, .bcast 1 6 12 8 10 1), (0xB1B2140D, .vote 1 6 6 2 5 1),
    (0xB18C140E, .count 1 6 12 5 1), (0xB18C140F, .rank 1 6 12 5 1), (0xB38C2008, .rediIadd 1 6 12 8 1),
    (0xB38C2009, .rediImin 1 6 12 8 1), (0xB38C200A, .rediImax 1 6 12 8 1), (0xB38C200B, .rediUmin 1 6 12 8 1),
    (0xB38C200C, .rediUmax 1 6 12 8 1), (0xB38C200D, .rediAnd 1 6 12 8 1), (0xB38C200E, .rediOr 1 6 12 8 1),
    (0xB38C200F, .rediXor 1 6 12 8 1), (0xB58C2008, .redfFaddt 1 6 12 8 1), (0xB58C2009, .redfFadds 1 6 12 8 1),
    (0xB58C200A, .redfFmin 1 6 12 8 1), (0xB58C200B, .redfFmax 1 6 12 8 1), (0xB58C200C, .redfScani 1 6 12 8 1),
    (0xB58C200D, .redfScanf 1 6 12 8 1), (0xB58C200E, .redfScanx 1 6 12 8 1) ] : List (Word × Instr)),
    decodeWord e.1 = .ok e.2 ∧ encode e.2 = some e.1 := by decide
theorem test_words_8 :
  ∀ e ∈ ([ (0xB7C00061, .setw 1 1 4 1), (0xB7C00200, .slice 1), (0xB7800201, .wsync 1 6),
    (0x41AA5A5A, .br 6 0x2A5A5A), (0x43AA5A5A, .call 6 0x2A5A5A), (0x45AA5A5A, .split 6 0x2A5A5A),
    (0x47800000, .join 6), (0x49800000, .ret 6), (0x49800001, .exit 6), (0x49802002, .brx 6 8),
    (0x49802003, .callx 6 8), (0x49800004, .tret 6), (0x49800005, .tretr 6), (0x49800006, .yield 6),
    (0x49800007, .breakp 6), (0x49A90008, .trap 6 41), (0x49802009, .waitt 6 8), (0xCB8C20A5, .watch 1 6 12 8 10 5),
    (0xCDC000D6, .barSync 1 1 2 1 6), (0xCDC001D6, .barArrive 1 1 2 1 6) ] : List (Word × Instr)),
    decodeWord e.1 = .ok e.2 ∧ encode e.2 = some e.1 := by decide
theorem test_words_9 :
  ∀ e ∈ ([ (0xCDC002D6, .barWait 1 1 2 1 6), (0xCF800000, .trigger 1 6), (0xCF8C2001, .launch 1 6 12 8),
    (0xCF8C2002, .launchb 1 6 12 8), (0xD18C2276, .ldg 1 6 12 8 9 6 1 2), (0xD38C2276, .stg 1 6 12 8 9 6 1 2),
    (0xD58C2276, .lds 1 6 12 8 9 6 1 2), (0xD78C2276, .sts 1 6 12 8 9 6 1 2), (0xD98C20A0, .atgAdd 1 6 12 8 10),
    (0xD98C20A1, .atgMin 1 6 12 8 10), (0xD98C20A2, .atgMax 1 6 12 8 10), (0xD98C20A3, .atgMinu 1 6 12 8 10),
    (0xD98C20A4, .atgMaxu 1 6 12 8 10), (0xD98C20A5, .atgAnd 1 6 12 8 10), (0xD98C20A6, .atgOr 1 6 12 8 10),
    (0xD98C20A7, .atgXor 1 6 12 8 10), (0xD98C20A8, .atgXchg 1 6 12 8 10), (0xD98C20A9, .atgCas 1 6 12 8 10),
    (0xD98C20AA, .atgFadd 1 6 12 8 10), (0xD98C20AB, .atgFmin 1 6 12 8 10) ] : List (Word × Instr)),
    decodeWord e.1 = .ok e.2 ∧ encode e.2 = some e.1 := by decide
theorem test_words_10 :
  ∀ e ∈ ([ (0xD98C20AC, .atgFmax 1 6 12 8 10), (0xD98C20AD, .atgHadd2 1 6 12 8 10),
    (0xD98C20AE, .atgIncw 1 6 12 8 10), (0xDB8C20A0, .atg64Add 1 6 12 8 10), (0xDB8C20A1, .atg64Minu 1 6 12 8 10),
    (0xDB8C20A2, .atg64Maxu 1 6 12 8 10), (0xDB8C20A3, .atg64And 1 6 12 8 10), (0xDB8C20A4, .atg64Or 1 6 12 8 10),
    (0xDB8C20A5, .atg64Xor 1 6 12 8 10), (0xDB8C20A6, .atg64Xchg 1 6 12 8 10), (0xDB8C20A7, .atg64Cas 1 6 12 8 10),
    (0xDD8C20A0, .atsAdd 1 6 12 8 10), (0xDD8C20A1, .atsMin 1 6 12 8 10), (0xDD8C20A2, .atsMax 1 6 12 8 10),
    (0xDD8C20A3, .atsMinu 1 6 12 8 10), (0xDD8C20A4, .atsMaxu 1 6 12 8 10), (0xDD8C20A5, .atsAnd 1 6 12 8 10),
    (0xDD8C20A6, .atsOr 1 6 12 8 10), (0xDD8C20A7, .atsXor 1 6 12 8 10), (0xDD8C20A8, .atsXchg 1 6 12 8 10) ] : List (Word × Instr)),
    decodeWord e.1 = .ok e.2 ∧ encode e.2 = some e.1 := by decide
theorem test_words_11 :
  ∀ e ∈ ([ (0xDD8C20A9, .atsCas 1 6 12 8 10), (0xDD8C20AA, .atsFadd 1 6 12 8 10), (0xDD8C20AB, .atsFmin 1 6 12 8 10),
    (0xDD8C20AC, .atsFmax 1 6 12 8 10), (0xDF800003, .fenceRel 1 6 3), (0xDF800103, .fenceAcq 1 6 3),
    (0xDF800203, .fencePhase 1 6 3), (0xDF800300, .fenceDrain 1 6), (0xE18C2272, .ldga 1 6 12 8 9 6 2),
    (0xE3802270, .prefL1 1 6 8 9 6), (0xE3802271, .prefL2 1 6 8 9 6), (0xE580205D, .cpyG2s 1 6 8 93),
    (0xE58020DD, .cpyS2g 1 6 8 93), (0xE580215D, .cpyS2s 1 6 8 93), (0xE58021DD, .cpyG2g 1 6 8 93),
    (0xE580225D, .cpyS2sm 1 6 8 93), (0xE780005D, .cwait 1 6 93), (0xE7800100, .cwaitAll 1 6),
    (0xE78C025D, .cwaitQuery 1 6 12 93), (0xE98C2000, .shopen 1 6 12 8) ] : List (Word × Instr)),
    decodeWord e.1 = .ok e.2 ∧ encode e.2 = some e.1 := by decide
theorem test_words_12 :
  ∀ e ∈ ([ (0xE9802001, .shpub 1 6 8), (0xE9802002, .shabort 1 6 8), (0xE98C2003, .shstat 1 6 12 8),
    (0xEB8020A0, .raddF32 1 6 8 10), (0xEB8020A1, .raddBf16x2 1 6 8 10), (0xEB8020A2, .raddI32 1 6 8 10),
    (0xEB8020A3, .rmaxF32 1 6 8 10), (0xEB8020A4, .mst 1 6 8 10), (0xF1EC8293, .mma 1 11 8 10 2 3),
    (0xF3EC8293, .mmat 1 11 8 10 2 3), (0xF5EC8293, .mmas 1 11 8 10 2 3), (0xF7CB0000, .mzero 1 11),
    (0xF7CB2080, .mload 1 11 8), (0xF7CB2130, .mdrain 1 11 8 3), (0xF7CB0180, .mchk 1 11),
    (0xF98C01A5, .mfs 1 6 12 0x1A5), (0xFB8021A5, .mts 1 6 8 0x1A5), (0xFD8C0000, .spstat 1 6 12),
    (0xFD800001, .spscrub 1 6), (0xFD802002, .spretire 1 6 8) ] : List (Word × Instr)),
    decodeWord e.1 = .ok e.2 ∧ encode e.2 = some e.1 := by decide

/-! ### Ill-formed terms -/

/-- R45, R46, R49, R50: an operand that the field holds and the rule refuses; no word decodes to one. -/
theorem test_illFormed_words : ∀ i ∈ ([ .add64 0 7 1 2 4, .add64 0 7 2 1 4, .add64 0 7 2 4 61, .shl64 0 7 3 2 4, .shl64 0 7 2 3 4,
    .mulw 0 7 63 2 4, .addw 0 7 2 5 4, .add64i 0 7 2 9 0, .icmp 0 7 1 4 2 3 0, .icmp 0 7 1 0 2 3 12, .fcmp 0 7 1 4 2 3 0 0,
    .vote 0 7 1 3 4 1, .setw 0 6 6 0, .setw 0 1 6 0, .setw 0 3 2 0, .watch 0 7 1 3 4 0, .watch 0 7 1 4 5 8,
    .barSync 0 1 0 1 8, .barArrive 0 0 1 0 0, .barWait 0 1 0 1 15, .launch 0 7 1 5, .launchb 0 7 1 5, .ldg 0 7 2 5 0 4 0 0,
    .ldg 0 7 3 4 0 5 0 0, .ldg 0 7 2 4 0 6 0 0, .ldg 0 7 2 4 0 7 0 0, .ldg 0 7 2 4 0 4 0 3, .stg 0 7 2 4 0 1 0 0,
    .stg 0 7 2 4 0 3 0 0, .stg 0 7 2 5 0 4 0 0, .lds 0 7 2 4 0 7 0 0, .lds 0 7 2 4 0 4 0 3, .lds 0 7 1 4 0 5 0 0,
    .sts 0 7 2 4 0 7 0 0, .sts 0 7 2 4 0 4 0 3, .atgAdd 0 7 1 5 2, .atgCas 0 7 1 5 2, .atg64Add 0 7 1 4 2, .atg64Add 0 7 2 4 3,
    .atg64Cas 0 7 2 5 4, .fenceRel 0 7 4, .fenceAcq 0 7 7, .fencePhase 0 7 5, .ldga 0 7 4 4 0 3 0, .ldga 0 7 4 5 0 4 0,
    .ldga 0 7 4 4 0 4 3, .ldga 0 7 4 4 0 7 0, .ldga 0 7 5 4 0 5 0, .prefL1 0 7 5 0 4, .prefL2 0 7 4 0 7, .cpyG2s 0 7 4 0,
    .cpyS2g 0 7 56 0, .cpyS2s 0 7 1 0, .cpyG2g 0 7 63 0, .cpyS2sm 0 7 12 0, .shopen 0 7 1 17, .raddF32 0 7 5 1,
    .raddBf16x2 0 7 5 1, .raddI32 0 7 5 1, .rmaxF32 0 7 5 1, .mst 0 7 5 1, .mma 0 0 8 9 0 1, .mmat 0 0 8 9 7 7, .mmas 0 0 8 9 2 4,
    .mdrain 0 0 8 6 ] : List Instr), i.wellFormed = false := by decide
/-- R5, R9 to R11, R263, R347, R355, R362, R373: a unit that does not exist. -/
theorem test_illFormed_events : ∀ i ∈ ([ .engineOpStart 768, .engineOpDone 768, .parityApply 0 8, .parityApply 768 0,
    .rebuildComplete 0 8, .scrubPass 768 [] [], .bindRecordWrite 768 0 [0, 0, 0, 0, 0, 0, 0, 0], .bindRecordWrite 0 32 [0, 0, 0, 0, 0, 0, 0, 0],
    .bindRecordWrite 0 0 [], .boltStart 96 0 0 0, .haltComplete 16, .abandonTimeout 16, .filterInvalidation 96 0 0,
    .filterAck 96 0 0, .shadowOpenRequest 0 128, .publishPrepare 0 64 0, .publishPrepare 0 0 128, .publishCommit 0 64,
    .publishAbort 0 64, .replicaTimeout 0 64, .attest none [], .tiermove 0 0 2 0, .extentGrant 65536 0 false,
    .extentWithdraw 65536, .meterIntervalEnd 16, .tokenArrival 0 100, .tokenArrival 448 95, .tokenArrival 513 0,
    .tokenArrival 256 0, .retrainDone 0 0 16 0, .loomLossOfLight 20 0, .portTraining 64 false true, .portDown 64,
    .portUp 64, .fabricResponseTimeout 64, .hostMmioViolation 32 ⟨0, none⟩, .capcfgWrite 16 0 ⟨none, 0, 0⟩, .capcfgWrite 0 32 ⟨none, 0, 0⟩,
    .partitionReady 16, .captureSample 16 0, .fabricLaneWeak 0 ⟨5, 0, 0⟩, .fabricLaneLost 64 0, .keyTableUpdateApplied 0 768 ] : List Instr),
    i.wellFormed = false := by decide
/-- R48, R51. -/
theorem test_words_refused : decodeWord 0x00000001 = .error .illegal ∧ decodeWord 0xC07FFFFD = .error .chainedTransfer ∧
    decodeWord 0x19C9083C = .error .illegal ∧ decodeWord 0x51C21023 = .error .illegal ∧
    decodeWord 0x7FC10830 = .error .illegal := by decide

/-! ### States for the words: one weft of eight strands of skein 0 on core 0 -/

/-- A kernel with ten packets of code. -/
def kern : Kernel := { loadedKernel with codeSize := 160 }
/-- A skein of eight copies of a strand. -/
def skeinOf (k : Kernel) (x : Strand) : Skein :=
  { ctx := 0, bolt := 0, index := 0, core := some 0, kern := k, nstrand := 8, nbolt := 1, nbale := 1, args := 0,
    scrBase := 0, wslots := 1, coreTiles := List.range 16, prio := 0, cap := 5, rsBlock := none, jtimeout := 4096,
    dbgSel := 0, strands := (List.range 8).map (fun i => (i, some x)),
    wefts := [(0, some { Weft.fresh 8 with
      activeSince := some 0, entries := [{ pc := 0, since := 0, lastIssue := 0, reserved := true }] })],
    bars := [], tiles := [], pmc := [], acqs := [], cwaits := [], doneCopies := [], copyFrozen := false, savedScratch := [],
    savedInj := none }
def demoBolt : Bolt :=
  { ctx := 0, launch := 0, lslot := 0, index := 0, bale := 0, state := .running, skeins := [0], nskein := 1, lead := 0, cores := [0], fused := false,
    dirty := false, watchdog := 0, relaunches := 0, bars := [], shadows := [] }
def demoCtx : Context := { Context.built 0 1 0 true [] with state := .running }
/-- The strands `js` of a skein issue at PC 0, with K = 5. -/
def issuing (sk : Skein) (js : List Nat) : State :=
  { State.reset with
    skeins := [(0, some sk)], bolts := [(0, some demoBolt)], contexts := [(0, some demoCtx)]
    cur := { Issue.idle with strands := js, k := 5 } }
def all8 : List Nat := [0, 1, 2, 3, 4, 5, 6, 7]

/-- Strands as they start. -/
def plainSk : Skein := skeinOf kern (Strand.start 0)
def plain : State := issuing plainSk all8
/-- Strands with a handler at packet 1, a value in v1 to v5 and an address of this module in v8:v9. -/
def readyStrand : Strand :=
  { Strand.start 0 with trapvec := 4, v := [(1, 7), (2, 0xFFFFFFFE), (3, 3), (4, 4096), (5, 0x40000000), (8, 0x10000), (16, 32)] }
def readySk : Skein := skeinOf kern readyStrand
def ready : State := issuing readySk all8
/-- One strand of them alone. -/
def lone : State := issuing readySk [0]

/-- What `CanRun` asks, as a computation. -/
def runnable (s : State) (sk : Skein) (i : Instr) : Bool :=
  decide (s.skein? s.cur.skein = some sk ∧ s.cur.denied = [] ∧ s.readsBad sk (s.active (Instr.use i).g) i = none) && Cells.wf none sk.strands && Cells.wf none sk.wefts && decide s.cur.strands.Nodup &&
  s.cur.strands.all (fun j => (Tab.get sk.strands j).isSome) && decide (wordTrap sk.kern (s.privOf sk) i = none) &&
  (Tab.list s.reqs).all (fun e => decide (e.2.kind = .ldga → e.2.skein ≠ s.cur.skein)) &&
  decide (Instr.accesses i = true → s.acquirePending sk = false)

theorem canRun_of_runnable {s : State} {sk : Skein} {i : Instr} (h : runnable s sk i = true) : s.CanRun sk i := by
  simp only [runnable, Bool.and_eq_true, decide_eq_true_eq, List.all_eq_true] at h
  obtain ⟨⟨⟨⟨⟨⟨⟨⟨h1, hd, hb⟩, h2⟩, h3⟩, h4⟩, h5⟩, h6⟩, h7⟩, h8⟩ := h
  exact ⟨⟨h1, hd, h2, h3, h4, h5⟩, h6, fun e he => h7 e he, h8, hb⟩

/-- The words of a list can run. -/
theorem canRun_of_all {s : State} {sk : Skein} {is : List Instr} (h : is.all (runnable s sk) = true) :
    ∀ i ∈ is, s.CanRun sk i := fun i hi => canRun_of_runnable (List.all_eq_true.mp h i hi)

/-- A fact of every strand of the issue set, as a computation. -/
theorem strands_of_all {s : State} {P : Nat → Strand → Prop} [∀ j x, Decidable (P j x)]
    (h : s.cur.strands.all (fun j => (s.strand? s.cur.skein j).all (fun x => decide (P j x))) = true) :
    ∀ j ∈ s.cur.strands, ∀ x, s.strand? s.cur.skein j = some x → P j x := by
  intro j hj x hx
  have := List.all_eq_true.mp h j hj
  rw [hx] at this
  simpa using this

/-- Strands without FPTRAPEN take no floating trap. -/
theorem noTrap {x : Strand} (h : x.fptrapen = 0) (fl : FpFlags) : x.fpTraps fl = false := by
  simp [Strand.fpTraps, h]
theorem plain_noTrap : ∀ fl : Nat → Strand → FpFlags, ∀ j ∈ plain.cur.strands, ∀ x, plain.strand? plain.cur.skein j = some x →
    x.fpTraps (fl j x) = false := fun fl j hj x hx =>
  noTrap (strands_of_all (P := fun _ x => x.fptrapen = 0) (by decide) j hj x hx) (fl j x)

/-! ### The words' statements: states and operands that meet their hypotheses -/

theorem witness_EncodedWordsDecode : (Instr.lea16 1 0 62 63 63).wellFormed = true ∧
    encode (.lea16 1 0 62 63 63) = some 0x863EFFFF := by decide
theorem witness_DecodedWordsEncode : decodeWord 0x863EFFFF = .ok (.lea16 1 0 62 63 63) ∧ decodeWord 0 = .ok .nop := by decide

/-- IntegerA, IntegerB, WideAndImmediate. -/
theorem witness_integer_words : ∀ i ∈ ([ .add 0 7 1 2 3, .sub 0 7 1 2 3, .mul 0 7 1 2 3, .mulh 0 7 1 2 3, .mulhu 0 7 1 2 3,
    .and 0 7 1 2 3, .or 0 7 1 2 3, .xor 0 7 1 2 3, .andn 0 7 1 2 3, .shl 0 7 1 2 3, .shr 0 7 1 2 3, .sar 0 7 1 2 3,
    .min 0 7 1 2 3, .max 0 7 1 2 3, .minu 0 7 1 2 3, .maxu 0 7 1 2 3, .addsat 0 7 1 2 3, .subsat 0 7 1 2 3,
    .addsatu 0 7 1 2 3, .subsatu 0 7 1 2 3, .div 0 7 1 2 3, .divu 0 7 1 2 3, .rem 0 7 1 2 3, .remu 0 7 1 2 3, .popc 0 7 1 2,
    .clz 0 7 1 2, .ctz 0 7 1 2, .brev 0 7 1 2, .abs 0 7 1 2, .neg 0 7 1 2, .absdiff 0 7 1 2 3, .add 1 0 63 63 63 ] :
    List Instr), plain.CanRun plainSk i := canRun_of_all (by decide)
theorem witness_wide_words : ∀ i ∈ ([ .add64 0 7 2 4 6, .sub64 0 7 2 4 6, .shl64 0 7 2 4 6, .shr64 0 7 2 4 6, .sar64 0 7 2 4 6,
    .mulw 0 7 2 4 6, .mulwu 0 7 2 4 6, .and64 0 7 2 4 6, .or64 0 7 2 4 6, .xor64 0 7 2 4 6, .addw 0 7 2 4 6, .addws 0 7 2 4 6,
    .lea2 0 7 2 4 6, .lea4 0 7 2 4 6, .lea8 0 7 2 4 6, .lea16 0 7 62 63 63, .add64i 0 7 2 4 1023, .addi 0 7 1 2 1023,
    .andi 0 7 1 2 1023, .ori 0 7 1 2 1023, .xori 0 7 1 2 1023, .shli 0 7 1 2 31, .shri 0 7 1 2 31, .sari 0 7 1 2 31,
    .roli 0 7 1 2 0, .movi 0 7 1 0xFFFF, .movhi 0 7 63 0 ] : List Instr), plain.CanRun plainSk i := canRun_of_all (by decide)
/-- Predicates, IndexRegisters. -/
theorem witness_predicate_words : ∀ i ∈ ([ .icmp 0 7 1 3 2 3 11, .fcmp 0 7 1 0 2 3 0 7, .sel 0 0 1 2 3, .pand 0 7 1 2 3,
    .por 0 7 1 2 3, .pxor 0 7 1 2 3, .pandn 0 7 7 2 3, .pnot 0 7 1 2, .pmov 0 7 1 2, .ptov 0 7 1 2, .vtop 0 7 1 2, .mov 0 7 1 2,
    .nset 0 7 3 2, .nget 0 7 2 3, .nadv 0 7 3 2, .nclr 0 7 3 ] : List Instr), plain.CanRun plainSk i := canRun_of_all (by decide)
theorem witness_FloatComparison : (7 : Nat) < 8 := by decide
/-- n1 is a window of v2 to v20 with cursor 18: #2 reaches its end, #3 lies outside. -/
def indexStrand : Strand := { readyStrand with n := [(1, 18 + 2 * 256 + 20 * 2 ^ 14)] }
def indexSk : Skein := skeinOf kern indexStrand
theorem witness_IndexRegisters :
    let s := issuing indexSk all8
    let e (x : Strand) (o : BitVec 6) : Int := ((x.rn 1).setWidth 8).toInt + o.toInt
    (∀ i ∈ ([.rdx 0 7 5 1 2, .wrx 0 7 5 1 2, .rdx 0 7 5 1 3, .wrx 0 7 5 1 3] : List Instr), s.CanRun indexSk i) ∧
    s.Handled indexSk 7 ∧
    (∀ j ∈ s.cur.strands, ∀ x, s.strand? s.cur.skein j = some x → x.rpr 7 = true →
      (((x.rn 1).extractLsb' 8 6).toNat ≤ e x 2 ∧ e x 2 ≤ ((x.rn 1).extractLsb' 14 6).toNat ∧ e x 2 < indexSk.kern.vregs)) ∧
    (∀ j ∈ s.cur.strands, ∀ x, s.strand? s.cur.skein j = some x → x.rpr 7 = true →
      (e x 3 < ((x.rn 1).extractLsb' 8 6).toNat ∨ ((x.rn 1).extractLsb' 14 6).toNat < e x 3 ∨ indexSk.kern.vregs ≤ e x 3)) :=
  ⟨canRun_of_all (by decide), ⟨by decide, strands_of_all (by decide)⟩, strands_of_all (by decide), strands_of_all (by decide)⟩

/-- FloatArithmetic, FloatFunctionsAndHalves, Conversions: the words can run, and in `plain` no flag traps. -/
theorem witness_float_words : (∀ i ∈ ([ .fadd 0 7 1 2 3 0, .fsub 0 7 1 2 3 0, .fmul 0 7 1 2 3 0, .fdiv 0 7 1 2 3 0, .fmin 0 7 1 2 3 0,
    .fmax 0 7 1 2 3 0, .fcopysign 0 7 1 2 3 0, .fscale 0 7 1 2 3 0, .fma 0 7 1 2 3 0, .fms 0 7 1 2 3 0, .fnma 0 7 1 2 3 0,
    .fnms 0 7 1 2 3 1, .rcp 0 7 1 2 0, .rsq 0 7 1 2 0, .sqrt 0 7 1 2 0, .exp2 0 7 1 2 0, .log2 0 7 1 2 0, .sinpi 0 7 1 2 0,
    .cospi 0 7 1 2 0, .tanh 0 7 1 2 0, .hadd 0 7 1 2 3 0 0, .hsub 0 7 1 2 3 0 1, .hmul 0 7 1 2 3 0 0, .hfma 0 7 1 2 63 1 1,
    .ftoi 0 7 1 2, .ftoiz 0 7 1 2, .ftou 0 7 1 2, .itof 0 7 1 2, .utof 0 7 1 2, .pkh 0 7 1 2 3, .pkb 0 7 1 2 3, .xthl 0 7 1 2,
    .xthh 0 7 1 2, .xtbl 0 7 1 2, .xtbh 0 7 1 2, .frnd 0 7 1 2, .frndz 0 7 1 2, .pk8 0 7 1 2 3 1 1, .xt8 0 7 1 2 3 1,
    .pk4 0 7 1 2 7 1, .xt4 0 7 1 2 7 ] : List Instr), plain.CanRun plainSk i) ∧
    ∀ fl : Nat → Strand → FpFlags, ∀ j ∈ plain.cur.strands, ∀ x, plain.strand? plain.cur.skein j = some x →
      x.fpTraps (fl j x) = false := ⟨canRun_of_all (by decide), plain_noTrap⟩

/-- CrossLane, IntegerReductions, FloatReductions: the .any forms act anywhere, the .all forms on the whole weft. -/
theorem witness_cross_words : (∀ i ∈ ([ .shfl 0 7 1 2 3 0, .shflx 0 7 1 2 3 1, .shflu 0 7 1 2 3 0, .shfld 0 7 1 2 3 1,
    .bcast 0 7 1 2 3 0, .vote 0 7 1 0 2 0, .vote 0 7 1 1 2 1, .vote 0 7 1 2 2 0, .count 0 7 1 2 0, .rank 0 7 1 2 1,
    .rediIadd 0 7 1 2 0, .rediImin 0 7 1 2 0, .rediImax 0 7 1 2 0, .rediUmin 0 7 1 2 1, .rediUmax 0 7 1 2 0,
    .rediAnd 0 7 1 2 0, .rediOr 0 7 1 2 0, .rediXor 0 7 1 2 1, .redfFaddt 0 7 1 2 0, .redfFadds 0 7 1 2 1,
    .redfFmin 0 7 1 2 0, .redfFmax 0 7 1 2 0, .redfScanf 0 7 1 2 0, .redfScani 0 7 1 2 0, .redfScanx 0 7 1 2 1 ] : List Instr),
    plain.CanRun plainSk i) ∧ plain.ActsAcross plainSk 0 ∧ plain.ActsAcross plainSk 1 :=
  ⟨canRun_of_all (by decide), Or.inr ⟨by decide, strands_of_all (by decide)⟩, Or.inl rfl⟩
/-- Strand 7 has not reached the word. -/
theorem witness_CrossLaneWaits : let s := issuing plainSk [0, 1, 2]
    let i : Instr := .shfl 0 7 1 2 3 0
    (crossOf i).isSome = true ∧ (∃ w, encode i = some w ∧ i.wellFormed = true ∧ (w.getLsbD 3 = false)) ∧
    s.CanRun plainSk i ∧ 7 ∈ plainSk.liveOf s.cur.weft ∧ 7 ∉ s.cur.strands ∧
    s.strand? s.cur.skein 7 = some (Strand.start 0) ∧ (Strand.start 0).status = .ready :=
  ⟨by decide, ⟨0x31C10830, by decide⟩, canRun_of_runnable (by decide), by decide, by decide, by decide, by decide⟩

/-- SpecialRegisterReads: every register number that MFS reads. -/
theorem witness_SpecialRegisterReads :
    ((List.range 0x27 ++ [0x028, 0x029, 0x030, 0x040, 0x041] ++ (List.range 10).map (0x080 + ·) ++
      [0x200, 0x201, 0x203, 0x208, 0x209, 0x20A] ++ (List.range 16).map (0x210 + ·) ++ [0x220, 0x221]).all
        (fun n => runnable plain plainSk (.mfs 0 7 1 (BitVec.ofNat 10 n)))) = true ∧
    plain.NoRequests ∧ Tab.get plainSk.wefts plain.cur.weft = plain.weft? 0 0 :=
  ⟨by decide, fun e he => absurd he List.not_mem_nil, rfl⟩
theorem witness_SpecialRegisterWrites :
    (([0x010, 0x011, 0x012, 0x014, 0x015, 0x016, 0x017, 0x004, 0x020, 0x208, 0x209, 0x20A, 0x220] ++
      (List.range 16).map (0x210 + ·)).all (fun n => runnable plain plainSk (.mts 0 7 1 (BitVec.ofNat 10 n)))) = true ∧
    (0 ∈ plain.acting 7 ∧ (∀ j ∈ plain.acting 7, 0 ≤ j) ∧ Tab.get plainSk.strands 0 = some (Strand.start 0) ∧
    (plain.ctx? plainSk.ctx).isSome = true) ∧ plain.NoRequests :=
  ⟨by decide, by decide, fun e he => absurd he List.not_mem_nil⟩

/-- Branches: packet 9 is the last, packet 10 and packet −1 lie outside, and so does slot 3. -/
theorem witness_Branches : (∀ i ∈ ([.nop, .br 7 9, .br 7 10, .br 7 0x3FFFFF, .brx 7 4, .brx 7 3, .brx 7 1] : List Instr), ready.CanRun readySk i) ∧
    ready.Handled readySk 7 ∧
    (let ok (t : Int) : Prop := 0 ≤ t ∧ t % 4 ≠ 3 ∧ t * 4 < kern.codeSize
     ok (9 * 4) ∧ ¬ ok (10 * 4) ∧ ¬ ok (-1 * 4) ∧ ok ((readyStrand.rv 1).toNat - 5 : Int) ∧ ¬ ok (readyStrand.rv 1).toNat ∧
       ¬ ok (readyStrand.rv 4).toNat) :=
  ⟨canRun_of_all (by decide), ⟨by decide, strands_of_all (by decide)⟩, by decide⟩

/-- CallsAndReturns: two return points stacked, four, and none; a declared depth of 2 is full with two. -/
def stacked (l : List Word) : Strand := { readyStrand with onChip := l }
theorem witness_CallsAndReturns :
    (let sk := skeinOf kern (stacked [1])
     let s := issuing sk all8
     (∀ i ∈ ([.call 7 5, .callx 7 3, .callx 7 63, .ret 7] : List Instr), s.CanRun sk i) ∧
     (∀ j ∈ s.cur.strands, ∀ x, s.strand? s.cur.skein j = some x → x.rpr 7 = true →
       x.onChip.length < 4 ∧ x.onChip.length + x.spilled < sk.kern.rstack ∧ (∃ r rest, x.onChip = r :: rest ∧ r = 1))) ∧
    (let sk := skeinOf { kern with rstack := 2 } (stacked [1, 2])
     let s := issuing sk all8
     (∀ i ∈ ([.call 7 5, .callx 7 63] : List Instr), s.CanRun sk i) ∧ s.Handled sk 7 ∧
     (∀ j ∈ s.cur.strands, ∀ x, s.strand? s.cur.skein j = some x → x.rpr 7 = true →
       sk.kern.rstack ≤ x.onChip.length + x.spilled)) ∧
    (ready.CanRun readySk (.ret 7) ∧ ready.Handled readySk 7 ∧
     (∀ j ∈ ready.cur.strands, ∀ x, ready.strand? ready.cur.skein j = some x → x.rpr 7 = true → x.onChip = [] ∧ x.spilled = 0)) := by
  refine ⟨⟨canRun_of_all (by decide), ?_⟩, ⟨canRun_of_all (by decide), ⟨by decide, strands_of_all (by decide)⟩,
    strands_of_all (by decide)⟩, canRun_of_runnable (by decide), ⟨by decide, strands_of_all (by decide)⟩, strands_of_all (by decide)⟩
  intro j hj x hx hg
  have h := strands_of_all (s := issuing (skeinOf kern (stacked [1])) all8)
    (P := fun _ x => x.onChip = [1] ∧ x.spilled = 0) (by decide) j hj x hx
  rw [h.1, h.2]
  exact ⟨by decide, by decide, 1, [], rfl, rfl⟩

/-- SoftwareTraps: the traps enter; a handler returns past the word that trapped and past a chain. -/
def handling (cause : BitVec 8) : Strand := { readyStrand with active := true, tpc := 8, tcause := cause }
theorem witness_SoftwareTraps :
    (∀ i ∈ ([.trap 7 63, .breakp 7] : List Instr), ready.CanRun readySk i) ∧ ready.Handled readySk 7 ∧
    (let sk := skeinOf kern (handling 0x30)
     let s := issuing sk all8
     (∀ i ∈ ([.tret 7, .tretr 7] : List Instr), s.CanRun sk i) ∧ sk.oldestHeld s.cur.weft = none ∧
     (∀ j ∈ s.cur.strands, ∀ x, s.strand? s.cur.skein j = some x → x.rpr 7 = true →
       pcOk sk.kern x.tpc.toNat = true ∧ pcOk sk.kern (nextPc x.tpc).toNat = true)) ∧
    (let sk := skeinOf kern (handling 0x02)
     let s := issuing sk all8
     s.CanRun sk (.tret 7) ∧ sk.oldestHeld s.cur.weft = none ∧
     (∀ j ∈ s.cur.strands, ∀ x, s.strand? s.cur.skein j = some x → x.rpr 7 = true →
       x.tcause = 0x02 ∧ pcOk sk.kern (s.afterChain sk x.tpc).toNat = true)) :=
  ⟨canRun_of_all (by decide), ⟨by decide, strands_of_all (by decide)⟩,
   ⟨canRun_of_all (by decide), by decide, strands_of_all (by decide)⟩,
   canRun_of_runnable (by decide), by decide, strands_of_all (by decide)⟩

/-- A weft with rejoin records. -/
def withRecords (sk : Skein) (rs : List Rejoin) : Skein :=
  { sk with wefts := Tab.upd sk.wefts 0 (fun w => { w with records := rs }) }
def rejoinAt (target : Word) (expected arrived : List Nat) (deadline : Option Nat) : Rejoin :=
  { target := target, expected := expected, arrived := arrived, deadline := deadline }
/-- SplitAndJoin: no record, one of the target, eight of others; a JOIN at no record, one with strand 7 to come, the last. -/
theorem witness_SplitAndJoin :
    (plain.CanRun plainSk (.split 7 5) ∧ plain.acting 7 ≠ [] ∧ (plain.weft? 0 0).map Weft.records = some []) ∧
    (let sk := withRecords plainSk [rejoinAt 20 [7] [] none]
     (issuing sk all8).CanRun sk (.split 7 5)) ∧
    (let sk := withRecords plainSk (List.replicate 8 (rejoinAt 24 [7] [] none))
     (issuing sk all8).CanRun sk (.split 7 5) ∧ ((issuing sk all8).weft? 0 0).map (fun w => w.records.length) = some 8) ∧
    (let sk := withRecords plainSk [rejoinAt 24 [7] [] none]
     (issuing sk all8).CanRun sk (.join 7) ∧ (24 : Word) ≠ (issuing sk all8).cur.pc) ∧
    (let r := rejoinAt 0 all8 [] none
     let sk := withRecords plainSk [r]
     let s := issuing sk [0, 1, 2]
     s.CanRun sk (.join 7) ∧ r.target = s.cur.pc ∧ (∀ i ∈ s.cur.strands, i ∈ s.acting 7 ∧ i ∈ r.expected) ∧
     (∀ i ∈ all8, i ∈ r.arrived ↔ (s.strand? 0 i).map Strand.status = some (.joinwait 0)) ∧
     (∀ i ∈ r.expected, i ∈ sk.members s.cur.weft) ∧ ∃ i ∈ r.expected, i ∉ r.arrived ∧ i ∉ s.cur.strands) ∧
    (let r := rejoinAt 0 [0, 1] [1] (some 9)
     let sk := withRecords plainSk [r]
     let sk' := { sk with strands := Tab.upd sk.strands 1 (fun x => { x with status := .joinwait 0 }) }
     let s := issuing sk' [0]
     s.CanRun sk' (.join 7) ∧ (∀ i ∈ s.cur.strands, i ∈ s.acting 7 ∧ i ∈ r.expected) ∧
     (∀ i ∈ all8, i ∈ r.arrived ↔ (s.strand? 0 i).map Strand.status = some (.joinwait 0)) ∧
     (∀ i ∈ r.arrived, i ∈ r.expected) ∧ ∀ i ∈ r.expected, i ∈ r.arrived ∨ i ∈ s.cur.strands) :=
  ⟨⟨canRun_of_runnable (by decide), by decide⟩, canRun_of_runnable (by decide), ⟨canRun_of_runnable (by decide), by decide⟩,
   ⟨canRun_of_runnable (by decide), by decide⟩, ⟨canRun_of_runnable (by decide), by decide⟩, canRun_of_runnable (by decide), by decide⟩

/-- ExitWaitYield: the exit of strands 0 to 2 leaves strand 7. -/
theorem witness_ExitWaitYield : (∀ i ∈ ([.waitt 7 1, .waitt 7 63, .yield 7, .exit 7] : List Instr), ready.CanRun readySk i) ∧
    ready.othersReady 0 ready.cur.skein ready.cur.weft false = false ∧
    (let s := issuing readySk [0, 1, 2]
     s.CanRun readySk (.exit 7) ∧ s.NoRequests ∧ s.drainsOf s.cur.skein (some s.cur.weft) = false ∧ readySk.bars = [] ∧
     (s.bolt? readySk.bolt).map Bolt.bars = some [] ∧ (s.weft? 0 0).map (fun w => (w.records, w.sliceSince)) = some ([], []) ∧
     (∀ i ∈ all8, (s.strand? 0 i).map Strand.status = some .ready) ∧ 7 ∈ readySk.live ∧ 7 ∉ s.acting 7) :=
  ⟨canRun_of_all (by decide), by decide, canRun_of_runnable (by decide), fun e he => absurd he List.not_mem_nil, by decide⟩

/-- WidthWords: a strand is missing; the whole skein; at the largest and the smallest widths. -/
theorem witness_WidthWords :
    (let s := issuing plainSk [0, 1, 2]
     (∀ i ∈ ([.setw 0 0 0 0, .slice 0, .wsync 0 7] : List Instr), s.CanRun plainSk i) ∧ 7 ∈ plainSk.live ∧
       7 ∈ plainSk.liveOf s.cur.weft ∧ 7 ∉ s.cur.strands ∧ (s.strand? 0 7).map Strand.status = some .ready ∧
       0 < plainSk.jtimeout ∧ (s.weft? 0 0).map Weft.sliceSince = some []) ∧
    ((∀ i ∈ ([.setw 0 0 0 0, .setw 0 0 5 1, .slice 0, .wsync 0 7] : List Instr), plain.CanRun plainSk i) ∧
     plain.cur.strands ≠ [] ∧ plainSk.live = plain.cur.strands ∧ plainSk.liveOf plain.cur.weft = plain.cur.strands ∧
     (∀ j ∈ plain.cur.strands, ∀ y, plain.strand? 0 j = some y → y.status = .ready ∧ y.pc = plain.cur.pc) ∧
     setGrant (plain.eligibleFor plainSk) 8 8 false ≠ 0 ∧ setGrant (plain.eligibleFor plainSk) 8 256 true ≠ 0 ∧
     ((plain.weft? 0 0).elim 0 Weft.g) ≤ 64 * (plain.core 0).quads) :=
  ⟨⟨canRun_of_all (by decide), by decide⟩, canRun_of_all (by decide), by decide, by decide, by decide,
   strands_of_all (by decide), by decide⟩

theorem quiet_of {s : State} {sk : Skein} (h1 : s.reqs = []) (h2 : s.drainsOf s.cur.skein none = false)
    (h3 : (s.core (sk.core.getD 0)).wc = []) : s.Quiet sk :=
  ⟨fun e he => by rw [h1] at he; exact absurd he List.not_mem_nil, h2, h3⟩

/-- Strand 7 waits at a barrier of the skein. -/
def waiterSk : Skein := { plainSk with
  bars := [(0, ⟨0, [7]⟩)]
  strands := Tab.upd plainSk.strands 7 (fun x => { x with status := .rendezvous (.barrier false 0 0 true 0) }) }
/-- Barriers: none complete; a wait on one's own arrival; the last arrivals of a level; the last of them, which releases a
waiter. -/
theorem witness_Barriers :
    (let s := issuing plainSk [0, 1, 2]
     (∀ i ∈ ([.barSync 0 0 0 1 15, .barArrive 0 1 0 1 7, .barWait 0 0 0 1 0] : List Instr), s.CanRun plainSk i) ∧ s.Quiet plainSk ∧
     (s.bolt? plainSk.bolt).isSome = true ∧
     (∀ j ∈ s.cur.strands, (plainSk.weftOf j).map Prod.fst = some s.cur.weft ∧ (s.strand? 0 j).map Strand.status = some .ready) ∧
     (∀ m ∈ s.cur.strands.map (strandKey 0), m ∉ (s.barrier 0 false 15).pend) ∧
     (∃ m ∈ s.expected 0 false, m ∉ (s.barrier 0 false 15).pend ∧ m ∉ s.cur.strands.map (strandKey 0)) ∧
     (∃ m ∈ s.expected 0 true, m ∉ (s.barrier 0 true 7).pend ∧ m ∉ s.cur.strands.map (strandKey 0)) ∧
     s.barComplete 0 false 0 = false) ∧
    (let sk : Skein := { plainSk with bars := [(0, ⟨3, [0, 1, 2]⟩)] }
     let s := issuing sk [0, 1, 2]
     s.CanRun sk (.barWait 0 0 0 1 0) ∧ s.Quiet sk ∧
     (∀ j ∈ s.cur.strands, (sk.weftOf j).map Prod.fst = some s.cur.weft ∧ (s.strand? 0 j).map Strand.status = some .ready) ∧ (∀ m ∈ s.cur.strands.map (strandKey 0), m ∈ (s.barrier 0 false 0).pend) ∧
     s.barComplete 0 false 0 = false) ∧
    ((∀ i ∈ ([.barSync 0 0 0 1 0, .barSync 0 1 1 1 7] : List Instr), plain.CanRun plainSk i) ∧ plain.Quiet plainSk ∧
     (∀ j ∈ plain.cur.strands, (plainSk.weftOf j).map Prod.fst = some plain.cur.weft ∧
       (plain.strand? 0 j).map Strand.status = some .ready) ∧
     (∀ b, (plain.barrier 0 b 0).pend = [] ∧ (∀ m ∈ plain.expected 0 b, m ∈ plain.cur.strands.map (strandKey 0)) ∧
       0 ∈ plain.levelSkeins 0 b ∧ (plain.levelSkeins 0 b).Nodup ∧ plain.barWaiters 0 b 0 (plain.barrier 0 b 0).gen = [])) ∧
    (let s := issuing waiterSk [0, 1, 2, 3, 4, 5, 6]
     s.CanRun waiterSk (.barSync 0 0 0 1 0) ∧ s.Quiet waiterSk ∧
     (∀ j ∈ s.cur.strands, (waiterSk.weftOf j).map Prod.fst = some s.cur.weft ∧ (s.strand? 0 j).map Strand.status = some .ready) ∧
     (∀ m ∈ s.cur.strands.map (strandKey 0), m ∉ (s.barrier 0 false 0).pend) ∧
     (∀ m ∈ s.expected 0 false, m ∈ (s.barrier 0 false 0).pend ∨ m ∈ s.cur.strands.map (strandKey 0)) ∧
     0 ∈ s.levelSkeins 0 false ∧ (s.levelSkeins 0 false).Nodup ∧ s.barWaiters 0 false 0 0 = [(0, 7, true, 0)] ∧
     (s.strand? 0 7).isSome = true ∧ s.reqs = [] ∧ (waiterSk.weftOf 7).isSome = true) :=
  ⟨⟨canRun_of_all (by decide), quiet_of rfl (by decide) rfl, by decide⟩,
   ⟨canRun_of_runnable (by decide), quiet_of rfl (by decide) rfl, by decide⟩,
   ⟨canRun_of_all (by decide), quiet_of rfl (by decide) rfl, by decide⟩,
   canRun_of_runnable (by decide), quiet_of rfl (by decide) rfl, by decide⟩

/-- A request of a kind of strand 0, from VA 4,096 of this module. -/
def req (kind : ReqKind) (stage : ReqStage) : Req :=
  { kind := kind, core := 0, skein := 0, weft := 0, strand := 0, ctx := 0, domain := 1, gen := 0, rdRights := 0xFFFF,
    wrRights := 0xFFFF, va := 0x10000, size := 4, data := [1, 2, 3, 4], reg := 2, sz := 4, fn := 0, opnd := 5, expect := 0,
    lvl2 := false, vol := false, pol := 0, seq := 0, counted := false, issued := 0, pc := 0, stage := stage, result := 0,
    key := 0, noFill := false, nackAt := 0, group := 0, reached := none, unreached := 0, stamp := 0, entry := none }
/-- Fences: nothing outstanding; a store on its way. -/
theorem witness_Fences : (∀ i ∈ ([.fenceRel 0 7 0, .fenceRel 0 7 3, .fenceAcq 0 7 2, .fencePhase 0 7 3, .fenceDrain 0 7] : List Instr),
      plain.CanRun plainSk i) ∧ plain.Quiet plainSk ∧ plain.acting 7 ≠ [] ∧
    (let s : State := { plain with reqs := [(0, some (req .store .outbound))] }
     s.CanRun plainSk (.fenceRel 0 7 2) ∧ (∀ e ∈ Tab.list s.reqs, e.2.stage = .outbound) ∧
     (∃ e ∈ Tab.list s.reqs, e.2.kind = .store ∧ e.2.skein = s.cur.skein ∧ e.2.strand ∈ plainSk.members s.cur.weft ∧
        s.isLocal e.2.va = true) ∧ s.acting 7 ≠ []) :=
  ⟨canRun_of_all (by decide), quiet_of rfl (by decide) rfl, by decide, canRun_of_runnable (by decide), by decide⟩

/-- Watches. -/
theorem witness_Watches : (∀ i ∈ ([.watch 0 7 1 8 63 7, .watch 0 7 1 8 7 0] : List Instr), ready.CanRun readySk i) ∧
    (ready.core 0).watches = [] ∧
    (∀ j ∈ ready.cur.strands, ∀ x, ready.strand? ready.cur.skein j = some x → x.rpr 7 = true → x.watchLeft = none ∧
      ready.accessCheck readySk (x.rp 8) (x.rp 8).toNat 4 (fun v => bit v 0) = .ok (x.rp 8).toNat) ∧
    (readyStrand.rb 5 63 = 5 ∧ readyStrand.rb 5 7 = 0) :=
  ⟨canRun_of_all (by decide), rfl, strands_of_all (by decide), by decide⟩

/-- A launch of one bolt of one skein. -/
def demoLaunch : Launch :=
  { ctx := 0, state := .admitted, lslot := 0, order := 0, eligible := 0, kernVa := 4096, kern := kern, args := 0, nbolt := 1, nskein := 1,
    prio := 0, fuse := false, span := false, spanList := [], sgen := 0, wait := 0, set := 4, clear := 0, ready := [],
    triggered := [], setDone := false, device := false, retired := [] }
theorem witness_Triggers :
    let s : State := { plain with launches := [(0, some demoLaunch)] }
    s.CanRun plainSk (.trigger 0 7) ∧ s.Quiet plainSk ∧ s.acting 7 ≠ [] ∧ s.bolt? plainSk.bolt = some demoBolt ∧
    Tab.get s.launches demoBolt.launch = some demoLaunch ∧ s.ctx? demoLaunch.ctx = some demoCtx ∧ demoCtx.state = .running ∧
    demoLaunch.setDone = false ∧ demoBolt.index * 8 + plainSk.index ∉ demoLaunch.triggered ∧
    (∀ e ∈ Tab.list s.launches, e.2.state ≠ .stored) :=
  ⟨canRun_of_runnable (by decide), quiet_of rfl (by decide) rfl, by decide⟩

/-! ### Memory: granules 4 and 5 of domain 1 lie in frames 4 and 5 -/

/-- The listed bytes of a memory from an address, without its zeros. -/
def lay (lo : Nat) (bs : List Byte) : Cells Byte :=
  (bs.zipIdx.filter (fun e => e.1 != 0)).map (fun e => (lo + e.2, e.1))
def attr0 : Attr := { rights := 7, key := 0, dfn := 4, cmpOk := true, tier := 0 }
def frame0 : Stage2 := { frame := 4, tier := 0, cmp := false, poison := false, w := true }
def gran4 : Nat := 2 ^ 43 + 4
def gran5 : Nat := 2 ^ 43 + 5
def homesWith (mem : Cells Byte) : Homes :=
  { Homes.reset with
    mem := mem, ownership := [(0, some { withdrawing := false, shared := false, domain := 1 })]
    attrs := [(gran4, some { attr := attr0, s2 := frame0 }), (gran5, some { attr := { attr0 with dfn := 5 }, s2 := { frame0 with frame := 5 } })]
    stage2 := [(2 ^ 36 + 4, some frame0), (2 ^ 36 + 5, some { frame0 with frame := 5 })] }
def keyed : Context := { demoCtx with keys := [(0, 3)] }
/-- A state whose context may read and write with key 0, over a memory. -/
def mapped (s : State) (mem : Cells Byte) : State := { s with homes := homesWith mem, contexts := [(0, some keyed)] }

/-- A launch record of the code object at 0x10100, and the object's header. -/
def recordBytes : List Byte :=
  bytesOf 8 0x10100 ++ bytesOf 8 0x40 ++ bytesOf 4 1 ++ bytesOf 4 1 ++ bytesOf 8 1 ++ List.replicate 32 0 ++ bytesOf 32 4 ++
  List.replicate 160 0
def headerBytes : List Byte :=
  bytesOf 4 0x4B4C4548 ++ bytesOf 4 0x00030301 ++ bytesOf 4 0 ++ bytesOf 4 16 ++ bytesOf 4 0x103F0008 ++ bytesOf 4 256 ++
  bytesOf 4 0x00040000 ++ bytesOf 4 0 ++ bytesOf 4 80 ++ List.replicate 28 0
def launchMem : Cells Byte := lay 0x10000 (recordBytes ++ headerBytes)
def launchRec : LaunchRec :=
  { kernVa := 0x10100, args := 0x40, nbolt := 1, nskein := 1, prio := 0, fuse := false, span := false, spanList := [], sgen := 0,
    wait := 0, set := 4, clear := 0 }
def launchKern : Kernel :=
  { minor := 1, level := 3, vregs := 63, tiles := 16, rstack := 4, scratch := 256, strands := 8, minCode := 0, maxCode := 0,
    rigid := false, cosched := false, relaunch := 0, entry := 0, base := 0x10100, codeSize := 16, dataOff := 80, argSize := 0 }
/-- The bytes of a read that succeeds, and the state after it. -/
def gotBytes : Fetched → Option (List Byte)
  | .ok b _ => some b
  | _ => none
theorem ok_of_got {d : State} {f : Fetched} {b : List Byte} (h : gotBytes f = some b) : f = .ok b (f.state d) := by
  cases f <;> simp_all [gotBytes, Fetched.state]
/-- The state after the record, and after the header. -/
def launch0 : State := (mapped lone launchMem).setDirty 0
def launch1 : State := (launch0.strandRead readySk 0x10000 16).state launch0
def launch2 : State := (launch1.strandRead readySk 0x10100 4).state launch1
/-- Launches: a record that passes; one out of its limits; the context's 256 entries full and no ring. -/
theorem witness_Launches :
    (let s := mapped lone launchMem
     (∀ i ∈ ([.launch 0 7 1 8, .launchb 0 7 1 8] : List Instr), s.CanRun readySk i) ∧ s.Quiet readySk ∧
     launch0.strandRead readySk 0x10000 16 = .ok recordBytes launch1 ∧ launch1.strandRead readySk 0x10100 4 = .ok headerBytes launch2 ∧
     s.acting 7 = [0] ∧ s.strand? 0 0 = some readyStrand ∧ (readyStrand.rp 8).toNat = 0x10000 ∧
     launch0.accessCheck readySk (readyStrand.rp 8) 0x10000 256 (fun v => bit v 0) = .ok 0x10000 ∧
     parseRecord recordBytes = some launchRec ∧ launchRec.span = false ∧
     launch2.refuse readySk.ctx launchRec headerBytes = .ok launchKern ∧
     (launch2.ctx? 0).isSome = true ∧ launch2.entryFree 0 = true ∧ launch2.ringed 0 = []) ∧
    (let s := mapped lone []
     s.CanRun readySk (.launch 0 7 1 8) ∧ s.Quiet readySk ∧
     gotBytes ((s.setDirty 0).strandRead readySk 0x10000 16) = some (List.replicate 256 0) ∧
     parseRecord (List.replicate 256 0) = none) ∧
    (let s : State := { mapped lone launchMem with
       launches := (List.range 256).map (fun n => (n, some { demoLaunch with state := .stored, lslot := n })) }
     s.CanRun readySk (.launchb 0 7 1 8) ∧ s.Quiet readySk ∧ s.entryFree 0 = false ∧
     (∀ y, s.ctx? 0 = some y → y.ringSize ≤ (s.ringed 0).length)) :=
  ⟨⟨canRun_of_all (by decide), quiet_of rfl (by decide) rfl, ok_of_got (by decide +kernel), ok_of_got (by decide +kernel),
    by decide +kernel⟩,
   ⟨canRun_of_runnable (by decide), quiet_of rfl (by decide) rfl, by decide +kernel⟩,
   canRun_of_runnable (by decide), quiet_of rfl (by decide) rfl, by decide +kernel, fun y h => by
     have : y = keyed := (Option.some.inj h).symm
     rw [this]; decide⟩

/-! ### Accesses -/

/-- GlobalAccesses, GlobalAtomics: v8:v9 is an address of this module; o = 14 and K. -/
theorem witness_GlobalAccesses :
    (∀ i ∈ ([.ldg 0 7 12 8 14 6 0 2, .ldg 0 7 1 8 15 0 1 0, .stg 0 7 12 8 0 6 0 0, .stg 0 7 1 8 15 0 0 0, .ldga 0 7 12 8 14 6 0,
      .prefL1 0 7 8 0 4, .prefL2 0 7 8 0 4] : List Instr), ready.CanRun readySk i) ∧ ready.cur.reuse = false ∧ (ready.core 0).wc = [] ∧
    (∀ j ∈ ready.cur.strands, ∀ x, ready.strand? ready.cur.skein j = some x → x.rpr 7 = true →
      ready.accessCheck readySk (x.rp 8) ((x.rp 8).toNat + (14 * 16 : Nat)) 16 (fun v => bit v 0) = .ok (0x10000 + 224) ∧
      ready.accessCheck readySk (x.rp 8) ((x.rp 8).toNat + ready.cur.k.toInt) 1 (fun v => bit v 1) = .ok (0x10000 + 5) ∧
      ready.isLocal (0x10000 + 224) = true ∧ ready.l1Find ready.cur.skein (ready.domainOf readySk.ctx) (0x10000 + 224) = none ∧
      ready.accessCheck readySk (x.rp 8) ((x.rp 8).toNat + (4 : Nat)) 1 (fun v => bit v 0) = .ok (0x10000 + 4) ∧
      ready.isLocal (0x10000 + 4) = true) :=
  ⟨canRun_of_all (by decide), rfl, rfl, strands_of_all (by decide)⟩
theorem witness_GlobalAtomics :
    (∀ i ∈ ([ .atgAdd 0 7 1 8 2, .atgMin 0 7 1 8 2, .atgMax 0 7 1 8 2, .atgMinu 0 7 1 8 2, .atgMaxu 0 7 1 8 2, .atgAnd 0 7 1 8 2,
      .atgOr 0 7 1 8 2, .atgXor 0 7 1 8 2, .atgXchg 0 7 1 8 2, .atgCas 0 7 63 8 63, .atgFadd 0 7 1 8 2, .atgFmin 0 7 1 8 2,
      .atgFmax 0 7 1 8 2, .atgHadd2 0 7 63 8 2, .atgIncw 0 7 1 8 2, .atg64Add 0 7 2 8 4, .atg64Minu 0 7 2 8 4,
      .atg64Maxu 0 7 2 8 4, .atg64And 0 7 2 8 4, .atg64Or 0 7 2 8 4, .atg64Xor 0 7 2 8 4, .atg64Xchg 0 7 2 8 4,
      .atg64Cas 0 7 2 8 4 ] : List Instr), ready.CanRun readySk i) ∧
    (∀ j ∈ ready.cur.strands, ∀ x, ready.strand? ready.cur.skein j = some x → x.rpr 7 = true →
      ready.accessCheck readySk (x.rp 8) (x.rp 8).toNat 8 (fun v => bit v 0 && bit v 1) = .ok 0x10000 ∧
      ready.accessCheck readySk (x.rp 8) (x.rp 8).toNat 4 (fun v => bit v 0 && bit v 1) = .ok 0x10000 ∧
      ready.isLocal 0x10000 = true) := ⟨canRun_of_all (by decide), strands_of_all (by decide)⟩

theorem clean_of {s : State} (h1 : s.copies = []) (h2 : s.cores = []) : s.ScratchClean := by
  refine ⟨h1, fun c => ?_⟩
  have : s.core c = CoreSt.reset := by simp [State.core, h2, Cells.get]
  simp [State.scratch, this, CoreSt.reset, Scratch.zero]

/-- ScratchAccesses, ScratchAtomics: every strand at its own place: v1 holds 16 times its number. -/
def apartSk : Skein := { plainSk with strands := (List.range 8).map (fun i =>
  (i, some { Strand.start 0 with v := if i = 0 then [] else [(1, BitVec.ofNat 32 (16 * i))] })) }
def apart : State := issuing apartSk all8
def placeOf (n j : Nat) : Span := { core := 0, lo := 16 * j, len := n }
theorem witness_ScratchAccesses :
    (∀ i ∈ ([.lds 0 7 12 1 0 6 0 0, .lds 0 7 2 1 14 1 1 2, .sts 0 7 12 1 0 6 0 0, .sts 0 7 2 1 14 0 0 0] : List Instr),
      apart.CanRun apartSk i) ∧ apart.ScratchClean ∧ apart.cur.reuse = false ∧
    (∀ j ∈ apart.acting 7, (apart.strand? 0 j).map (fun x => apart.checkScratch apartSk (x.rv 1).toNat 16 16) =
      some (.ok (placeOf 16 j))) :=
  ⟨canRun_of_all (by decide), clean_of rfl rfl, by decide, by decide⟩
theorem witness_ScratchAtomics :
    (∀ i ∈ ([.atsAdd 0 7 2 1 3, .atsMin 0 7 2 1 3, .atsMax 0 7 2 1 3, .atsMinu 0 7 2 1 3, .atsMaxu 0 7 2 1 3, .atsAnd 0 7 2 1 3,
      .atsOr 0 7 2 1 3, .atsXor 0 7 2 1 3, .atsXchg 0 7 2 1 3, .atsCas 0 7 2 1 3, .atsFadd 0 7 2 1 3, .atsFmin 0 7 2 1 3,
      .atsFmax 0 7 63 1 63] : List Instr), apart.CanRun apartSk i) ∧ apart.ScratchClean ∧
    (∀ j ∈ apart.acting 7, (apart.strand? 0 j).map (fun x => apart.checkScratch apartSk (x.rv 1).toNat 4 4) =
      some (.ok (placeOf 4 j))) ∧
    (∀ i ∈ apart.acting 7, ∀ j ∈ apart.acting 7, i ≠ j → (placeOf 4 i).hits (placeOf 4 j) = false) :=
  ⟨canRun_of_all (by decide), clean_of rfl rfl, by decide, by decide⟩
/-- AccessTraps: the table after R176. -/
def aimed (lo hi : Word) : Skein := skeinOf { kern with scratch := 4096 } { readyStrand with v := [(4, lo), (5, hi)] }
/-- The line of the address stands in the L1 under key 1, which the context's rights deny. -/
def deniedL1 : L1Line := { domain := 1, gen := 0, line := 0x100, key := 1, ret := 0, data := [] }
def denies (s : State) : State := { s with contexts := [(0, some { demoCtx with keys := [(0, 3)] })], l1 := [(0, [deniedL1])] }
theorem witness_AccessTraps_key :
    let sk := aimed 0x10000 0
    let s := denies (issuing sk all8)
    s.Handled sk 7 ∧ s.CanRun sk (.ldg 0 7 2 4 0 5 0 0) ∧ s.CanRun sk (.stg 0 7 2 4 0 4 0 0) ∧
    s.l1Find s.cur.skein (s.domainOf sk.ctx) 0x10000 = some deniedL1 ∧ bit (s.keyRights 0 sk.ctx 1) 0 = false ∧
    bit (s.keyRights 0 sk.ctx 1) 1 = false :=
  ⟨⟨by decide, strands_of_all (by decide)⟩, canRun_of_runnable (by decide), canRun_of_runnable (by decide), by decide⟩
theorem witness_AccessTraps :
    (∀ e ∈ ([(0, 0x02000000, 0x20), (0xFFFFFFFC, 0x01FFFFFF, 0x21), (0xFFFFFFFE, 0x00007FFF, 0x23), (0x10000002, 0, 0x22)] :
        List (Word × Word × Nat)),
      (issuing (aimed e.1 e.2.1) all8).Handled (aimed e.1 e.2.1) 7 ∧
      (issuing (aimed e.1 e.2.1) all8).CanRun (aimed e.1 e.2.1) (.ldg 0 7 2 4 0 5 0 0) ∧
      (issuing (aimed e.1 e.2.1) all8).CanRun (aimed e.1 e.2.1) (.stg 0 7 2 4 0 4 0 0)) ∧
    checkGlobal (0xFFFFFFFC + 0x01FFFFFF * 2 ^ 32) (0xFFFFFFFC + 0x01FFFFFF * 2 ^ 32 : Nat) 8 = .error (0x21, 0xFFFFFFFC) ∧
    (let sk := aimed 0xFFC 0
     let s := issuing sk all8
     s.CanRun sk (.lds 0 7 2 4 1 4 0 0) ∧ s.Handled sk 7 ∧ (sk.kern.scratch : Int) < 0xFFC + 4 + 4 ∧ (0xFFC + 4 : Int) < 2 ^ 31) :=
  ⟨fun e he => by
     fin_cases he <;> exact ⟨⟨by decide, strands_of_all (by decide)⟩, canRun_of_runnable (by decide), canRun_of_runnable (by decide)⟩,
   by decide, canRun_of_runnable (by decide), ⟨by decide, strands_of_all (by decide)⟩, by decide, by decide⟩
theorem witness_SizesAndOperations : (14 : BitVec 4) ≠ 15 := by decide

/-! ### Copies, shadows, the engine, the scratchpad -/

/-- A descriptor of one row of 64 bytes in v8 to v15. -/
def described (src srcHi dst dstHi : Word) : Skein :=
  skeinOf kern { readyStrand with v := [(8, src), (9, srcHi), (10, dst), (11, dstHi), (12, 64), (13, 1), (14, 64), (15, 64)] }
def copyOf (kind src dst mask : Nat) : Copy :=
  { core := 0, skein := 0, weft := 0, ctx := 0, kind := kind, tag := 0, src := src, dst := dst, mask := mask, shadow := none,
    rowb := 64, rows := 1, sstr := 64, dstr := 64, done := 0, seq := 0, parked := none, parkedAt := 0, frozen := false,
    shadowBad := false, orig := [] }
theorem witness_CopiesStart :
    ∀ e ∈ ([(.cpyG2s 0 7 8 127, 0, described 0x10000 0 256 0, copyOf 0 0x10000 256 0),
            (.cpyS2g 0 7 8 0, 1, described 256 0 0x10000 0, copyOf 1 256 0x10000 0),
            (.cpyS2s 0 7 8 3, 2, described 0 0 256 0, copyOf 2 0 256 0),
            (.cpyG2g 0 7 8 3, 3, described 0x10000 0 0x14000 0, copyOf 3 0x10000 0x14000 0),
            (.cpyS2sm 0 7 8 3, 4, described 0 0 256 1, copyOf 4 0 256 1)] : List (Instr × Nat × Skein × Copy)),
      let s := issuing e.2.2.1 all8
      s.CanRun e.2.2.1 e.1 ∧ s.acting 7 ≠ [] ∧ s.nonUniform s.cur.skein (s.acting 7) (oct 8) = none ∧
      (s.nextSeq 0).checkCopy e.2.2.1 e.2.1 (s.descWords (s.acting 7) 8) = .ok e.2.2.2 ∧ (s.copiesOn 0).length < 256 ∧
      s.copyWaits { e.2.2.2 with tag := 3 } = false := by
  intro e he
  fin_cases he <;> exact ⟨canRun_of_runnable (by decide), by decide, by decide, by decide, by decide, by decide⟩
theorem witness_CopyWaits :
    (∀ i ∈ ([.cwait 0 7 127, .cwaitAll 0 7, .cwaitQuery 0 7 1 127] : List Instr), plain.CanRun plainSk i) ∧ plain.acting 7 ≠ [] ∧
    (let s : State := { plain with nextId := 6, copies := [(5, some { copyOf 0 0x10000 256 0 with tag := 127, seq := 5 })] }
     s.CanRun plainSk (.cwait 0 7 127) ∧ (s.weft? 0 0).map Weft.solo = some none ∧
     ∃ e ∈ (Tab.list s.copies).filter (fun e => e.2.skein == s.cur.skein),
       (e.2.tag == (127 : BitVec 7).toNat) = true ∧ e.2.seq < s.nextId) :=
  ⟨canRun_of_all (by decide), by decide, canRun_of_runnable (by decide), by decide⟩

/-- An open shadow of granule 4, in slot 0 with handle 64. -/
def openSh : Shadow :=
  { Shadow.free with state := .sopen, seq := 1, base := 0x10000, size := 16384, count := 1, block := 0x14000 }
def shadowed (s : State) : State := { mapped s [] with contexts := [(0, some { keyed with shadows := [(0, some openSh)] })] }
/-- The strand's v1 is the handle; v8 to v15 describe a shadow of one granule. -/
def shadowSk : Skein := skeinOf kern { readyStrand with v := [(1, 64), (4, 0x10000), (8, 0x10000), (10, 16384), (11, 1), (13, 0x14000)] }
theorem witness_ShadowWords :
    (let s := shadowed (issuing shadowSk all8)
     (∀ i ∈ ([.shpub 0 7 1, .shabort 0 7 1, .shstat 0 7 2 1] : List Instr), s.CanRun shadowSk i) ∧ s.NoRequests ∧ s.acting 7 ≠ [] ∧
     s.slotOf shadowSk.ctx (s.handleOf (s.acting 7) 1) = some (0, openSh) ∧ openSh.state = .sopen ∧
     (∀ i ∈ s.acting 7, (s.strand? 0 i).map (fun x => (x.rv 1).toNat) = some (s.handleOf (s.acting 7) 1))) ∧
    (let s := mapped (issuing shadowSk all8) []
     s.CanRun shadowSk (.shopen 0 7 1 8) ∧ s.nonUniform s.cur.skein (s.acting 7) (oct 8) = none ∧
     ∃ sh s1, s.checkOpen shadowSk (s.descWords (s.acting 7) 8) = .ok 0 sh s1 ∧ sh.base = 0x10000) ∧
    (let sk : Skein := skeinOf kern { readyStrand with v := [(1, 128)], trapvec := 0 }
     let s := shadowed (issuing sk all8)
     (∀ i ∈ ([.shpub 0 7 1, .shabort 0 7 1, .shstat 0 7 2 1] : List Instr), s.CanRun sk i) ∧
     s.slotOf sk.ctx (s.handleOf (s.acting 7) 1) = none ∧ sk.someActive s.cur.weft = false ∧
     (∀ i ∈ s.acting 7, (s.strand? 0 i).map (fun x => (x.active, x.trapvec, pcOk sk.kern x.trapvec.toNat, (x.rv 1).toNat)) =
       some (false, 0, true, 128))) :=
  ⟨⟨canRun_of_all (by decide), fun e he => absurd he List.not_mem_nil, by decide⟩, ⟨canRun_of_runnable (by decide), by decide,
   ⟨_, _, rfl, by decide⟩⟩, canRun_of_all (by decide), by decide⟩
theorem witness_ShadowStores :
    let s := shadowed (issuing shadowSk all8)
    (∀ i ∈ ([.raddF32 0 7 4 7, .raddBf16x2 0 7 4 7, .raddI32 0 7 4 7, .rmaxF32 0 7 4 7, .mst 0 7 4 63] : List Instr),
      s.CanRun shadowSk i) ∧
    (∀ j ∈ s.cur.strands, ∀ x, s.strand? s.cur.skein j = some x → x.rpr 7 = true →
      s.accessCheck shadowSk (x.rp 4) (x.rp 4).toNat 4 (fun v => bit v 1) = .ok (x.rp 4).toNat ∧
      s.isLocal (x.rp 4).toNat = true ∧ s.openShadow shadowSk.ctx (x.rp 4).toNat 4 = some (0, openSh)) :=
  ⟨canRun_of_all (by decide), strands_of_all (by decide)⟩

/-- EngineWords: v1 = 0 and v2 = 16,384 in every strand. -/
def engineSk : Skein := skeinOf kern { Strand.start 0 with v := [(2, 16384)] }
def engined : State := issuing engineSk all8
theorem witness_EngineWords :
    (∀ i ∈ ([.mma 0 15 1 2 0 0, .mma 0 0 1 2 2 3, .mmat 0 0 1 2 6 6, .mmas 0 0 1 2 0 0, .mzero 0 0, .mload 0 0 1, .mdrain 0 0 1 5,
      .mdrain 0 0 1 0, .mchk 0 0] : List Instr), engined.CanRun engineSk i) ∧
    engined.cur.strands.length = (engineSk.liveOf engined.cur.weft).length ∧ engined.copies = [] ∧
    ((engined.core 0).engine.filter (fun o => o.started.isNone)).length < 4 ∧
    (engined.uniform? 0 engined.cur.strands 1) = some 0 ∧ (engined.uniform? 0 engined.cur.strands 2) = some 16384 ∧
    (∀ m ∈ [false, true], ∀ x ∈ List.range 7, (engined.checkScratch engineSk 0 (mtxBytes m x).1 256).toOption.isSome ∧
      (engined.checkScratch engineSk 16384 (mtxBytes m x).2 256).toOption.isSome) ∧
    (engined.checkScratch engineSk 0 16384 256).toOption.isSome ∧
    (∀ f ∈ List.range 6, (engined.checkScratch engineSk 0 (drainBytes f) 256).toOption.isSome) :=
  ⟨canRun_of_all (by decide), by decide⟩
theorem witness_ScratchpadWords :
    (∀ i ∈ ([.spstat 0 7 1, .spscrub 0 7, .spretire 0 7 3, .spretire 0 7 8] : List Instr), ready.CanRun readySk i) ∧
    (ready.weft? ready.cur.skein ready.cur.weft).isSome = true ∧ ready.acting 7 ≠ [] ∧ readySk.kern.scratch ≠ 0 ∧
    (ready.acting 7).head? = some 0 ∧ ready.strand? 0 0 = some readyStrand ∧ (readyStrand.rv 3).toNat = 3 ∧
    (ready.scratch 0).group (3 / 4) = BankGroup.normal :=
  ⟨canRun_of_all (by decide), by decide⟩

/-! ### The machine -/

theorem tablesWf_of {s : State} (h : s.skeins.all (fun e => e.2.all (fun sk => Cells.wf none sk.strands && Cells.wf none sk.wefts)) = true) :
    s.TablesWf := by
  intro k sk hk
  have := List.all_eq_true.mp h _ hk
  simpa [Bool.and_eq_true] using this

/-- A program of one word (ADD64I v2:v3, v62:v63, #5 and then NOPs) loaded as `State.withFetchWord` loads it. -/
def loaded : State := State.reset.withFetchWord 32 0x17C2F805
/-- StepRunsDecoded: a turn of an event, of time alone, of an issue; the issue finds its packet in the core's cache, and the
word decodes. -/
theorem witness_StepRunsDecoded :
    (∃ s : State, s.schedule = { wait := 3, move := .event (.boltStart 0 0 0 0) } :: [] ∧ encode (.boltStart 0 0 0 0) = none) ∧
    (∃ s : State, s.schedule = { wait := 3, move := .idle } :: []) ∧
    loaded.schedule = { wait := 0, move := .issue 0 0 false true none } :: [] :=
  ⟨⟨{ plain with schedule := [{ wait := 3, move := .event (.boltStart 0 0 0 0) }] }, rfl, rfl⟩,
   ⟨{ plain with schedule := [{ wait := 3, move := .idle }] }, rfl⟩, rfl⟩
def turned : State := (({ loaded with schedule := [] } : State).tick (loaded.slack 0)).settle
theorem witness_StepRunsDecoded_issue :
    (turned.skein? 0).map Skein.core = some (some 0) ∧
    (turned.weft? 0 0).map (fun w => (w.activeSince.isSome, w.shadowWait, w.scrubWait, w.retireWait)) = some (true, none, false, none) ∧
    turned.mayIssue 0 = true ∧
    ((turned.regroup 0 0 0).skein? 0).any (fun sk => ((turned.regroup 0 0 0).weft? 0 0).any (fun wf =>
      (groupPick ((turned.regroup 0 0 0).candidates sk 0 wf) ((turned.regroup 0 0 0).hasYielded sk 0 wf) (turned.regroup 0 0 0).clock).any (fun pc => decide (pc = 0 ∧ pc.toNat * 4 < sk.kern.codeSize) &&
        (turned.regroup 0 0 0).cycleFree wf pc &&
        ((turned.regroup 0 0 0).packetAt sk 0 pc).any (fun e =>
          decide (chainTrap sk.kern (e.2.privOf sk) (chainFrom e.1 3 (pc.toNat % 4)) = none ∧
            (decodeUnchained (packetWord e.1 (pc.toNat % 4))).toOption = some (.add64i 0 7 2 62 5)))))) = true := by decide +kernel
theorem witness_IssueIsSound : loaded.TablesWf ∧ (loaded.prepareIssue 0 0 false true none).2 = some (.add64i 0 7 2 62 5) :=
  ⟨tablesWf_of (by decide +kernel), by decide +kernel⟩
theorem witness_ResetState : State.reset.homes.mem = [] := rfl
/-- NothingStops, MemoryKept, TablesKept: a step of a sound state with a byte of memory listed. -/
theorem witness_MemoryKept : let s : State := { plain with homes := homesWith [(5, 7)], schedule := [{ wait := 1, move := .idle }] }
    s.Sound ∧ s.TablesWf ∧ (nextOf (step s)).isSome = true :=
  ⟨by unfold State.Sound; decide, tablesWf_of (by decide), by decide +kernel⟩
theorem test_WordsRead : decodeWord 0x00000000 = .ok .nop ∧ decodeWord 0x407FFFFD = .ok (.br 1 0x3FFFFD) := by decide

/-- TrapsTaken: a register number that no MFS has; no handler; another strand of the weft in a handler; FPTRAPEN full. -/
theorem witness_TrapsTaken :
    (encode (.mfs 0 7 1 0x1A5) = some 0x79C101A5 ∧ ready.Issuing readySk ∧
     wordTrap readySk.kern (ready.privOf readySk) (.mfs 0 7 1 0x1A5) = some 0x0A ∧ ready.Handled readySk 7) ∧
    (let s := issuing plainSk [3]
     s.CanRun plainSk (.trap 7 1) ∧ s.acting 7 = [3] ∧ Tab.get plainSk.strands 3 = some (Strand.start 0) ∧
     (Strand.start 0).trapvec = 0xFFFFFFFF ∧ s.bolt? plainSk.bolt = some demoBolt ∧ demoBolt.ctx = plainSk.ctx ∧
     demoBolt.state = .running ∧ s.ctx? plainSk.ctx = some demoCtx ∧ demoCtx.state = .running) ∧
    (let sk : Skein := { readySk with strands := Tab.upd readySk.strands 7 (fun x => { x with active := true }) }
     let s := issuing sk [0, 1]
     s.CanRun sk (.trap 7 1) ∧ sk.someActive s.cur.weft = true ∧
     (∀ j ∈ s.cur.strands, ∀ x, s.strand? s.cur.skein j = some x → x.rpr 7 = true → x.active = false ∧ x.trapvec ≠ 0xFFFFFFFF)) ∧
    (let sk := skeinOf kern { readyStrand with fptrapen := 0x1F, v := [(2, 0x7F800000), (3, 0xFF800000)] }
     let s := issuing sk all8
     s.CanRun sk (.fadd 0 7 1 2 3 0) ∧ sk.someActive s.cur.weft = false ∧
     (∀ j ∈ s.cur.strands, ∀ x, s.strand? s.cur.skein j = some x → x.rpr 7 = true →
       (ftz32 (fpCtx sk.kern x) (Fmt.fp32.add (fpCtx sk.kern x) (fpv (x.rv 2)) (fpv (x.rb s.cur.k 3)))).flags &&& x.fptrapen ≠ 0 ∧
       x.active = false ∧ x.trapvec ≠ 0xFFFFFFFF ∧ pcOk sk.kern x.trapvec.toNat = true)) :=
  ⟨⟨by decide, ⟨by decide, by decide, by decide, by decide, by decide, by decide⟩, by decide, ⟨by decide, strands_of_all (by decide)⟩⟩,
   ⟨canRun_of_runnable (by decide), by decide⟩, ⟨canRun_of_runnable (by decide), by decide, strands_of_all (by decide)⟩,
   canRun_of_runnable (by decide), by decide, strands_of_all (by decide)⟩

/-! ### Events of the core -/

/-- What an event leaves, read through `f`. -/
def after {α : Type} (o : Out) (f : State → α) : Option α := (nextOf o).map f
/-- Strand 0's status and PC, and whether the weft's records are empty. -/
def seen (s : State) : Option (Status × Word) := (s.strand? 0 0).map (fun x => (x.status, x.pc))
def withWeft (f : Weft → Weft) : Skein := { plainSk with wefts := Tab.upd plainSk.wefts 0 f }
def withStatus (sk : Skein) (i : Nat) (st : Status) (pc : Word) : Skein :=
  { sk with strands := Tab.upd sk.strands i (fun x => { x with status := st, pc := pc }) }
/-- The clock at `n`, over one skein. -/
def clocked (n : Nat) (sk : Skein) : State := { issuing sk [] with clock := n }

def inactiveSk : Skein := withWeft (fun w => { w with activeSince := none })
def twoWefts : Skein := { plainSk with
  wefts := [(0, some { Weft.fresh 4 with activeSince := some 0 }), (4, some { Weft.fresh 4 with activeSince := none })] }
def pathSk : Skein := withStatus plainSk 1 (.pathwait 0) 4
def joinSk : Skein := withStatus (withRecords plainSk [rejoinAt 8 [0, 1] [0] (some 100)]) 0 (.joinwait 8) 8
def sliceSk : Skein := withStatus (withWeft (fun w => { w with sliceSince := [(8, 0)] })) 0 (.rendezvous .slice) 8
def sleepSk : Skein := withStatus plainSk 0 (.sleeping 100) 8
/-- CoreTimers. -/
theorem witness_CoreTimers :
    (∀ e ∈ ([(0, inactiveSk), (1024, twoWefts), (256, pathSk), (100, joinSk), (4096, sliceSk), (100, sleepSk)] : List (Nat × Skein)),
      (clocked e.1 e.2).skein? 0 = some e.2 ∧ e.2.core = some 0 ∧ (clocked e.1 e.2).mayIssue e.2.ctx = true) ∧
    (inactiveSk.hasReady 0 = true ∧ ((clocked 0 inactiveSk).refresh 0).activeCount 0 < 8) ∧
    (clocked 1024 twoWefts).othersReady 0 0 0 true = true ∧
    (pathSk.pathGroups 0).any (fun g => g.1 == 4 && decide (g.2 + 256 ≤ (clocked 256 pathSk).clock)) = true ∧
    ((clocked 256 pathSk).weft? 0 0).map (fun w => w.entries.length) = some 1 := by decide
theorem test_active_set : after (execActiveSetEntry 0 0 (clocked 7 inactiveSk)) (fun t => (t.weft? 0 0).bind Weft.activeSince) = some (some 7) ∧
    after (execActiveSetTimeout 0 0 (clocked 1024 twoWefts)) (fun t => (t.weft? 0 0).map Weft.activeSince) = some (some none) := by decide
theorem test_pathwait : after (execPathwaitTimeout 0 0 4 (clocked 256 pathSk)) (fun t =>
    ((t.strand? 0 0).map Strand.status, (t.strand? 0 1).map Strand.status)) = some (some (.pathwait 256), some .ready) := by decide
theorem test_joinTimeout : after (execJoinTimeout 0 0 8 (clocked 100 joinSk)) (fun t => (seen t, (t.weft? 0 0).map Weft.records)) =
    some (some (.ready, 9), some []) := by decide
theorem test_sliceTimeout : after (execSliceTimeout 0 0 (clocked 4096 sliceSk)) (fun t => (seen t, (t.weft? 0 0).map Weft.sliceSince)) =
    some (some (.ready, 9), some []) := by decide
theorem test_waittDeadline : after (execWaittDeadline 0 0 (clocked 100 sleepSk)) seen = some (some (.ready, 8)) ∧
    after (execWaittDeadline 0 0 (clocked 99 sleepSk)) seen = some (some (.sleeping 100, 8)) := by decide

/-- An open fault record of granule 4. -/
def parkedRec : FaultRec :=
  { home := 0, ctx := 0, granule := 4, code := 3, flags := 1, clock := 0, partition := 0, va := 0x10000, core := 0, joined := 0, domain := 1,
    dfn := 4, tag := 0, skein := 0, toSm := false, delivered := true, remotes := [] }
/-- A request of the skein whose strand 0 waits for it, over granule 4's memory; record 1 is open. -/
def requested (r : Req) (mem : Cells Byte) : State :=
  let s := mapped (issuing { readySk with strands := Tab.upd readySk.strands 0 (fun x => { x with hold := some 5 }) } []) mem
  { s with nextId := 9, reqs := [(5, some r)], homes := { s.homes with faultRecs := [(1, some parkedRec)] } }
def free0 : RemoteAns := { code := 0, key := 0, data := [], flags := 0 }
/-- RepliesArrive: a reply of each kind has reached the core; a NACK of a load. -/
theorem witness_RepliesArrive :
    (∀ kind ∈ [ReqKind.load, .ldga, .store, .atomic, .rst], let s := requested (req kind (.returned 0 3)) []
      s.req? 5 = some (req kind (.returned 0 3)) ∧ s.net.portHold = [] ∧ (s.strand? 0 0).isSome = true ∧
      s.replyDue 5 (req kind (.returned 0 3)) = true ∧ (readySk.weftOf 0).map Prod.fst = some 0 ∧ readySk.xlaneReady 0 = none ∧
      bit (req kind (.returned 0 3)).rdRights (req kind (.returned 0 3)).key = true) ∧
    (let r : Req := { req .load (.returned 3 3) with result := 1 }
     (requested r []).req? 5 = some r ∧ fatalCode 3 = false ∧ (requested r []).recClosed 1 = false) := by decide
def wordMem : Cells Byte := lay 0x10000 [1, 2, 3, 4]
/-- R155, R180, R183, R186, R188. -/
theorem test_replies :
    after (execLoadReply 5 3 free0 (requested (req .load (.returned 0 3)) wordMem)) (fun t => ((t.req? 5).isNone, seen t, (t.strand? 0 0).map (fun x => x.rv 2))) =
      some (true, some (.ready, 1), some 0x04030201) ∧
    after (execAtomicReply 5 free0 (requested { req .atomic (.returned 0 3) with result := 9 } wordMem)) (fun t =>
      ((t.req? 5).isNone, seen t, (t.strand? 0 0).map (fun x => x.rv 2))) = some (true, some (.ready, 1), some 9) ∧
    after (execAtomicReply 5 free0 (requested { req .atomic (.returned 0 3) with reg := 63 } wordMem)) (fun t => ((t.req? 5).isNone, seen t)) =
      some (true, some (.ready, 0)) ∧
    after (execLdgaWrite 5 3 free0 (requested (req .ldga (.returned 0 3)) wordMem)) (fun t => ((t.req? 5).isNone, seen t, (t.strand? 0 0).map (fun x => x.rv 2))) =
      some (true, some (.ready, 0), some 0x04030201) ∧
    after (execStoreAck 5 free0 (requested (req .store (.returned 0 3)) wordMem)) (fun t => ((t.req? 5).isNone, seen t)) = some (true, some (.ready, 0)) ∧
    after (execRstAck 5 free0 (requested { req .rst (.returned 0 3) with result := 17 } wordMem)) (fun t =>
      ((t.req? 5).isNone, (t.strand? 0 0).map Strand.fpflags)) = some (true, some 17) ∧
    after (execLoadReply 5 3 free0 (requested { req .load (.returned 3 3) with result := 1 } wordMem)) (fun t => ((t.req? 5).isNone, seen t)) =
      some (true, some (.parked (.nack 1 0), 0)) :=
  ⟨by decide, by decide, by decide, by decide, by decide, by decide, by decide⟩

/-- A store to module 1 in core 0's write-combining buffer. -/
def peerStore : Req := { req .store .buffered with va := 2 ^ 47 + 0x10000 }
def wcEntry : WcEntry := { domain := 1, line := (2 ^ 47 + 0x10000) / 256, since := 0, bytes := [], reqs := [5] }
def buffered : State := { requested peerStore [] with clock := 100000, cores := [(0, { CoreSt.reset with wc := [wcEntry] })] }
/-- Strand 0 watches the word at 0x10000. -/
def watchAt (stage : Nat) : Watch :=
  { skein := 0, weft := 0, strands := [(0, some 50)], ctx := 0, domain := 1, gen := 0, rights := 0xFFFF, va := 0x10000, cond := 1,
    cmp := 0, reg := 2, pc := 0, stage := stage, code := 0, record := 0, val := 77, moment := 0, seq := 0 }
def watching (stage : Nat) : State :=
  let s := mapped (issuing (withStatus readySk 0 (.parked (.watch 3)) 0) []) (lay 0x10000 [5, 6])
  { s with clock := 50, cores := [(0, { CoreSt.reset with watches := [(3, some (watchAt stage))] })] }
def fetched : Fetch :=
  { core := 0, cluster := 0, ctx := 0, domain := 1, gen := 0, line := 1024, waiting := [], answer := some (0, 0), stage := 4,
    data := List.replicate 64 9 }
def fetching : State := { mapped (issuing readySk []) [] with fetches := [(2, some fetched)] }
theorem witness_CoreArrivals :
    ((buffered.core 0).wc = [wcEntry] ∧ buffered.req? 5 = some peerStore ∧ wcEntry.since + buffered.wcAge peerStore.ctx ≤ buffered.clock ∧
     buffered.isLocal peerStore.va = false ∧ buffered.entryHeld peerStore.va = false) ∧
    (∀ st ∈ [4, 2], Tab.get ((watching st).core 0).watches 3 = some (watchAt st) ∧ (watching st).isLocal 0x10000 = true ∧
      ((watching st).strand? 0 0).map Strand.status = some (.parked (.watch 3))) ∧
    judge (watching 2).homes 1 (watchAt 2).gen 0x10000 .read 0 true = .page attr0 frame0 ∧
    bit (watchAt 2).rights attr0.key = true ∧
    (Tab.get fetching.fetches 2 = some fetched ∧ fetching.isLocal (fetched.line * 64) = true) := by decide
theorem test_core_arrivals :
    after (execWcAgeExpiry 0 wcEntry.line buffered) (fun t => ((t.core 0).wc, (t.req? 5).map Req.stage)) =
      some ([], some (.remote (buffered.portOf peerStore.va))) ∧
    after (execWakePacket 0 3 free0 (watching 4)) (fun t => (seen t, (t.strand? 0 0).map (fun x => x.rv 2), Tab.get (t.core 0).watches 3)) =
      some (some (.ready, 1), some 77, none) ∧
    after (execWatchTimeout 0 3 free0 (watching 2)) (fun t => (seen t, (t.strand? 0 0).map (fun x => x.rv 2), Tab.get (t.core 0).watches 3)) =
      some (some (.ready, 1), some 0x605, none) ∧
    after (execInstructionFetchReply 2 fetching) (fun t => ((Cells.get [] t.homes.icache 0).map ILine.line, Tab.get t.fetches 2)) =
      some ([1024], none) :=
  ⟨by decide, by decide, by decide, by decide⟩

/-! ### Events of the homes -/

theorem witness_HomesServe :
    (∀ kind ∈ [ReqKind.load, .store, .atomic], let r := req kind .atHome
      let s := requested r []
      s.req? 5 = some r ∧ s.inOrder 5 r = true ∧ s.writeHeld 5 r = false ∧
      (s.poolTokens r.ctx r.domain r.va r.size r.tokens frame0).isSome = true ∧ judge s.homes r.domain r.gen r.va r.kind.access r.wrRights false = .page attr0 frame0 ∧
      r.va % 16384 + r.data.length ≤ 16384 ∧ r.va % 16384 + r.size ≤ 16384 ∧ bit r.rdRights attr0.key = true ∧
      (r.atomicStep (getBytes s.homes frame0 r.va r.size)).length = r.size) ∧
    (let r := req .store .walking
     let s : State := { requested r [] with homes := { homesWith [] with walks := [(⟨0, 1, 0x10000⟩, .request 5)] } }
     s.req? 5 = some r ∧ s.homes.walks.find? (fun e => e.2 == .request 5) = some (⟨0, 1, 0x10000⟩, .request 5) ∧
     (s.walkTokens ⟨0, 1, 0x10000⟩).any (fun t => let u := t.endWalk (.request 5)
       !s.writeHeld 5 r && (u.poolTokens r.ctx r.domain r.va r.size r.tokens frame0).isSome) = true ∧
     judge s.homes r.domain r.gen r.va r.kind.access r.wrRights true = .page attr0 frame0) := by decide
theorem witness_HomesServe_queues : plain.NoEventQueue := fun _ he => absurd he List.not_mem_nil
def addMem : Cells Byte := lay 0x10000 [1, 0, 0, 0, 8]
/-- R154, R181, R186: the old value, and the bytes written. -/
def performed (kind : ReqKind) : State :=
  (requested (req kind .atHome) addMem).performReq 5 (req kind .atHome) attr0 frame0
theorem test_homes_serve :
    (readBytes (performed .store).homes.mem 0x10000 5, ((performed .store).req? 5).map Req.stage) =
      ([1, 2, 3, 4, 8], some (.replied 0 1)) ∧
    (readBytes (performed .atomic).homes.mem 0x10000 5, ((performed .atomic).req? 5).map (fun r => (r.stage, r.result))) =
      ([6, 0, 0, 0, 8], some (.replied 0 1, 1)) ∧
    (readBytes (performed .load).homes.mem 0x10000 5, ((performed .load).req? 5).map Req.stage) =
      ([1, 0, 0, 0, 8], some (.replied 0 0)) := ⟨by decide +kernel, by decide +kernel, by decide +kernel⟩

def pages : State := mapped (issuing readySk []) []
def granState (g : GranState) (mem : Cells Byte) : State :=
  let s := mapped (issuing readySk []) mem
  { s with homes := { s.homes with gran := [(gran4, g)] } }
/-- The tenth HBM frame of granule 4's home. -/
def ownFrame : Nat := hbmFrames * homeOf pages.homes 1 0x10000 + 9
theorem witness_PageCommands :
    (let s := mapped (issuing readySk []) []
     s.present gran4 = some (attr0, frame0) ∧ s.granState gran4 = .mapped ∧ Cells.get [] s.homes.granCmds gran4 = [] ∧
     (∀ e ∈ [(0, ownFrame), (1, 2 ^ 34 - 1)], s.frameUsed e.2 = false ∧ s.withdrawn e.2 = false ∧
       frameFits (homeOf s.homes 1 (4 * 16384)) e.1 e.2 = true) ∧ attr0.cmpOk = true ∧ Tab.get s.homes.ownership 0 = some { withdrawing := false, shared := false, domain := 1 } ∧
     s.bumping 1 = false ∧ s.partOfDomain 1 = none ∧ Tab.get s.homes.withdrawals 7 = none) ∧
    (∀ g ∈ [GranState.moving 9 1, .recoding true, .recoding false, .xrevoking [3], .xrevoking [3 + 256]],
      (granState g []).granState gran4 = g ∧ (granState g []).present gran4 = some (attr0, frame0)) ∧
    (let w : Withdrawal := { base := 0, frame := 0, count := 1, since := 0, granules := 0, dirty := 0, parts := [], inflight := [.request 5], released := false }
     let s := requested (req .load (.replied 0 2)) []
     let s1 : State := { s with clock := 850000, homes := { s.homes with withdrawals := [(7, some w)] } }
     Tab.get s1.homes.withdrawals 7 = some w ∧ w.since + 850000 ≤ s1.clock ∧ s1.req? 5 = some (req .load (.replied 0 2))) := by decide
theorem test_page_commands :
    after (execMigrate 1 4 ownFrame pages) (fun t => t.granState gran4) = some (.moving ownFrame 0) ∧
    after (execTiermove 1 4 1 (2 ^ 34 - 1) pages) (fun t => t.granState gran4) = some (.moving (2 ^ 34 - 1) 1) ∧
    after (execCompress 1 4 pages) (fun t => t.granState gran4) = some (.recoding true) ∧
    after (execRecodingComplete 1 4 (granState (.recoding true) [])) (fun t => (t.granState gran4, (Tab.get t.homes.stage2 (2 ^ 36 + 4)).map Stage2.cmp)) =
      some (.mapped, some true) ∧
    after (execFilterInvalidation 3 1 4 (granState (.xrevoking [3]) [])) (fun t => t.granState gran4) = some (.xrevoking [3 + 256]) ∧
    after (execFilterAck 3 1 4 (granState (.xrevoking [3 + 256]) [])) (fun t => t.granState gran4) = some .mapped ∧
    after (execExtentGrant 65535 2 true pages) (fun t => (Tab.get t.homes.ownership 65535).map Extent.domain) = some (some 2) ∧
    after (execExtentWithdraw 0 pages) (fun t => (Tab.get t.homes.ownership 0).map Extent.withdrawing) = some (some true) ∧
    after (execGenbump 1 pages) (fun t => t.bumping 1) = some true :=
  ⟨by decide, by decide, by decide, by decide, by decide, by decide, by decide, by decide, by decide⟩

/-! ### Shadows, copies, the engine, the scratchpad -/

/-- Strand 0's shadow operation, on slot 0 of context 0. -/
def shdOp (kind stage : Nat) : ShdOp :=
  { kind := kind, core := 0, skein := 0, weft := 0, strands := [0], reg := 2, ctx := 0, slot := 0, vals := [(0, 64)],
    domain := 1, arrived := [7], stage := stage, answer := 0 }
def shadowing (sh : Shadow) (o : ShdOp) (mem : Cells Byte) : State :=
  { mapped (issuing readySk []) mem with
    contexts := [(0, some { keyed with shadows := [(0, some sh)] })], shdops := [(1, some o)] }
def openingSh : Shadow := { openSh with state := .opening, openWait := [7] }
def granSh : Shadow := { openSh with granules := [(shKey 0 0x10000, some { frame := 9 })] }
def preparingSh : Shadow :=
  { granSh with state := .preparing, arrived := 1, openWait := [(plain.shHome 1 0x10000)] }
def rstReq : Req := { req .rst .atHome with fn := 2, expect := 64 }
theorem witness_ShadowEvents :
    ((shadowing openingSh (shdOp 0 0) []).shadow? 0 0 = some openingSh ∧ 7 ∈ (shdOp 0 0).arrived ∧ openingSh.openWait = [7]) ∧
    ((shadowing openSh (shdOp 1 0) []).slotOf 0 64 = some (0, openSh) ∧ (shdOp 1 0).vals = [(0, 64)] ∧
     (shadowing openSh (shdOp 1 0) []).shdStale (shdOp 1 0) = false ∧
     (shadowing openSh (shdOp 1 0) []).shdStale { shdOp 1 0 with gen := 1 } = true) ∧
    (∀ k ∈ [0, 1, 2], let s := shadowing openSh (shdOp k 2) []
      Tab.get s.shdops 1 = some (shdOp k 2) ∧ (shdOp k 2).strands.Nodup ∧ s.blockHeld 0 openSh = false ∧ (s.skein? 0).isSome = true ∧ (s.weft? 0 0).isSome = true) ∧
    (let s : State := { shadowing granSh (shdOp 1 0) [] with reqs := [(5, some rstReq)] }
     s.req? 5 = some rstReq ∧ s.inOrder 5 rstReq = true ∧ s.writeHeld 5 rstReq = false ∧ s.slotOf 0 rstReq.expect.toNat = some (0, granSh) ∧
     judge s.homes rstReq.domain rstReq.gen rstReq.va .write rstReq.wrRights true = .page attr0 frame0 ∧
     Tab.get granSh.granules (shKey 0 rstReq.va) = some { frame := 9 }) ∧
    (let s := shadowing preparingSh (shdOp 1 1) []
     preparingSh.openWait.head? ≠ some 128 ∧ (∀ h ∈ preparingSh.openWait, ∀ p ∈ preparingSh.pages.filter (fun p => s.isLocal p.2 &&
       s.homeFor (s.domainOf 0) p.2 == h), s.granState (granKey (transDomain s.homes (s.domainOf 0) p.2) p.2) = .mapped)) ∧
    (let sh := { preparingSh with openWait := [], block := 2 ^ 47 + 0x10000 }
     let s := shadowing sh (shdOp 1 1) []
     s.isLocal sh.block = false ∧ s.isLocal sh.base = true ∧ s.page (s.domainOf 0) sh.base = some (attr0, frame0)) ∧
    (let sh := { preparingSh with replicas := [0x14000], openWait := [plain.shHome 1 0x14000] }
     let s : State := { shadowing sh (shdOp 1 1) [] with clock := 850000 }
     sh.openWait.filter (fun h => sh.pages.any (fun p => decide (p.1 ≠ 0 ∧ s.shHome (s.domainOf 0) p.2 = h))) ≠ []) :=
  ⟨by decide, by decide, by decide, by decide +kernel, by decide +kernel, by decide, by decide⟩
def shState (s : State) : Option (ShState × Nat × Nat) := (s.shadow? 0 0).map (fun x => (x.state, x.reason, x.arrived))
/-- R227 to R234. -/
theorem test_shadow_open : after (execShadowOpenRequest 1 7 (shadowing openingSh (shdOp 0 0) [])) (fun t =>
      ((Tab.get t.shdops 1).map ShdOp.stage, (t.shadow? 0 0).map Shadow.openWait)) = some (some 1, some []) ∧
    after (execShdReply 1 (shadowing openingSh (shdOp 0 2) [])) (fun t => (seen t, (t.strand? 0 0).map (fun x => x.rv 2))) =
      some (some (.ready, 1), some 128) := ⟨by decide +kernel, by decide +kernel⟩
theorem test_publish_arrival : after (execShpubArrival 1 (shadowing openSh (shdOp 1 0) [])) shState = some (some (.preparing, 0, 1)) := by
  decide +kernel
theorem test_shadow_write :
    let s : State := { shadowing granSh (shdOp 1 0) (lay (9 * 16384) [7, 0, 0, 0]) with reqs := [(5, some rstReq)] }
    after (execShadowWrite 5 s) (fun t => readBytes t.homes.mem (9 * 16384) 4) = some [12, 0, 0, 0] := by
  simp only []; decide +kernel
theorem test_publish : after (execPublishPrepare 0 0 (plain.shHome 1 0x10000) (shadowing preparingSh (shdOp 1 1) [])) (fun t =>
      (t.granState gran4, (t.shadow? 0 0).map Shadow.openWait)) = some (.prepared 0 0, some []) ∧
    after (execPublishCommit 0 0 (shadowing { preparingSh with openWait := [], block := 2 ^ 47 + 0x10000 } (shdOp 1 1) [])) (fun t =>
      (shState t, (Tab.get t.homes.stage2 (2 ^ 36 + 4)).map Stage2.frame)) = some (some (.committed, 0, 1), some 9) ∧
    after (execPublishAbort 0 0 (shadowing { preparingSh with openWait := [], votes := [(0, 0x10000, 4, 1)] } (shdOp 1 1) [])) shState =
      some (some (.failed, 1, 1)) := ⟨by decide +kernel, by decide +kernel, by decide +kernel⟩

/-- A copy of granule 4's first 64 bytes into granule 5, in flight: its chunk has crossed the Loom. -/
def flying0 : Copy := { copyOf 3 0x10000 0x14000 0 with phase := 2 }
def flying : State := { mapped (issuing readySk []) (lay 0x10000 [1, 2, 3]) with copies := [(6, some flying0)] }
def piece : Piece := { src := 0x10000, dst := 0x14000, len := 64, off := 0 }
def throughCopy : State := { flying with copies := [(6, some { flying0 with done := 64, phase := 0 })] }
def lostCopy : State := { flying with copies := [(6, some { flying0 with dst := 0x18000 })] }
def attr5 : Attr := { attr0 with dfn := 5 }
def frame5 : Stage2 := { frame0 with frame := 5 }
def deniedCopy : State :=
  { flying with homes := { flying.homes with attrs := [(gran4, some ⟨attr0, frame0, false⟩), (gran5, some ⟨{ attr0 with key := 1, dfn := 5 }, frame5, false⟩)] } }
/-- One engine operation in core 0's queue. -/
def engineOp (kind : Nat) (started : Option Nat) : EngineOp :=
  { skein := 0, weft := 0, kind := kind, tile := 3, aCore := 0, aAddr := 0, bCore := 0, bAddr := 16384, af := 0, bf := 0, seq := 0,
    issued := 0, started := started, readA := none, readB := none }
def withCore (s : State) (f : CoreSt → CoreSt) : State := { s with cores := [(0, f CoreSt.reset)] }
def working (kind : Nat) (started : Option Nat) : State :=
  withCore (clocked 500 engineSk) (fun c => { c with engine := [engineOp kind started] })
def scr (f : Scratch → Scratch) : State := withCore (clocked 0 engineSk) (fun c => { c with scratch := f Scratch.zero })
def spanA : Span := { core := 0, lo := 0, len := 8192 }
def spanB : Span := { core := 0, lo := 16384, len := 8192 }
def idleEngine : State := withCore (clocked 500 engineSk) (fun c => { c with engine := [] })
def parityState : State := scr (fun x => { x with queue := [⟨7, 767, 5, true⟩] })
def rebuildState : State := scr (fun x => { x with
  groups := [(7, { BankGroup.normal with rebuilding := true, retired := 4 })], sel := [(7 * 768 + 767, 9)] })
def scrubState : State := clocked 0 (withWeft (fun w => { w with scrubWait := true }))
/-- UnitsWork: a copy with a chunk to do, one that is through, one refused (no page at its destination), one denied (key 1). -/
theorem witness_UnitsWork_copies :
    (flying.copyReady 6 = some (flying0, [piece]) ∧ flying.judgePiece flying0 piece = .ok ∧ flying.copyRemote flying0 = false ∧ (flying.copyTokens flying0 [piece]).isSome = true ∧
     flying.page (flying.domainOf 0) piece.src = some (attr0, frame0) ∧ flying.page (flying.domainOf 0) piece.dst = some (attr5, frame5) ∧
     flying.isLocal piece.src = true ∧ flying.isLocal piece.dst = true ∧ piece.dst % 16384 + piece.len ≤ 16384) ∧
    (Tab.get throughCopy.copies 6 = some { flying0 with done := 64, phase := 0 } ∧ flying0.total ≤ 64 ∧
     (throughCopy.skein? 0).isSome = true) ∧
    (lostCopy.copyReady 6 = some ({ flying0 with dst := 0x18000 }, [{ piece with dst := 0x18000 }]) ∧
     lostCopy.copyRemote { flying0 with dst := 0x18000 } = false ∧
     lostCopy.judgePiece { flying0 with dst := 0x18000 } { piece with dst := 0x18000 } = .nack 1 0x18000 5 ∧ fatalCode 1 = false ∧
     (lostCopy.openFault { ctx := 0, domain := 1, va := 0x18000, code := 1, flags := 5, core := 0, tag := 0, skein := 0 }).isSome = true) ∧
    (deniedCopy.copyReady 6 = some (flying0, [piece]) ∧ deniedCopy.judgePiece flying0 piece = .deny 0x14000 ∧
     (deniedCopy.bolt? 0).map Bolt.state = some .running ∧ (deniedCopy.ctx? 0).map Context.state = some .running) :=
  ⟨by decide +kernel, by decide +kernel, by decide +kernel, by decide +kernel⟩
/-- R220, R222, R224. -/
theorem test_copy : after (execCopyChunk 6 free0 flying) (fun t => (readBytes t.homes.mem (5 * 16384) 4, (Tab.get t.copies 6).map Copy.done)) =
      some ([1, 2, 3, 0], some 64) ∧
    after (execCopyRetire 6 throughCopy) (fun t => (Tab.get t.copies 6, (t.skein? 0).map Skein.doneCopies)) =
      some (none, some [{ tag := 0, seq := 0, dest := some ⟨0x14000, 64, 1, 64⟩, bad := false }]) ∧
    after (execCopyNack 6 0 free0 lostCopy) (fun t => ((Tab.get t.copies 6).map (fun c => (c.done, c.parked.isSome)),
      (Tab.list t.homes.faultRecs).map (fun e => (e.2.code, e.2.va)))) = some (some (0, true), [(1, 0x18000)]) ∧
    after (execCopyViolation 6 free0 deniedCopy) (fun t => ((t.ctx? 0).map Context.state, (t.bolt? 0).map Bolt.state)) =
      some (some .faulted, some .killed) := ⟨by decide +kernel, by decide +kernel, by decide +kernel, by decide +kernel⟩

/-- UnitsWork: an engine operation that waits, an MZERO and an MMA that have started; a parity delta; a group in rebuild;
damage and SPSCRUB. -/
theorem witness_UnitsWork_units :
    ((working 3 none).core 0).engine = [engineOp 3 none] ∧ ((working 3 (some 1)).skein? 0).isSome = true ∧
    ((engineOp 0 (some 1)).reads = [spanA, spanB] ∧ (working 0 (some 1)).spanHeld spanA = false ∧
     (working 0 (some 1)).spanHeld spanB = false ∧ (idleEngine.readOperand 0 spanA 0 none).2.isSome = true ∧
     ((idleEngine.readOperand 0 spanA 0 none).1.readOperand 0 spanB 0 none).2.isSome = true ∧ ({ engineOp 0 none with winA := true, winB := true }).peerReads =
       [(false, spanA), (true, spanB)] ∧ (working 0 none).sameReads 1 spanA = []) ∧
    (parityState.scratch 0).queue.find? (fun q => q.group == 7 && q.complete) = some ⟨7, 767, 5, true⟩ ∧
    ((rebuildState.scratch 0).group 7 = { BankGroup.normal with rebuilding := true, retired := 4 }) ∧
    (rebuildState.scratch 0).poison = [] ∧ ((scr id).scratch 0).eccData = [] ∧ ((scr id).scratch 0).eccSel = [] ∧
    ((scr id).scratch 0).standIn 24575 = false ∧ (scrubState.weft? 0 0).map Weft.scrubWait = some true :=
  ⟨by decide +kernel, by decide +kernel, by decide +kernel, by decide +kernel, by decide +kernel, by decide +kernel, by decide +kernel⟩
/-- R249, R238; R196, R207, R212. -/
theorem test_engine : after (execEngineOpStart 0 (working 3 none)) (fun t => (t.core 0).engine.map EngineOp.started) = some [some 500] ∧
    after (execEngineOpDone 0 (working 3 (some 1))) (fun t => ((t.core 0).engine, (t.skein? 0).map (fun y => y.tile 3))) =
      some ([], some Tile.zero) := ⟨by decide +kernel, by decide +kernel⟩
theorem test_parity : after (execParityApply 0 7 parityState) (fun t => ((t.scratch 0).queue, (t.scratch 0).selWord 7 767)) =
      some ([], 5) ∧
    after (execScrubPass 0 [(24575, 1)] [] (scr id)) (fun t => ((t.scratch 0).corr, (t.scratch 0).eccData)) = some (1, []) ∧
    after (execSpscrubComplete 0 0 scrubState) (fun t => (t.weft? 0 0).map Weft.scrubWait) = some (some false) :=
  ⟨by decide +kernel, by decide +kernel, by decide +kernel⟩

/-! ### Gangs and contexts: partition 0 holds quadrant 0 for domain 1 -/

def carveArgs : CarveArgs :=
  { quadMask := 1, domain := 1, settings := PartSettings.default, priv := true, keys := 3 :: List.replicate 15 0, roots := [],
    sys := ⟨0x20000, 4⟩,
    fault := ⟨0x30000, 4⟩, event := ⟨0x40000, 4⟩, extents := [(0, 1)] }
def demoPart : Partition := { Partition.carvedAt carveArgs 0 with ready := true }
/-- A context in a state, with its bolt and skein in core 0, in partition 0. -/
def inPart (x : Context) (sk : Skein) : State :=
  { issuing sk [] with contexts := [(0, some x)], parts := [(0, some demoPart)] }
/-- A record that binds the one skein of bolt 0 of launch slot 0 to core 0. -/
def bindWords : List Word := [0x80000000, 0x02A00000, 0x00010001, 0, 0x2000, 1, 0xFFFF, 0]
def bindKernel : Kernel := { kern with rstack := 4, scratch := 1024 }
def bindLaunch : Launch := { demoLaunch with kern := bindKernel }
/-- The launch admitted and no bolt of it started. -/
def binding (slots : Tab BindSlot) : State :=
  { inPart { demoCtx with state := .ready } plainSk with
    skeins := [], bolts := [], launches := [(4, some bindLaunch)], cores := [(0, { CoreSt.reset with slots := slots })] }
def bound : State := binding [(31, some { words := bindWords, status := 1, skein := none })]
/-- The context is pre-empted, or saved, or in the midst of it. -/
def preempting (p : Partition) (sk : Skein) : State :=
  { inPart { demoCtx with state := .preempting } sk with
    parts := [(0, some { p with preempt := some 0, preempting := [0] })], bolts := [(0, some { demoBolt with state := .halting })] }
def savedCtx : Context := { demoCtx with state := .saved, sharedSince := some 0 }
theorem witness_GangsRun_binding :
    ((binding []).ctx? 0 = some { demoCtx with state := .ready } ∧ (binding []).part? 0 = some demoPart ∧ bindWords.length = 8 ∧
     bindValid bindWords = true ∧ (binding []).bindRefused 0 31 bindWords = false) ∧
    (bound.waitingBinds 0 0 0 0 = [(0, 31, bindWords)] ∧ bound.launchAt 0 0 = some (4, bindLaunch) ∧ bindKind bindWords = 0 ∧
     bindNskein bindWords = 1 ∧ bindSkein bindWords = 0 ∧ bound.residentCtx 0 0 = true ∧ bound.boltOf 4 0 = none ∧ bound.schedKeeps 0 4 bindLaunch none 0 [(0, 31, bindWords)] = true ∧ bound.rebuildsOn 0 = false ∧
     0 ∉ bindLaunch.retired ∧ 0 < bindLaunch.nbolt ∧ bindLaunch.kern.rstack ≤ 4 ∧
     (bound.scratch 0).usedWords (bindScratch bindWords) bindLaunch.kern.scratch = []) := ⟨by decide +kernel, by decide +kernel⟩
def endedSk : Skein := { plainSk with strands := (List.range 8).map (fun i => (i, some { Strand.start 0 with status := .exited })) }
def parkedSk : Skein := withStatus plainSk 3 (.parked .launchb) 8
theorem witness_GangsRun :
    (endedSk.live = [] ∧ (inPart demoCtx endedSk).mayIssue 0 = true) ∧
    (let x := { demoCtx with wdexp := 20 }
     let s : State := { inPart x plainSk with bolts := [(0, some { demoBolt with watchdog := 2 ^ 20 })] }
     (s.bolt? 0).map Bolt.watchdog = some (2 ^ x.wdexp)) ∧
    ((inPart demoCtx plainSk).partBusy 0 = false ∧ demoPart.preempt = none ∧ demoCtx.state = .running) ∧
    (let p := { demoPart with preempt := some 0, preempting := [0] }
     let s := preempting demoPart parkedSk
     s.part? 0 = some p ∧ s.toSave p ≠ [] ∧ (∀ e ∈ s.skeinsOf (s.toSave p), s.skeinHalted e.1 e.2 p.abandoned = true)) ∧
    (let s := preempting { demoPart with haltedAt := some 5 } parkedSk
     (s.ctx? 0).map (fun x => (x.state, x.destroyWait)) = some (.preempting, false) ∧ s.cores = []) ∧
    (let s := inPart savedCtx { plainSk with core := none }
     savedCtx.restoring = none ∧ savedCtx.spilling = none ∧ s.partBusy 0 = false ∧ s.bumping savedCtx.domain = false) ∧
    (let s := inPart { savedCtx with restoring := some 0 } plainSk
     (∀ e ∈ Tab.list s.bolts, e.2.ctx = 0 → e.2.state = .running) ∧ s.repliesDue 0 = false) :=
  ⟨by decide, by decide, by decide, by decide +kernel, by decide, by decide, by decide⟩
/-- R264, R265. -/
theorem test_bind : after (execBindRecordWrite 0 31 bindWords (binding [])) (fun t => (Tab.get (t.core 0).slots 31).map BindSlot.status) =
      some (some 1) ∧
    after (execBoltStart 0 0 0 0 bound) (fun t => ((Tab.list t.bolts).map (fun e => e.2.state), (Tab.list t.skeins).map (fun e => e.2.core),
      (t.ctx? 0).map Context.state)) = some ([.running], [some 0], some .running) ∧
    after (execSkeinEnd 0 (inPart demoCtx endedSk)) (fun t => (t.skein? 0).isNone) = some true :=
  ⟨by decide +kernel, by decide +kernel, by decide +kernel⟩
/-- R268, R274, R332, R333. -/
theorem test_preempt : after (execPreempt .scheduler 0 (some 0) (inPart demoCtx plainSk)) (fun t =>
      ((t.ctx? 0).map Context.state, (t.bolt? 0).map Bolt.state, (t.part? 0).map Partition.preempting)) =
      some (some .preempting, some .halting, some [0]) ∧
    after (execHaltComplete 0 { preempting demoPart parkedSk with clock := 9 }) (fun t => ((t.part? 0).map Partition.haltedAt,
      (t.strand? 0 3).map (fun x => (x.status, x.pc)))) = some (some (some 9), some (.ready, 8)) ∧
    after (execAbandonTimeout 0 { preempting demoPart plainSk with clock := 6800 }) (fun t => (t.part? 0).map Partition.abandoned) =
      some (some true) :=
  ⟨by decide +kernel, by decide +kernel, by decide +kernel⟩
theorem test_restore : after (execImageSpillStart 0 { inPart savedCtx plainSk with clock := 85000 }) (fun t => (t.ctx? 0).bind Context.spilling) =
      some (some 85000) ∧
    after (execSpillComplete 0 (inPart { savedCtx with spilling := some 0 } plainSk)) (fun t => (t.ctx? 0).map Context.state) =
      some (some .spilled) ∧
    after (execRestore .scheduler 0 (inPart savedCtx plainSk)) (fun t => (t.ctx? 0).bind Context.restoring) = some (some 0) ∧
    after (execRestoreComplete 0 (inPart { savedCtx with restoring := some 0 } plainSk)) (fun t => (t.ctx? 0).map (fun x => (x.state, x.restoring))) =
      some (some (.running, none)) ∧
    after (execWatchdog 0 { inPart { demoCtx with wdexp := 20 } plainSk with bolts := [(0, some { demoBolt with watchdog := 2 ^ 20 })] }) (fun t =>
      ((t.ctx? 0).map Context.state, (t.bolt? 0).map (fun b => (b.state, b.skeins)))) = some (some .faulted, some (.killed, [])) :=
  ⟨by decide +kernel, by decide +kernel, by decide +kernel, by decide +kernel, by decide +kernel⟩

/-! ### Queue commands: queue 2, whose ring of 16 records lies at 0x14000 -/

def demoQueue (kind : Nat) : Queue :=
  { kind := kind, state := .qopen, err := 0, lost := 0, ctx := 0, domain := 1, partition := 0, base := 0x14000, l := 4, prio := 7,
    head := 0, tail := 1, waiting := [], marked := false, failed := none }
/-- A record of an opcode, with no completion, and its argument bytes. -/
def commandBytes (op : Nat) (args : List Byte) : List Byte :=
  bytesOf 2 op ++ List.replicate 14 0 ++ args ++ List.replicate (48 - args.length) 0
def queued (kind op : Nat) (args : List Byte) (x : Context) : State :=
  { inPart { x with keys := [(0, 3)] } plainSk with
    homes := homesWith (launchMem ++ lay 0x14000 (commandBytes op args)), queues := [(2, some (demoQueue kind))] }
def takesB (s : State) (qn op : Nat) (used : List (Nat × Nat)) (q : Queue) (b : List Byte) : Bool :=
  decide (Tab.get s.queues qn = some q ∧ q.kind ≤ 1 ∧ s.takeable qn q = true ∧ s.arbiter qn q = true) &&
  decide (s.headRecord q = .ok b ∧ fieldAt b 0 2 = op ∧ fieldAt b 2 1 < 2 ∧ fieldAt b 3 1 = 0 ∧ fieldAt b 8 8 = 0) &&
  decide ((q.kind = 0 → op ≤ 5) ∧ (q.kind = 1 → 5 < op) ∧ unusedZero b used = true)
theorem takes_of {s : State} {qn op : Nat} {used : List (Nat × Nat)} {q : Queue} {b : List Byte}
    (h : takesB s qn op used q b = true) : s.Takes qn op used q b q.ctx := by
  simp only [takesB, Bool.and_eq_true, decide_eq_true_eq] at h
  obtain ⟨⟨⟨h1, h2, h3, h4⟩, h5, h6, h7, h8, h9⟩, h10, h11, h12⟩ := h
  have hn : ¬ (q.kind = 1 ∧ op ≤ 5) := fun hh => absurd (h11 hh.1) (by omega)
  refine ⟨h1, h2, h3, h4, h5, h6, h7, h8, h9, h10, by rw [if_neg hn], by rw [if_neg hn, List.append_nil]; exact h12, ?_⟩
  intro hk ho
  exact absurd ⟨hk, ho⟩ hn
/-- CommandsRun: every opcode of R344, the first five from a command queue, the others from a system queue. -/
theorem witness_CommandsRun :
    ∀ e ∈ ([(0, 0x0001, [(16, 8)], bytesOf 8 0x10000), (0, 0x0002, [(16, 32)], bytesOf 32 (2 ^ 255)), (0, 0x0003, [(16, 32)], bytesOf 32 1),
        (0, 0x0004, [(16, 8)], bytesOf 8 0x10200), (0, 0x0005, [(16, 2)], bytesOf 2 9), (1, 0x0101, [(16, 17), (40, 8)], [1, 3]),
        (1, 0x0102, [(16, 1)], []), (1, 0x0103, [(16, 17)], [0, 3, 2]), (1, 0x0104, [(16, 2), (24, 8)], bytesOf 2 1023),
        (1, 0x0105, [(16, 1), (24, 9)], bytesOf 8 0 ++ bytesOf 8 0x10000 ++ [16]), (1, 0x010C, [(16, 1), (24, 16)], bytesOf 8 0 ++ bytesOf 8 0x10000 ++ bytesOf 8 4096),
        (1, 0x0106, [(16, 3), (24, 8)], [0, 4, 7] ++ List.replicate 5 0 ++ bytesOf 8 0x10000), (1, 0x0107, [(16, 2)], [0, 5]),
        (1, 0x0108, [(16, 4)], bytesOf 4 70000), (1, 0x0109, [(16, 16)], bytesOf 8 0x10000 ++ bytesOf 8 16384),
        (1, 0x010A, [(16, 8)], bytesOf 8 0x10000), (1, 0x010B, [(16, 40)], List.replicate 32 9 ++ bytesOf 8 0x10000)] :
        List (Nat × Nat × List (Nat × Nat) × List Byte)),
      (queued e.1 e.2.1 e.2.2.2 demoCtx).Takes 2 e.2.1 e.2.2.1 (demoQueue e.1) (commandBytes e.2.1 e.2.2.2) 0 := by
  intro e he
  fin_cases he <;> exact takes_of (by decide +kernel)
def cmd (kind op : Nat) (args : List Byte) : State := queued kind op args demoCtx
def heldLaunch : Launch := { demoLaunch with state := .heldSpan, span := true, sgen := 9, spanList := [0, 5], ready := [5] }
/-- The hypotheses of the commands' clauses that go beyond `Takes`. -/
theorem witness_CommandsRun_more :
    ((cmd 0 1 (bytesOf 8 0x10000)).entryFree 0 = true ∧ parseRecord recordBytes = some launchRec ∧
     ((((cmd 0 1 (bytesOf 8 0x10000)).spent 0x14000 64).taken 2 (demoQueue 0)).hostRead 0 0x10000 256).toOption.bind (fun e =>
       (e.2.hostRead 0 0x10100 64).toOption.map (fun h => (e.1, h.1, (h.2.refuse 0 launchRec h.1).toOption))) =
       some (recordBytes, headerBytes, some launchKern)) ∧
    ((cmd 1 0x0101 [1, 3]).freeCtx = some 1 ∧ (∀ e ∈ Tab.list (cmd 1 0x0102 []).queues, e.2.kind = 0 → e.2.ctx ≠ 0)) ∧
    (ringOk 0x10000 4 = true ∧ ringOk 0x10000 17 = false ∧
     (List.range 64).find? (fun k => (Tab.get (cmd 1 0x0106 []).queues (0 * 64 + k)).isNone) = some 0) ∧
    (pageGrans (homesWith []) 1 0x10000 = 1 ∧ (cmd 1 0x010A []).granState gran4 = .mapped) ∧
    (let s : State := { plain with launches := [(4, some heldLaunch)] }
     s.heldSpanOf 0 9 = some (4, heldLaunch) ∧ heldLaunch.spanList.head? = some s.modNo) :=
  ⟨⟨by decide +kernel, by decide +kernel, by decide +kernel⟩, by decide +kernel, by decide +kernel,
   by decide +kernel, by decide +kernel⟩
/-- R311 to R313. -/
theorem test_host_launch : after (execLaunchCmd 2 (cmd 0 1 (bytesOf 8 0x10000))) (fun t => ((Tab.list t.launches).map (fun e => (e.2.kern.base,
      e.2.nbolt, e.2.state)), (Tab.get t.queues 2).map Queue.head)) = some ([(0x10100, 1, .admitted)], some 1) ∧
    after (execEvset 2 (cmd 0 2 (bytesOf 32 (2 ^ 255)))) (fun t => (t.ctx? 0).map Context.ev) = some (some (2 ^ 255)) ∧
    after (execEvclear 2 (queued 0 3 (bytesOf 32 5) { demoCtx with ev := 7 })) (fun t => (t.ctx? 0).map Context.ev) = some (some 2) ∧
    after (execEvread 2 (queued 0 4 (bytesOf 8 0x10200) { demoCtx with ev := 0x70605 })) (fun t => readBytes t.homes.mem 0x10200 4) =
      some [5, 6, 7, 0] ∧
    after (execCancel 2 { cmd 0 5 (bytesOf 2 9) with launches := [(4, some heldLaunch)] }) (fun t => (Tab.list t.launches).length) = some 0 :=
  ⟨by decide +kernel, by decide +kernel, by decide +kernel, by decide +kernel, by decide +kernel⟩
/-- R327 to R329, R291. -/
theorem test_context_commands : after (execBuild 2 (cmd 1 0x0101 [1, 3])) (fun t => (t.ctx? 1).map (fun x => (x.state, x.priv, Cells.get 0 x.keys 0))) =
      some (some (.building, true, 3)) ∧
    after (execDestroy 2 (cmd 1 0x0102 [])) (fun t => ((t.ctx? 0).map Context.state, (Tab.list t.bolts).length)) = some (some .draining, 0) ∧
    after (execSetkeys 2 (cmd 1 0x0103 [0, 3, 2])) (fun t => (t.ctx? 0).map (fun x => (Cells.get 0 x.keys 0, Cells.get 0 x.keys 1))) =
      some (some (3, 2)) ∧
    after (execSetroot 2 (cmd 1 0x0104 (bytesOf 8 1023 ++ bytesOf 8 77))) (fun t => Tab.get t.homes.roots (1024 + 1023)) = some (some 77) ∧
    after (execRingset 2 (cmd 1 0x0105 (bytesOf 8 0 ++ bytesOf 8 0x10000 ++ [16]))) (fun t => (t.ctx? 0).map (fun x => (x.ringVa, x.ringSize))) =
      some (some (0x10000, 65536)) ∧
    after (execRspool 2 (cmd 1 0x010C (bytesOf 8 0 ++ bytesOf 8 0x10000 ++ bytesOf 8 4096))) (fun t => (t.ctx? 0).map (fun x => (x.poolVa, x.poolSize))) =
      some (some (0x10000, 4096)) :=
  ⟨by decide +kernel, by decide +kernel, by decide +kernel, by decide +kernel, by decide +kernel, by decide +kernel⟩
def oldQueue : Queue := { demoQueue 0 with head := 3, tail := 3 }
/-- R298, R299, R301, R340, R345. -/
theorem test_queue_commands : after (execQopen 2 (cmd 1 0x0106 ([0, 4, 7, 0, 0, 0, 0, 0] ++ bytesOf 8 0x10000))) (fun t =>
      (Tab.get t.queues 0).map (fun q => (q.kind, q.state, q.l, q.prio))) = some (some (0, .qopen, 4, 7)) ∧
    after (execQclose 2 { cmd 1 0x0107 [0, 5] with queues := [(2, some (demoQueue 1)), (5, some oldQueue)] }) (fun t => Tab.get t.queues 5) =
      some none ∧
    after (execReplay (some 2) 0 { queued 1 0x0108 (bytesOf 4 70000) demoCtx with
      skeins := [(0, some (withStatus plainSk 3 (.parked (.nack 70000 0)) 8))]
      homes := { (cmd 1 0x0108 (bytesOf 4 70000)).homes with faultRecs := [(70000, some parkedRec)] } }) (fun t =>
      (Tab.get t.homes.faultRecs 70000, (t.strand? 0 3).map (fun x => (x.status, x.pc)))) = some (none, some (.ready, 8)) ∧
    after (execTinval 2 (cmd 1 0x0109 (bytesOf 8 0x10000 ++ bytesOf 8 16384))) (fun t => Tab.get t.homes.attrs gran4) = some none ∧
    after (execProtect 2 { cmd 1 0x010A (bytesOf 8 0x10000) with
      homes := { (cmd 1 0x010A (bytesOf 8 0x10000)).homes with filter := [(3, [gran4])] } }) (fun t => t.granState gran4) =
      some (.xrevoking [3]) :=
  ⟨by decide +kernel, by decide +kernel, by decide +kernel, by decide +kernel, by decide +kernel⟩
/-- A write of host core 0, which works for domain 1. -/
def host0 (v : Word) : HostWrite := ⟨some 0, 1, v⟩
/-- R342, R345: the tail moves, a tail more than the ring ahead is ERROR 1, and QRESET ends that. -/
def ringing (q : Queue) : State := { inPart demoCtx plainSk with queues := [(2, some q)] }
theorem test_doorbells : after (execDoorbell 2 (host0 16) (ringing (demoQueue 1))) (fun t => (Tab.get t.queues 2).map Queue.tail) = some (some 16) ∧
    after (execDoorbell 2 (host0 17) (ringing { demoQueue 1 with tail := 2 ^ 32 - 4 })) (fun t => (Tab.get t.queues 2).map (fun q => (q.state, q.err))) =
      some (some (.error, 1)) ∧
    after (execDoorbell 2 (host0 1) (ringing (demoQueue 2))) (fun t => (Tab.get t.queues 2).map Queue.head) = some (some 1) ∧
    after (execQreset 2 (host0 1) (ringing { demoQueue 1 with state := .error, err := 1, tail := 0 })) (fun t =>
      (Tab.get t.queues 2).map (fun q => (q.state, q.err))) = some (some (.qopen, 0)) :=
  ⟨by decide +kernel, by decide +kernel, by decide +kernel, by decide +kernel⟩
/-- R317, R326, R329. -/
theorem test_tokens : after (execReadyToken 0 9 5 { plain with launches := [(4, some { heldLaunch with ready := [] })] }) (fun t =>
      (Tab.get t.launches 4).map Launch.ready) = some (some [5]) ∧
    after (execStartToken 0 9 { plain with launches := [(4, some { heldLaunch with ready := [0, 5] })] }) (fun t =>
      (Tab.get t.launches 4).map Launch.state) = some (some .admitted) ∧
    after (execContextBuilt 0 (inPart { demoCtx with state := .building } plainSk)) (fun t => (t.ctx? 0).map Context.state) = some (some .ready) ∧
    after (execKeyTableUpdateApplied 0 7 (inPart { demoCtx with keyWait := [(7, 1, 3, 100)] } plainSk)) (fun t => (t.ctx? 0).map Context.keyWait) =
      some (some []) := ⟨by decide +kernel, by decide +kernel, by decide +kernel, by decide +kernel⟩

/-! ### Partitions, the device, the Loom and the fabric -/

/-- A machine that has come up, with the operator's key set. -/
def operated (s : State) : State := { s with dev := { s.dev with bootStep := 6, opKey := some (List.replicate 64 1) } }
def auth5 (sig : List Byte) : Auth := { seq := 5, sig := sig }
/-- The port serves a request whose signature verifies (log 30: the verification itself is not evaluated). -/
theorem serves_operated {s : State} {sig request : List Byte} (h0 : s.dev.bootFailed = false) (h1 : s.dev.opSeq < 5)
    (hv : Config.slhVerify (List.replicate 64 1) (authMessage (auth5 sig) request) sig = true) :
    (operated s).Serves (auth5 sig) request := by
  simpa [State.Serves, State.served, State.authentic, operated, auth5, h0, h1] using hv
def emptyUp : State := operated State.reset
def restedCtx : Context := { demoCtx with state := .ready }
theorem witness_PartitionsRun :
    (emptyUp.dev.bootStep = 6 ∧ emptyUp.carveStatus carveArgs = 0 ∧ emptyUp.freeCtx = some 0 ∧
     (List.range 16).find? (fun k => (emptyUp.part? k).isNone) = some 0) ∧
    ({ demoPart with ready := false }.ready = false) ∧
    ((operated (inPart restedCtx plainSk)).part? 0 = some demoPart ∧ (operated (inPart restedCtx plainSk)).partBusy 0 = false ∧
     settingsOk PartSettings.default = true ∧ rangesOk [(65535, 1)] = true ∧ rangesOk [(0, 1)] = true ∧
     (operated (inPart restedCtx plainSk)).capFits 0 demoPart PartSettings.default.cap = true ∧
     (operated (inPart restedCtx plainSk)).foreign demoPart.domain [(65535, 1)] = false ∧
     ((operated (inPart restedCtx plainSk)).ctxsOfPart 0).all (fun c =>
       ((operated (inPart restedCtx plainSk)).ctx? c).elim true (fun x => x.state != .running)) = true) ∧
    (demoPart.ready = true ∧ demoPart.intervalStart + demoPart.settings.meter * 85000000 ≤ 60000000000) ∧
    (State.reset.dev.bootStep = 0 ∧ State.reset.dev.bootFailed = false) :=
  ⟨by decide +kernel, rfl, by decide +kernel, by decide +kernel, by decide⟩
/-- R323, R324: what CARVE lays out, and its end. -/
theorem test_carve : ((emptyUp.carve 0 0 carveArgs).ctx? 0).map (fun x => (x.state, x.domain, x.priv, Cells.get 0 x.keys 0)) =
      some (.building, 1, true, 3) ∧
    (Tab.get (emptyUp.carve 0 0 carveArgs).queues (fixedQueue 0 1)).map (fun q => (q.kind, q.state, q.base)) = some (1, .closed, 0x20000) ∧
    after (execPartitionReady 0 (emptyUp.carve 0 0 carveArgs)) (fun t => ((t.part? 0).map Partition.ready, (t.ctx? 0).map Context.state,
      (Tab.get t.queues (fixedQueue 0 3)).map Queue.state)) = some (some true, some .ready, some .qopen) :=
  ⟨by decide +kernel, by decide +kernel, by decide +kernel⟩
/-- R336, R409. -/
theorem test_interval : after (execMeterIntervalEnd 0 { inPart demoCtx plainSk with clock := 60000000000 }) (fun t =>
      (t.dev.recSeq, t.dev.ring.length, (t.part? 0).map Partition.interval)) = some (1, 1, some 1) := by decide +kernel
def bootArgs (ok : Bool) : BootArgs :=
  { provision := true, stages := [([1], ok), ([2], true), ([3], true), ([4], true), ([5], true)], quads := [(0, 1)], banks := [],
    dark := [] }
/-- Step 1 of bring-up is done. -/
def broughtUp : State := { State.reset with dev := { State.reset.dev with bootStep := 1, bootLog := [[1]], boot := some (bootArgs true) } }
theorem test_bring_up : after (execResetRelease (bootArgs true) State.reset) (fun t => (t.dev.bootStep, t.dev.bootFailed, t.dev.boot)) =
      some (1, false, some (bootArgs true)) ∧
    (let t : State := { broughtUp with clock := 340000000 }.settleBoot
     (t.dev.bootStep, t.dev.bootFailed, (t.core 0).quads, t.dev.ring.length) = (6, false, 1, 1)) ∧
    after (execResetRelease (bootArgs false) State.reset) (fun t => (t.dev.bootStep, t.dev.bootFailed)) = some (0, true) :=
  ⟨by decide +kernel, by decide +kernel, by decide +kernel⟩
/-- DeviceRuns. -/
def capOf (cfg : Word) : Capture := { Capture.reset with cfg := cfg }
theorem witness_DeviceRuns :
    ((inPart restedCtx plainSk).part? 15 = none ∧ (inPart restedCtx plainSk).part? 0 = some demoPart ∧
     ((inPart restedCtx plainSk).ctxsOfPart 0).all (fun c => ((inPart restedCtx plainSk).ctx? c).elim true (fun x => x.state != .running)) = true) ∧
    (Cells.get Capture.reset [(15 * 32 + 31, capOf 0x81000007)] (15 * 32 + 31) = capOf 0x81000007 ∧
     Cells.get Capture.reset [(15 * 32 + 31, capOf 0x84000007)] (15 * 32 + 31) = capOf 0x84000007) ∧
    ((0x81000007 : Word).getLsbD 31 = true ∧ (0x81000007 : Word).toNat % 256 = 7) ∧
    ((0x84000007 : Word).getLsbD 31 = true ∧ (0x84000007 : Word).toNat % 256 = 7) ∧
    (31 ∉ State.reset.dev.frozenHosts) ∧ (emptyUp.dev.bootStep ≠ 0) := by decide +kernel
/-- R359, R360, R305, R373, R374, R371, R405. -/
theorem test_registers : after (execRegisterWrite .linkcfg 0xFFFFFFFF plain) (fun t => t.dev.linkcfg) = some 0xFFFF0000 ∧
    after (execRegisterWrite .linkcfg 0 plain) (fun t => t.dev.linkcfg) = some 0x91000000 ∧
    after (execRegisterWrite (.limiter 0 1) 0xFFFFFFFF (inPart restedCtx plainSk)) (fun t => (t.part? 0).map (fun p => p.settings.limFabric)) =
      some (some 0xFFFF00FF) ∧
    after (execCapcfgWrite 15 31 ⟨none, 0, 0xFFFFFFFF⟩ plain) (fun t => (Cells.get Capture.reset t.captures 511).cfg) = some 0x8F0000FF ∧
    after (execHostMmioViolation 31 ⟨0, none⟩ plain) (fun t => t.dev.frozenHosts) = some [31] ∧
    after (execPowerOverLimit 40000 plain) (fun t => (t.dev.draw, t.dev.withhold)) = some (40000, true) :=
  ⟨by decide +kernel, by decide +kernel, by decide +kernel, by decide +kernel, by decide +kernel, by decide +kernel⟩
/-- The example after R374. -/
theorem test_capture : ([1, 12, 12, 300, 40000].foldl Capture.record { Capture.reset with min := 0xFFFFFFFF }) =
    { cfg := 0, min := 1, max := 40000, bins := [(0, 1), (3, 2), (8, 1), (15, 1)] } := by decide

/-- Station 0's link of channel 0. -/
def linked (f : Link → Link) (reqs : Tab Req) : State := ({ plain with clock := 2000, reqs := reqs } : State).modLink (linkNo 0 0) f
def flit (sent : Option Nat) : Flit := { seq := 0, type := 2, payload := .reply 5, sent := sent, fails := 0, ack := 0 }
def repliedReq : Tab Req := [(5, some (req .load (.replied 0 3)))]
/-- Bring-up has come to the ports. -/
def training : State := { plain with dev := { plain.dev with bootStep := 2 } }
def upPort (x : Bool) : Port := { Port.reset with up := true, extended := x }
theorem witness_LinksAndPorts :
    linkExists 0 0 = true ∧ linkExists 512 223 = true ∧
    ((linked (fun l => { l with outq := [(2, .reply 5)] }) []).linkDown 0 0 = false ∧
     ((linked (fun l => { l with outq := [(2, .reply 5)] }) []).link 0).outq = [(2, .reply 5)] ∧
     (linked (fun l => { l with outq := [(2, .reply 5)] }) []).tokenNext 0 0 = true) ∧
    (flit (some 0)).decoded 0 [(0, 0)] = none ∧ ((flit (some 0)).decoded 0 []).isSome = true ∧
    (((linked (fun l => { l with flying := [flit (some 0)] }) repliedReq).link 0).flying = [flit (some 0)] ∧
     (linked id repliedReq).req? 5 = some (req .load (.replied 0 3)) ∧ (req .load (.replied 0 3)).core < 768) ∧
    (plain.rotStep ≠ 0 ∧ plain.shadowOf 0 0 = .standby ∧ plain.waveOf 0 0 0 = .carrying ∧ (∀ k < 16, plain.waveOf 0 0 k ≠ .retired)) ∧
    ((linked (fun l => { l with shadow := .lending 15, waves := [(15, .retrain 2)] }) []).waveOf 0 0 15 = .retrain 2 ∧
     bits plain.dev.linkcfg.toNat 27 24 = 3) ∧
    ((linked (fun l => { l with shadow := .calibrating 15 0 }) []).shadowOf 0 0 = .calibrating 15 0) ∧ (19 ∉ plain.dev.darkSources) ∧
    ((training.port 63).up = false ∧ (training.port 63).downSince = none ∧ training.portsTrain = true) ∧
    (let p : Port := upPort true
     ((RxWave.fresh.take 64 64).weak (bits plain.dev.linkcfg.toNat 31 28)).isSome = true ∧
     (RxWave.fresh.take 64 0).weak (bits plain.dev.linkcfg.toNat 31 28) = none ∧ p.shadowLane = none ∧ p.calibrating = none ∧
     (RxWave.fresh.take 64 64).within (2 ^ 42) ≤ 4398 ∧ 4398 < (RxWave.fresh.take 64 4399).within (2 ^ 42) ∧
     0 < bits plain.dev.linkcfg.toNat 27 24) := by decide +kernel
/-- R349 to R356. -/
theorem test_links :
    after (execTokenArrival 0 0 (linked (fun l => { l with outq := [(2, .reply 5)] }) [])) (fun t => ((t.link 0).outq, (t.link 0).nextSeq,
      (t.link 0).flying.map Flit.seq)) = some ([], 1, [0]) ∧
    after (execFlitReceive 0 0 [] [] (linked (fun l => { l with flying := [flit (some 0)] }) repliedReq)) (fun t =>
      ((t.req? 5).map Req.stage, (t.link 0).expect, (t.link 0).flying.length)) = some (some (.returned 0 3), 1, 0) ∧
    after (execFlitReceive 0 0 [(0, 0)] [] (linked (fun l => { l with flying := [flit (some 0)] }) repliedReq)) (fun t =>
      ((t.req? 5).map Req.stage, (t.link 0).expect)) = some (some (.replied 0 3), 0) ∧
    after (execFlitReplayTimeout 0 0 (linked (fun l => { l with buffer := [flit (some 300)] }) [])) (fun t => (t.link 0).buffer.map Flit.sent) =
      some [none] ∧
    after (execRotationStep 0 0 (linked id [])) (fun t => (t.waveOf 0 0 0, (t.link 0).toShadow)) = some (.recal 2000, some (0, 0, 0)) ∧
    after (execRetrainDone 0 0 15 0 (linked (fun l => { l with shadow := .lending 15, waves := [(15, .retrain 2)] }) [])) (fun t =>
      (t.waveOf 0 0 15, (t.link 0).back)) = some (.carrying, true) ∧
    after (execRetrainDone 0 0 15 2 (linked (fun l => { l with shadow := .lending 15, waves := [(15, .retrain 2)] }) [])) (fun t =>
      t.waveOf 0 0 15) = some .retired ∧
    after (execShadowCalibrationDone 0 0 { linked (fun l => { l with shadow := .calibrating 15 0 }) [] with clock := 54400 }) (fun t =>
      t.shadowOf 0 0) = some .standby :=
  ⟨by decide +kernel, by decide +kernel, by decide +kernel, by decide +kernel, by decide +kernel, by decide +kernel,
   by decide +kernel, by decide +kernel⟩
/-- R362 to R365. -/
def ported (p : Port) : State := { plain with clock := 900000, net := { plain.net with ports := [(63, p), (1, { Port.reset with up := true })].reverse } }
theorem test_ports :
    after (execPortTraining 63 true true training) (fun t => ((t.port 63).up, (t.port 63).extended)) = some (true, true) ∧
    after (execPortDown 63 (ported (upPort false))) (fun t => ((t.port 63).up, (t.port 63).downSince, t.entryPort 63)) =
      some (false, some 900000, 1) ∧
    after (execFabricLaneLost 63 3 (ported (upPort true))) (fun t => ((t.port 63).up, (t.port 63).lost, (t.port 63).shadowLane)) =
      some (true, [3], some 3) ∧
    after (execFabricLaneLost 63 3 (ported (upPort false))) (fun t => (t.port 63).up) = some false ∧
    after (execFabricLaneWeak 63 ⟨3, 64, 64⟩ (ported (upPort true))) (fun t => ((t.port 63).shadowLane, (t.port 63).tries)) = some (some 3, 0) ∧
    after (execPortUp 63 (ported { upPort false with up := false, downSince := some 5, trained := true })) (fun t =>
      ((t.port 63).up, (t.port 63).downSince)) = some (true, none) ∧
    after (execFabricResponseTimeout 63 { ported { upPort false with up := false, downSince := some 5 } with
      reqs := [(5, some { peerStore with stage := .remote 63 })] }) (fun t => (t.req? 5).map Req.stage) = some (some (.returned 0 0)) :=
  ⟨by decide +kernel, by decide +kernel, by decide +kernel, by decide +kernel, by decide +kernel, by decide +kernel, by decide +kernel⟩

end Sys2Proof.Tests
end

section
/-! The state right after reset (R6, R409). -/

namespace Sys2Proof.Machine

/-- The memory that lists no cell is canonical (log 3). -/
theorem State.sound_of_mem_nil {s : State} (h : s.homes.mem = []) : s.Sound := by
  rw [State.Sound, h]
  rfl

/-- With no skein there is no table of strands or wefts to keep. -/
theorem State.tablesWf_of_skeins_nil {s : State} (h : s.skeins = []) : s.TablesWf := by
  intro k sk hsk
  rw [h] at hsk
  exact absurd hsk List.not_mem_nil

/-- R6, R409: reset lists no cell of memory behind the homes, which is what makes it sound. -/
theorem State.reset_sound : State.reset.Sound := State.sound_of_mem_nil rfl

/-- R409: no skein runs at reset, so its tables are canonical. -/
theorem State.reset_tablesWf : State.reset.TablesWf := State.tablesWf_of_skeins_nil rfl

/-- Settles O43: each field is read off `State.reset`; soundness comes from its empty memory and the tables' canonical
form from its having no skein. -/
theorem resetState : Obligations.ResetState := by
  unfold Obligations.ResetState
  exact ⟨rfl, rfl, rfl, rfl, rfl, rfl, rfl, rfl, rfl, rfl, rfl, rfl, rfl,
    State.reset_sound, State.reset_tablesWf⟩

end Sys2Proof.Machine
end

section
/-! Words and their fields (R37, R44): windows of a word, and when a word is the one made of fixed bits and operands. -/

namespace Sys2Proof

/-! ### Windows of a word -/

theorem fld_lt (w hi lo : Nat) : fld w hi lo < 2 ^ (hi + 1 - lo) := Nat.mod_lt _ (Nat.two_pow_pos _)

theorem fld_empty (w : Nat) {hi lo : Nat} (h : hi < lo) : fld w hi lo = 0 := by
  simp [fld, show hi + 1 - lo = 0 by omega, Nat.mod_one]

/-- A window is its low part and its high part. -/
theorem fld_split (w : Nat) {hi mid lo : Nat} (h1 : lo ≤ mid) (h2 : mid ≤ hi) :
    fld w hi lo = fld w mid lo + 2 ^ (mid + 1 - lo) * fld w hi (mid + 1) := by
  obtain ⟨a, rfl⟩ := Nat.exists_eq_add_of_le h1
  obtain ⟨b, rfl⟩ := Nat.exists_eq_add_of_le h2
  unfold fld
  rw [show lo + a + b + 1 - lo = (a + 1) + b by omega, show lo + a + 1 - lo = a + 1 by omega,
    show lo + a + b + 1 - (lo + a + 1) = b by omega, show lo + a + 1 = lo + (a + 1) by omega,
    pow_add _ (a + 1), pow_add _ lo, ← Nat.div_div_eq_div_mul, Nat.mod_mul]

/-- A digit below `2 ^ p` under another digit. -/
theorem digits_eq_iff {p a b a' b' : Nat} (ha : a < 2 ^ p) (ha' : a' < 2 ^ p) :
    a + 2 ^ p * b = a' + 2 ^ p * b' ↔ a = a' ∧ b = b' := by
  refine ⟨fun h => ?_, fun ⟨h, h'⟩ => by rw [h, h']⟩
  have hm := congrArg (· % 2 ^ p) h
  have hd := congrArg (· / 2 ^ p) h
  simp only [Nat.add_mul_mod_self_left, Nat.mod_eq_of_lt ha, Nat.mod_eq_of_lt ha'] at hm
  simp only [Nat.add_mul_div_left _ _ (Nat.two_pow_pos p), Nat.div_eq_of_lt ha, Nat.div_eq_of_lt ha', zero_add] at hd
  exact ⟨hm, hd⟩

theorem digits_lt {p q a b : Nat} (ha : a < 2 ^ p) (hb : b < 2 ^ q) : a + 2 ^ p * b < 2 ^ (p + q) :=
  calc a + 2 ^ p * b < 2 ^ p * (b + 1) := by rw [Nat.mul_succ]; omega
    _ ≤ 2 ^ (p + q) := by rw [pow_add]; exact Nat.mul_le_mul_left _ hb

/-- Two words read the same in a window just where they do in its low part and in its high part. -/
theorem fld_congr_split {w m : Nat} (mid : Nat) {hi lo : Nat} (h1 : lo ≤ mid) (h2 : mid ≤ hi) :
    fld w hi lo = fld m hi lo ↔ fld w mid lo = fld m mid lo ∧ fld w hi (mid + 1) = fld m hi (mid + 1) := by
  rw [fld_split w h1 h2, fld_split m h1 h2, digits_eq_iff (fld_lt ..) (fld_lt ..)]

/-- The value of a window tells those of its low part and of its high part. -/
theorem fld_eq_split {w : Nat} (mid : Nat) {hi lo v : Nat} (h1 : lo ≤ mid) (h2 : mid ≤ hi) :
    fld w hi lo = v ↔ fld w mid lo = v % 2 ^ (mid + 1 - lo) ∧ fld w hi (mid + 1) = v / 2 ^ (mid + 1 - lo) := by
  rw [fld_split w h1 h2, ← digits_eq_iff (fld_lt ..) (Nat.mod_lt _ (Nat.two_pow_pos _)), Nat.mod_add_div]

/-- The same, the high part first: what decides is told first to `Decidable`. -/
theorem fld_eq_split_high {w : Nat} (mid : Nat) {hi lo v : Nat} (h1 : lo ≤ mid) (h2 : mid ≤ hi) :
    fld w hi lo = v ↔ fld w hi (mid + 1) = v / 2 ^ (mid + 1 - lo) ∧ fld w mid lo = v % 2 ^ (mid + 1 - lo) :=
  (fld_eq_split mid h1 h2).trans and_comm

/-! ### Words that agree -/

/-- Two words agree on every window of the bits from `lo` to under `top`. -/
def Agree (w m top lo : Nat) : Prop := ∀ h l, h < top → lo ≤ l → fld w h l = fld m h l

theorem agree_of_le {w m top lo : Nat} (h : top ≤ lo) : Agree w m top lo := by
  intro a b _ _
  rw [fld_empty _ (by omega), fld_empty _ (by omega)]

/-- Words agree on all that a window holds where they read the same in it. -/
theorem agree_iff_fld {w m top lo : Nat} (h : lo < top) :
    Agree w m top lo ↔ fld w (top - 1) lo = fld m (top - 1) lo := by
  refine ⟨fun ha => ha _ _ (by omega) le_rfl, fun he a b ha hb => ?_⟩
  rcases Nat.lt_or_ge a b with hab | hab
  · rw [fld_empty _ hab, fld_empty _ hab]
  have hl : fld w a lo = fld m a lo := ((fld_congr_split a (le_trans hb hab) (by omega)).1 he).1
  rcases Nat.eq_or_lt_of_le hb with rfl | hb
  · exact hl
  · obtain ⟨c, rfl⟩ : ∃ c, b = c + 1 := ⟨b - 1, by omega⟩
    exact ((fld_congr_split c (by omega) (by omega)).1 hl).2

theorem agree_iff_mod {w m lo n : Nat} : Agree w m (lo + n) lo ↔ w / 2 ^ lo % 2 ^ n = m / 2 ^ lo % 2 ^ n := by
  cases n with
  | zero => simp [agree_of_le, Nat.mod_one]
  | succ n =>
    rw [agree_iff_fld (by omega), fld, fld, ← Nat.add_assoc, Nat.add_sub_cancel, Nat.add_assoc, Nat.add_sub_cancel_left]

theorem agree_split {w m top lo : Nat} (mid : Nat) (h1 : lo < mid) (h2 : mid < top) :
    Agree w m top lo ↔ Agree w m mid lo ∧ Agree w m top mid := by
  obtain ⟨a, rfl⟩ : ∃ a, mid = a + 1 := ⟨mid - 1, by omega⟩
  rw [agree_iff_fld h1, agree_iff_fld h2, agree_iff_fld (h1.trans h2), fld_congr_split a (by omega) (by omega),
    Nat.add_sub_cancel]

/-! ### Operands in their fields -/

/-- An operand of a word: its field's bits and the field's lowest bit. -/
structure Operand where
  n : Nat
  x : BitVec n
  lo : Nat

/-- The fields of operands, as `wd` takes them. -/
def pairs (l : List Operand) : List (Nat × Nat) := l.map (fun o => (o.x.toNat, o.lo))

theorem nil_eq_pairs : ([] : List (Nat × Nat)) = pairs [] := rfl
theorem cons_eq_pairs {n : Nat} (x : BitVec n) (lo : Nat) (l : List Operand) :
    (x.toNat, lo) :: pairs l = pairs (⟨n, x, lo⟩ :: l) := rfl

/-- Where operands stand: the widths and lowest bits of their fields. -/
def spots (l : List Operand) : List (Nat × Nat) := l.map (fun o => (o.n, o.lo))

/-- Fields, each a width and a lowest bit, stand one below the other, under bit `top`, where the fixed bits are 0. -/
def placed (m : Nat) : Nat → List (Nat × Nat) → Bool
  | _, [] => true
  | top, (n, lo) :: l => decide (lo + n ≤ top) && (m / 2 ^ lo % 2 ^ n == 0) && placed m lo l

/-- Under bit `top`, a word holds the operands in their fields and the fixed bits between them. -/
def Reads (w m : Nat) : Nat → List Operand → Prop
  | top, [] => Agree w m top 0
  | top, o :: l => Agree w m top (o.lo + o.n) ∧ bv o.n w (o.lo + o.n - 1) o.lo = o.x ∧ Reads w m o.lo l

/-- The field that holds an operand. -/
theorem bv_eq_iff {w n lo : Nat} {x : BitVec n} : bv n w (lo + n - 1) lo = x ↔ w / 2 ^ lo % 2 ^ n = x.toNat := by
  cases n with
  | zero => exact iff_of_true (Subsingleton.elim _ _) (by rw [pow_zero, Nat.mod_one, BitVec.toNat_of_zero_length rfl])
  | succ n =>
    rw [BitVec.toNat_eq, bv, BitVec.toNat_ofNat, fld, ← Nat.add_assoc, Nat.add_sub_cancel, Nat.add_assoc,
      Nat.add_sub_cancel_left, Nat.mod_mod]

theorem wd_add (l : List (Nat × Nat)) (m k : Nat) : wd (m + k) l = k + wd m l := by
  induction l generalizing m with
  | nil => exact Nat.add_comm _ _
  | cons p l ih => rw [wd, wd, Nat.add_right_comm, ih]

/-- The low bits of a number: those under a field, the field, and those above it. -/
theorem mod_three (m lo n r : Nat) :
    m % 2 ^ (lo + n + r) = m % 2 ^ lo + 2 ^ lo * (m / 2 ^ lo % 2 ^ n) + 2 ^ (lo + n) * (m / 2 ^ (lo + n) % 2 ^ r) := by
  rw [pow_add _ (lo + n), Nat.mod_mul, pow_add, Nat.mod_mul]

section
variable {m top : Nat} {l : List Operand}

/-- What is made of fixed bits and operands: what is under the first operand, the operand, the fixed bits above it. -/
theorem wd_cons {o : Operand} (h : placed m top (spots (o :: l)) = true) :
    wd (m % 2 ^ top) (pairs (o :: l)) =
      wd (m % 2 ^ o.lo) (pairs l) + 2 ^ o.lo * o.x.toNat +
        2 ^ (o.lo + o.n) * (m / 2 ^ (o.lo + o.n) % 2 ^ (top - (o.lo + o.n))) := by
  simp only [spots, List.map_cons, placed, Bool.and_eq_true, decide_eq_true_eq, beq_iff_eq] at h
  obtain ⟨⟨htop, hfix⟩, _⟩ := h
  obtain ⟨r, rfl⟩ := Nat.exists_eq_add_of_le htop
  rw [mod_three, hfix, Nat.add_sub_cancel_left]
  simp only [pairs, List.map_cons, wd, mul_zero, add_zero, wd_add]
  ring

theorem wd_lt (h : placed m top (spots l) = true) : wd (m % 2 ^ top) (pairs l) < 2 ^ top := by
  induction l generalizing top with
  | nil => exact Nat.mod_lt _ (Nat.two_pow_pos _)
  | cons o l ih =>
    rw [wd_cons h]
    simp only [spots, List.map_cons, placed, Bool.and_eq_true, decide_eq_true_eq] at h
    obtain ⟨⟨htop, _⟩, hl⟩ := h
    obtain ⟨r, rfl⟩ := Nat.exists_eq_add_of_le htop
    rw [Nat.add_sub_cancel_left]
    exact digits_lt (digits_lt (ih hl) o.x.isLt) (Nat.mod_lt _ (Nat.two_pow_pos _))

/-- A word is the one made of the fixed bits and the operands just where it reads so. -/
theorem mod_eq_wd_iff {w : Nat} (h : placed m top (spots l) = true) :
    w % 2 ^ top = wd (m % 2 ^ top) (pairs l) ↔ Reads w m top l := by
  induction l generalizing top with
  | nil =>
    have hm := agree_iff_mod (w := w) (m := m) (lo := 0) (n := top)
    simp only [zero_add, pow_zero, Nat.div_one] at hm
    exact hm.symm
  | cons o l ih =>
    rw [wd_cons h]
    simp only [spots, List.map_cons, placed, Bool.and_eq_true, decide_eq_true_eq] at h
    obtain ⟨⟨htop, _⟩, hl⟩ := h
    obtain ⟨r, rfl⟩ := Nat.exists_eq_add_of_le htop
    have hw : w % 2 ^ o.lo < 2 ^ o.lo := Nat.mod_lt _ (Nat.two_pow_pos _)
    have hx : w / 2 ^ o.lo % 2 ^ o.n < 2 ^ o.n := Nat.mod_lt _ (Nat.two_pow_pos _)
    rw [Reads, Nat.add_sub_cancel_left, mod_three, digits_eq_iff (digits_lt hw hx) (digits_lt (wd_lt hl) o.x.isLt),
      digits_eq_iff hw (wd_lt hl), ih hl, agree_iff_mod, bv_eq_iff]
    tauto

/-- The same of a whole word. -/
theorem wd_eq_iff {w : Nat} (hw : w < 2 ^ 32) (hm : m < 2 ^ 32) (h : placed m 32 (spots l) = true) :
    wd m (pairs l) = w ↔ Reads w m 32 l := by
  rw [← mod_eq_wd_iff h, Nat.mod_eq_of_lt hw, Nat.mod_eq_of_lt hm, eq_comm]

/-- What holds of every word that reads so holds of the one made of the fixed bits and the operands. -/
theorem of_reads {P : Nat → Prop} (hm : m < 2 ^ 32) (h : placed m 32 (spots l) = true)
    (hp : ∀ w < 2 ^ 32, Reads w m 32 l → P w) : P (wd m (pairs l)) := by
  have hw : wd m (pairs l) < 2 ^ 32 := by
    have := wd_lt h
    rwa [Nat.mod_eq_of_lt hm] at this
  exact hp _ hw ((wd_eq_iff hw hm h).1 rfl)

end

end Sys2Proof
end

section
/-! The encoder and the decoder undo each other (R49, R51): every word row is read back, and nothing else is read. -/

namespace Sys2Proof

/-- The rows of a major, as `decFields` chooses them. -/
def decMajor (w : Nat) : Nat → Option Instr
  | 0x00 => decMajor00 w
  | 0x01 => decMajor01 w
  | 0x02 => decMajor02 w
  | 0x03 => decMajor03 w
  | 0x04 => decMajor04 w
  | 0x05 => decMajor05 w
  | 0x06 => decMajor06 w
  | 0x07 => decMajor07 w
  | 0x08 => decMajor08 w
  | 0x09 => decMajor09 w
  | 0x0A => decMajor0A w
  | 0x0B => decMajor0B w
  | 0x0C => decMajor0C w
  | 0x0D => decMajor0D w
  | 0x0E => decMajor0E w
  | 0x0F => decMajor0F w
  | 0x10 => decMajor10 w
  | 0x11 => decMajor11 w
  | 0x12 => decMajor12 w
  | 0x13 => decMajor13 w
  | 0x14 => decMajor14 w
  | 0x15 => decMajor15 w
  | 0x16 => decMajor16 w
  | 0x17 => decMajor17 w
  | 0x18 => decMajor18 w
  | 0x19 => decMajor19 w
  | 0x1A => decMajor1A w
  | 0x1B => decMajor1B w
  | 0x20 => decMajor20 w
  | 0x21 => decMajor21 w
  | 0x22 => decMajor22 w
  | 0x23 => decMajor23 w
  | 0x24 => decMajor24 w
  | 0x25 => decMajor25 w
  | 0x26 => decMajor26 w
  | 0x27 => decMajor27 w
  | 0x28 => decMajor28 w
  | 0x29 => decMajor29 w
  | 0x2A => decMajor2A w
  | 0x2B => decMajor2B w
  | 0x2C => decMajor2C w
  | 0x2D => decMajor2D w
  | 0x2E => decMajor2E w
  | 0x2F => decMajor2F w
  | 0x30 => decMajor30 w
  | 0x31 => decMajor31 w
  | 0x32 => decMajor32 w
  | 0x33 => decMajor33 w
  | 0x34 => decMajor34 w
  | 0x35 => decMajor35 w
  | 0x38 => decMajor38 w
  | 0x39 => decMajor39 w
  | 0x3A => decMajor3A w
  | 0x3B => decMajor3B w
  | 0x3C => decMajor3C w
  | 0x3D => decMajor3D w
  | 0x3E => decMajor3E w
  | _ => none

theorem decFields_eq (w : Nat) : decFields w = decMajor w (fld w 30 25) := rfl

/-- A control-transfer word with C = 1 (R48). -/
def chainedTransfer (w : Nat) : Bool := isTransferWord w && decide (fld w 31 31 = 1)

theorem decodeWord_eq_ok_iff {w : Word} {i : Instr} :
    decodeWord w = .ok i ↔ decFields w.toNat = some i ∧ i.wellFormed = true ∧ chainedTransfer w.toNat = false := by
  unfold decodeWord
  change (match decFields w.toNat with
    | none => Except.error Reject.illegal
    | some j => if j.wellFormed then (if chainedTransfer w.toNat then .error .chainedTransfer else .ok j)
      else .error .illegal) = .ok i ↔ _
  cases decFields w.toNat with
  | none => simp
  | some j =>
    by_cases hj : j.wellFormed = true <;> by_cases hc : chainedTransfer w.toNat = true <;> simp [hj, hc]
    · rintro rfl
      exact hj
    · rintro rfl
      simpa using hj

/-! ### What is read encodes to the word (R51) -/

/-- What a decoder answers, if anything, encodes to the word. -/
def Backed (w : Nat) (o : Option Instr) : Prop := ∀ i, o = some i → encodeNat i = some w

theorem backed_none (w : Nat) : Backed w none := fun _ h => nomatch h

theorem backed_some {w : Nat} {i : Instr} (h : encodeNat i = some w) : Backed w (some i) := by
  rintro _ ⟨⟩
  exact h

/-- A row whose conditions are tested, and the rows after it. -/
theorem backed_ite {w : Nat} {p : Prop} [Decidable p] {i : Instr} {o : Option Instr} (h : p → encodeNat i = some w)
    (ho : Backed w o) : Backed w (if p then some i else o) := by
  split
  · exact backed_some (h ‹p›)
  · exact ho

/-- The decoder's rows test every bit that is in no operand: a word that passes them is the row's word. -/
theorem backed_decFields {w : Nat} (hw : w < 2 ^ 32)
    (hc : 0x20 ≤ fld w 30 25 → fld w 30 25 ≤ 0x24 → fld w 31 31 = 0) : Backed w (decFields w) := by
  unfold decFields
  split
  all_goals
    repeat' apply backed_ite
  any_goals exact backed_none w
  any_goals apply backed_some
  · rintro rfl
    rfl
  all_goals
    intros
    refine congrArg some ?_
    rw [nil_eq_pairs]
    simp only [cons_eq_pairs]
    rw [wd_eq_iff hw (by decide) (by simp only [spots, List.map_cons, List.map_nil]; decide)]
    simp only [Reads, agree_split (top := 32) 31, agree_split (top := 31) 25, agree_iff_fld, agree_of_le, *,
      Nat.reduceAdd, Nat.reduceSub, Nat.reduceLT, Nat.reduceLeDiff, Nat.le_refl, true_and, and_true]
  all_goals decide

/-- Settles O2: the conditions of a row and its operands' fields make up the whole word. -/
theorem decodedWordsEncode : Obligations.DecodedWordsEncode := by
  intro i w h
  obtain ⟨hf, hwf, hc⟩ := decodeWord_eq_ok_iff.1 h
  refine ⟨hwf, ?_⟩
  have hb := backed_decFields w.isLt (fun h1 h2 => by
    have := fld_lt w.toNat 31 31
    simp [chainedTransfer, isTransferWord, h1, h2] at hc
    omega) i hf
  rw [encode, hb, Option.map_some, BitVec.ofNat_toNat, BitVec.setWidth_eq]

/-! ### What is encoded is read back (R49) -/

/-- The decoder reads an instruction from a word, which is no chained transfer. -/
def Decoded (i : Instr) (w : Nat) : Prop := w < 2 ^ 32 ∧ chainedTransfer w = false ∧ decFields w = some i

theorem agree_rule {w m top lo : Nat} :
    Agree w m top lo ↔ ∀ h l, h < top → lo ≤ l → fld w h l = m / 2 ^ l % 2 ^ (h + 1 - l) := Iff.rfl

/-- A row's word holds its major and its fixed bits, so that it passes its own row's conditions and fails those of the rows
before it. -/
theorem decoded_of_encodeNat {i : Instr} {n : Nat} (h : encodeNat i = some n) : Decoded i n := by
  cases i
  all_goals try exact (Option.some_ne_none n h.symm).elim
  case nop => cases h; exact ⟨by decide, rfl, rfl⟩
  all_goals
    obtain rfl := Option.some.inj h
    rw [nil_eq_pairs]
    simp only [cons_eq_pairs]
    refine of_reads (by decide) (by simp only [spots, List.map_cons, List.map_nil]; decide) (fun w hw hr => ?_)
    simp only [Reads, Nat.reduceAdd, Nat.reduceSub, agree_of_le, Nat.le_refl, true_and, and_true] at hr
    simp only [agree_rule] at hr
    refine ⟨hw, ?_, ?_⟩
    · simp only [chainedTransfer, isTransferWord, hr, Nat.reduceLT, Nat.le_refl, Nat.reduceLeDiff, Nat.reduceDiv,
        Nat.reducePow, Nat.reduceMod, Nat.reduceAdd, Nat.reduceSub]
      rfl
    simp only [decFields_eq, hr, Nat.reduceLT, Nat.le_refl, Nat.reduceLeDiff, Nat.reduceDiv, Nat.reducePow, Nat.reduceMod,
      Nat.reduceAdd, Nat.reduceSub]
  case' add | sub | mul | mulh | mulhu | and | or | xor | andn | shl | shr | sar | min | max | minu |
      maxu => change decMajor01 w = _; unfold decMajor01
  case' addsat | subsat | addsatu | subsatu | div | divu | rem | remu | popc | clz | ctz | brev | abs | neg |
      absdiff => change decMajor02 w = _; unfold decMajor02
  case' add64 | sub64 | shl64 | shr64 | sar64 | mulw | mulwu | and64 | or64 | xor64 | addw | addws | lea2 | lea4 |
      lea8 | lea16 => change decMajor03 w = _; unfold decMajor03
  case' addi => change decMajor04 w = _; unfold decMajor04
  case' andi => change decMajor05 w = _; unfold decMajor05
  case' ori => change decMajor06 w = _; unfold decMajor06
  case' xori => change decMajor07 w = _; unfold decMajor07
  case' shli | shri | sari | roli => change decMajor08 w = _; unfold decMajor08
  case' movi => change decMajor09 w = _; unfold decMajor09
  case' movhi => change decMajor0A w = _; unfold decMajor0A
  case' add64i => change decMajor0B w = _; unfold decMajor0B
  case' icmp => change decMajor0C w = _; unfold decMajor0C
  case' fcmp => change decMajor0D w = _; unfold decMajor0D
  case' sel => change decMajor0E w = _; unfold decMajor0E
  case' pand | por | pxor | pandn | pnot | pmov | ptov | vtop => change decMajor0F w = _; unfold decMajor0F
  case' fadd | fsub | fmul | fdiv | fmin | fmax | fcopysign | fscale => change decMajor10 w = _; unfold decMajor10
  case' fma | fms | fnma | fnms => change decMajor11 w = _; unfold decMajor11
  case' rcp | rsq | sqrt | exp2 | log2 | sinpi | cospi | tanh => change decMajor12 w = _; unfold decMajor12
  case' hadd | hsub | hmul | hfma => change decMajor13 w = _; unfold decMajor13
  case' ftoi | ftoiz | ftou | itof | utof | pkh | pkb | xthl | xthh | xtbl | xtbh | frnd | frndz => change decMajor14 w = _; unfold decMajor14
  case' pk8 | xt8 | pk4 | xt4 => change decMajor15 w = _; unfold decMajor15
  case' mov | rdx | wrx => change decMajor16 w = _; unfold decMajor16
  case' nset | nget | nadv | nclr => change decMajor17 w = _; unfold decMajor17
  case' shfl | shflx | shflu | shfld | bcast | vote | count | rank => change decMajor18 w = _; unfold decMajor18
  case' rediIadd | rediImin | rediImax | rediUmin | rediUmax | rediAnd | rediOr | rediXor => change decMajor19 w = _; unfold decMajor19
  case' redfFaddt | redfFadds | redfFmin | redfFmax | redfScani | redfScanf | redfScanx => change decMajor1A w = _; unfold decMajor1A
  case' setw | slice | wsync => change decMajor1B w = _; unfold decMajor1B
  case' br => change decMajor20 w = _; unfold decMajor20
  case' call => change decMajor21 w = _; unfold decMajor21
  case' split => change decMajor22 w = _; unfold decMajor22
  case' join => change decMajor23 w = _; unfold decMajor23
  case' ret | exit | brx | callx | tret | tretr | yield | breakp | trap | waitt => change decMajor24 w = _; unfold decMajor24
  case' watch => change decMajor25 w = _; unfold decMajor25
  case' barSync | barArrive | barWait => change decMajor26 w = _; unfold decMajor26
  case' trigger | launch | launchb => change decMajor27 w = _; unfold decMajor27
  case' ldg => change decMajor28 w = _; unfold decMajor28
  case' stg => change decMajor29 w = _; unfold decMajor29
  case' lds => change decMajor2A w = _; unfold decMajor2A
  case' sts => change decMajor2B w = _; unfold decMajor2B
  case' atgAdd | atgMin | atgMax | atgMinu | atgMaxu | atgAnd | atgOr | atgXor | atgXchg | atgCas | atgFadd |
      atgFmin | atgFmax | atgHadd2 | atgIncw => change decMajor2C w = _; unfold decMajor2C
  case' atg64Add | atg64Minu | atg64Maxu | atg64And | atg64Or | atg64Xor | atg64Xchg | atg64Cas => change decMajor2D w = _; unfold decMajor2D
  case' atsAdd | atsMin | atsMax | atsMinu | atsMaxu | atsAnd | atsOr | atsXor | atsXchg | atsCas | atsFadd |
      atsFmin | atsFmax => change decMajor2E w = _; unfold decMajor2E
  case' fenceRel | fenceAcq | fencePhase | fenceDrain => change decMajor2F w = _; unfold decMajor2F
  case' ldga => change decMajor30 w = _; unfold decMajor30
  case' prefL1 | prefL2 => change decMajor31 w = _; unfold decMajor31
  case' cpyG2s | cpyS2g | cpyS2s | cpyG2g | cpyS2sm => change decMajor32 w = _; unfold decMajor32
  case' cwait | cwaitAll | cwaitQuery => change decMajor33 w = _; unfold decMajor33
  case' shopen | shpub | shabort | shstat => change decMajor34 w = _; unfold decMajor34
  case' raddF32 | raddBf16x2 | raddI32 | rmaxF32 | mst => change decMajor35 w = _; unfold decMajor35
  case' mma => change decMajor38 w = _; unfold decMajor38
  case' mmat => change decMajor39 w = _; unfold decMajor39
  case' mmas => change decMajor3A w = _; unfold decMajor3A
  case' mzero | mload | mdrain | mchk => change decMajor3B w = _; unfold decMajor3B
  case' mfs => change decMajor3C w = _; unfold decMajor3C
  case' mts => change decMajor3D w = _; unfold decMajor3D
  case' spstat | spscrub | spretire => change decMajor3E w = _; unfold decMajor3E
  case' absdiff | pkh | pkb | rdx | wrx =>
    simp only [fld_eq_split (hi := 9) (lo := 0) 3 (by decide) (by decide)]
  case' wsync =>
    simp only [fld_eq_split (hi := 24) (lo := 9) 21 (by decide) (by decide),
      fld_eq_split (hi := 24) (lo := 0) 21 (by decide) (by decide)]
  case' brx | callx | launch | launchb =>
    simp only [fld_eq_split (hi := 21) (lo := 0) 9 (by decide) (by decide)]
  case' waitt | spretire =>
    simp only [fld_eq_split (hi := 21) (lo := 0) 9 (by decide) (by decide),
      fld_eq_split (hi := 15) (lo := 0) 9 (by decide) (by decide)]
  case' trap =>
    simp only [fld_eq_split (hi := 21) (lo := 0) 15 (by decide) (by decide)]
  case' cwaitQuery =>
    simp only [fld_eq_split_high (hi := 21) (lo := 0) 6 (by decide) (by decide),
      fld_eq_split (hi := 21) (lo := 7) 15 (by decide) (by decide)]
  case' mload =>
    simp only [fld_eq_split (hi := 15) (lo := 0) 9 (by decide) (by decide)]
  case' mdrain =>
    simp only [fld_eq_split_high (hi := 15) (lo := 0) 6 (by decide) (by decide),
      fld_eq_split (hi := 15) (lo := 7) 9 (by decide) (by decide),
      fld_eq_split_high (hi := 9) (lo := 0) 6 (by decide) (by decide)]
  case pk4 => simp [hr]
  all_goals
    simp only [hr, Nat.reduceLT, Nat.le_refl, Nat.zero_le, Nat.reduceDiv, Nat.reducePow, Nat.reduceMod, Nat.reduceAdd,
      Nat.reduceSub] <;> rfl

/-- Settles O1, from what each row's word holds. -/
theorem encodedWordsDecode : Obligations.EncodedWordsDecode := by
  intro i w hwf h
  obtain ⟨n, hn, rfl⟩ := Option.map_eq_some_iff.1 h
  obtain ⟨hlt, hc, hf⟩ := decoded_of_encodeNat hn
  have hw : (BitVec.ofNat 32 n).toNat = n := by rw [BitVec.toNat_ofNat, Nat.mod_eq_of_lt hlt]
  exact decodeWord_eq_ok_iff.2 ⟨by rw [hw, hf], hwf, by rw [hw, hc]⟩

/-! ### Words written out from the encoding tables (R49, R51) -/

/-- Settles O47: each word is evaluated, and the two that are no instruction are ILLEGAL and a chained transfer. -/
theorem wordsRead : Obligations.WordsRead := by
  have h1 : decodeWord 0x00000001 = .error .illegal := rfl
  have h2 : decodeWord 0xC07FFFFD = .error .chainedTransfer := rfl
  exact ⟨rfl, rfl, rfl, rfl, rfl, rfl, fun i => by rw [h1]; exact nofun, fun i => by rw [h2]; exact nofun⟩

end Sys2Proof
end

section
/-! Sizes and operations of memory words (R46, R172, R177, R186, R187): bytes and words, and minimum and maximum. -/

namespace Sys2Proof.Machine

/-! ### Bytes of words (R3, R18, R177) -/

/-- A byte under a word is its lowest digit. -/
theorem toNat_append_byte {n : Nat} (v : BitVec n) (b : Byte) : (v ++ b).toNat = b.toNat + 256 * v.toNat := by
  have hb : b.toNat < 2 ^ 8 := b.isLt
  rw [BitVec.toNat_append, ← Nat.shiftLeft_add_eq_or_of_lt hb, Nat.shiftLeft_eq]
  omega

theorem ofBytes_two (b0 b1 : Byte) : ofBytes [b0, b1] = (b1 ++ b0).toNat := by
  simp [ofBytes, toNat_append_byte]

theorem ofBytes_four (b0 b1 b2 b3 : Byte) : ofBytes [b0, b1, b2, b3] = (b3 ++ b2 ++ b1 ++ b0).toNat := by
  simp [ofBytes, toNat_append_byte]

/-- The two's complement reading of a field is that of the bit vector. -/
theorem signed_toNat {n : Nat} (x : BitVec n) (hn : 0 < n) : signed n x.toNat = x.toInt := by
  have h : x.toNat < 2 ^ (n - 1) ↔ 2 * x.toNat < 2 ^ n := by rw [← Nat.two_pow_pred_add_two_pow_pred hn]; omega
  simp only [signed, Nat.mod_eq_of_lt x.isLt, BitVec.toInt_eq_toNat_cond, h, Nat.cast_pow, Nat.cast_ofNat]

/-- A value sign-extended is the one that its signed reading names. -/
theorem ofInt_signed_toNat {n : Nat} (x : BitVec n) (hn : 0 < n) :
    BitVec.ofInt 32 (signed n x.toNat) = x.signExtend 32 := by
  rw [signed_toNat x hn, BitVec.signExtend]

/-! ### Minimum and maximum (R97, R187) -/

/-- Where equal keys choose between equals, a choice by `≤` is the choice by `<`. -/
theorem ite_le_eq_ite_lt {α β : Type} [LinearOrder β] {p q : β} {x y : α} (h : p = q → x = y) :
    (if p ≤ q then x else y) = if p < q then x else y := by
  obtain hlt | heq | hgt := lt_trichotomy p q
  · simp [hlt, hlt.le]
  · simp [heq, h heq]
  · simp [hgt.not_ge, hgt.not_gt]

theorem intMin_eq (a b : Word) : intMin a b = if a.slt b then a else b := by
  simp only [intMin, BitVec.slt_iff_toInt_lt, ite_le_eq_ite_lt (x := a) BitVec.eq_of_toInt_eq]

theorem intMax_eq (a b : Word) : intMax a b = if a.slt b then b else a := by
  simp only [intMax, BitVec.slt_iff_toInt_lt, ite_le_eq_ite_lt (x := b) (fun h => (BitVec.eq_of_toInt_eq h).symm)]

theorem min_toNat_eq {n : Nat} (a b : BitVec n) :
    (if a.toNat ≤ b.toNat then a else b) = if a.ult b then a else b := by
  simp only [BitVec.ult_iff_toNat_lt, ite_le_eq_ite_lt (x := a) BitVec.eq_of_toNat_eq]

theorem max_toNat_eq {n : Nat} (a b : BitVec n) :
    (if a.toNat ≤ b.toNat then b else a) = if a.ult b then b else a := by
  simp only [BitVec.ult_iff_toNat_lt, ite_le_eq_ite_lt (x := b) (fun h => (BitVec.eq_of_toNat_eq h).symm)]

/-- The wrapping increment (R187) restarts from the bound on. -/
theorem incw_eq (a b : Word) : (if b.toNat ≤ a.toNat then 0 else a + 1) = if a.ult b then a + 1 else 0 := by
  simp only [BitVec.ult_iff_toNat_lt, ← not_lt, ite_not]

/-! ### Offsets and loads (R46, R172, R177) -/

theorem memOff_long (k : Word) (z : Nat) : memOff k 15 z = k.toInt := rfl

theorem memOff_short (k : Word) (z : Nat) {o : BitVec 4} (h : o ≠ 15) : memOff k o z = (o.toNat * szBytes z : Nat) :=
  if_neg h

/-- R46, R172, R177, R186, R187: sizes and operations, one clause by each lemma above.

Settles O33. -/
theorem sizesAndOperations : Obligations.SizesAndOperations := by
  unfold Obligations.SizesAndOperations
  intro l o b x k p q y n b0 b1 b2 b3 b4 b5 b6 b7
  refine ⟨memOff_long k 4, fun h => ⟨?_, ?_⟩, ?_, ?_, ?_, ?_, ?_, ?_, rfl, intMin_eq o b, intMax_eq o b,
    min_toNat_eq o b, max_toNat_eq o b, rfl, rfl, rfl, rfl, rfl, incw_eq o b, rfl, min_toNat_eq p q, max_toNat_eq p q,
    rfl, rfl, rfl, rfl, rfl⟩
  · simp [memOff_short k 4 h, szBytes, nth]
  · simp [memOff_short k 6 h, szBytes, nth]
  · simp [loadWords, ofBytes]
  · simp [loadWords, ← ofInt_signed_toNat b0, ofBytes]
  · simp [loadWords, ofBytes_two]
  · simp only [loadWords, ofBytes_two, ofInt_signed_toNat (b1 ++ b0) (by decide)]
  · simp [loadWords, ofBytes_four]
  · simp [loadWords, szCount, fieldAt, ofBytes_four, List.range_succ]

end Sys2Proof.Machine
end

section
/-! What an issue hands to its instruction (R38, R42, R54, R130): the tables of a skein through the grouping stage, and
the state that fetch and decoding leave. -/

namespace Sys2Proof.Machine

/-! ### Records of a map -/

theorem Cells.mem_set {α : Type} [DecidableEq α] {d : α} {m : Cells α} {a : Nat} {v : α} {e : Nat × α}
    (h : e ∈ Cells.set d m a v) : e ∈ m ∨ e = (a, v) := by
  induction m with
  | nil =>
    unfold Cells.set at h
    split_ifs at h
    · exact absurd h List.not_mem_nil
    · exact .inr (List.mem_singleton.mp h)
  | cons x t ih =>
    unfold Cells.set at h
    split_ifs at h
    · exact .inl h
    · rcases List.mem_cons.mp h with rfl | h
      · exact .inr rfl
      · exact .inl h
    · exact .inl (List.mem_cons_of_mem _ ((List.dropWhile_suffix _).subset h))
    · rcases List.mem_cons.mp h with rfl | h
      · exact .inr rfl
      · exact .inl (List.mem_cons_of_mem _ h)
    · rcases List.mem_cons.mp h with rfl | h
      · exact .inl (List.mem_cons_self ..)
      · exact (ih h).imp (List.mem_cons_of_mem _) id

theorem Cells.mem_of_get {α : Type} {d : α} {m : Cells α} {a : Nat} (h : Cells.get d m a ≠ d) :
    (a, Cells.get d m a) ∈ m := by
  induction m with
  | nil => exact absurd rfl h
  | cons x t ih =>
    simp only [Cells.get] at h ⊢
    split_ifs at h ⊢ with h1 h2
    · exact absurd rfl h
    · exact h2 ▸ List.mem_cons_self ..
    · exact List.mem_cons_of_mem _ (ih h)

theorem Tab.mem_of_get {α : Type} {t : Tab α} {k : Nat} {v : α} (h : Tab.get t k = some v) : (k, some v) ∈ t := by
  have hm := Cells.mem_of_get (d := none) (m := t) (a := k) (by rw [← Tab.get, h]; exact Option.some_ne_none v)
  rwa [← Tab.get, h] at hm

/-- Changing one record keeps a table's canonical form. -/
theorem Tab.wf_upd {α : Type} [DecidableEq α] {t : Tab α} (h : Cells.wf none t = true) (k : Nat) (f : α → α) :
    Cells.wf none (Tab.upd t k f) = true := by
  unfold Tab.upd
  split
  · exact Cells.wfFrom_set _ _ _ _ _ (Nat.zero_le _) h
  · exact h

theorem Tab.wf_foldl_upd {α : Type} [DecidableEq α] (f : Nat → α → α) (is : List Nat) {t : Tab α}
    (h : Cells.wf none t = true) : Cells.wf none (is.foldl (fun t i => Tab.upd t i (f i)) t) = true := by
  induction is generalizing t with
  | nil => exact h
  | cons i l ih => exact ih (Tab.wf_upd h i (f i))

/-! ### The tables of a skein in canonical form -/

/-- The tables of strands and wefts of one skein are in canonical form. -/
def Skein.TablesWf (sk : Skein) : Prop := Cells.wf none sk.strands = true ∧ Cells.wf none sk.wefts = true

theorem State.TablesWf.of_skein? {s : State} (h : s.TablesWf) {k : Nat} {sk : Skein} (hk : s.skein? k = some sk) :
    sk.TablesWf := h k sk (Tab.mem_of_get hk)

theorem State.TablesWf.modSkein {s : State} (h : s.TablesWf) (k : Nat) (f : Skein → Skein)
    (hf : ∀ sk, sk.TablesWf → (f sk).TablesWf) : (s.modSkein k f).TablesWf := by
  intro j x hx
  rw [State.modSkein_skeins, Tab.upd] at hx
  cases hk : Tab.get s.skeins k with
  | none => rw [hk] at hx; exact h j x hx
  | some sk =>
    rw [hk] at hx
    rcases Cells.mem_set hx with hx | hx
    · exact h j x hx
    · cases hx
      exact hf sk (h.of_skein? hk)

theorem State.TablesWf.modWeft {s : State} (h : s.TablesWf) (k w : Nat) (f : Weft → Weft) : (s.modWeft k w f).TablesWf :=
  h.modSkein k _ (fun _ hx => ⟨hx.1, Tab.wf_upd hx.2 w f⟩)

theorem State.TablesWf.modStrands {s : State} (h : s.TablesWf) (k : Nat) (is : List Nat) (f : Nat → Strand → Strand) :
    (s.modStrands k is f).TablesWf :=
  h.modSkein k _ (fun _ hx => ⟨Tab.wf_foldl_upd f is hx.1, hx.2⟩)

/-! ### The grouping stage keeps them (R130, R131) -/

theorem State.TablesWf.foldl {β : Type} (f : State → β → State) (hf : ∀ s b, s.TablesWf → (f s b).TablesWf) (l : List β)
    {s : State} (h : s.TablesWf) : (l.foldl f s).TablesWf := by
  induction l generalizing s with
  | nil => exact h
  | cons b l ih => exact ih (hf s b h)

theorem State.TablesWf.wakePath {s : State} (h : s.TablesWf) (k w : Nat) (p : Word → Bool) : (s.wakePath k w p).TablesWf := by
  unfold State.wakePath
  split
  · exact h
  · exact h.modStrands k _ _

theorem State.TablesWf.giveEntry {s t : State} (h : s.TablesWf) {c k w : Nat} {p : Word}
    (ht : s.giveEntry c k w p = some t) : t.TablesWf := by
  unfold State.giveEntry at ht
  split at ht
  · exact absurd ht (by simp)
  · simp only at ht
    split_ifs at ht <;> cases ht <;> exact (h.modWeft k w _).wakePath k w _

theorem State.TablesWf.handOut {s : State} (h : s.TablesWf) (c n : Nat) : (s.handOut c n).TablesWf := by
  induction n generalizing s with
  | zero => exact h
  | succ n ih =>
    unfold State.handOut
    split
    · exact h
    · split
      · exact h
      · next ht => exact ih (h.giveEntry ht)

theorem State.TablesWf.regroupWeft {s : State} (h : s.TablesWf) (c k w : Nat) : (s.regroupWeft c k w).TablesWf := by
  unfold State.regroupWeft
  split
  · refine State.TablesWf.foldl _ (fun t p ht => ?_) _ (((h.modWeft k w _).wakePath k w _).handOut c 41)
    split
    · next hu => exact ht.giveEntry hu
    · exact ht.modStrands k _ _
  · exact h

theorem State.TablesWf.trimActive {s : State} (h : s.TablesWf) (c : Nat) : (s.trimActive c).TablesWf := by
  refine State.TablesWf.foldl _ (fun t e ht => ?_) _ h
  split_ifs
  · exact (ht.modWeft _ _ _).wakePath _ _ _
  · exact ht

theorem State.TablesWf.refresh {s : State} (h : s.TablesWf) (c : Nat) : (s.refresh c).TablesWf := by
  refine State.TablesWf.trimActive (State.TablesWf.foldl _ (fun t e ht => ?_) _ h) c
  split_ifs
  · exact ht.regroupWeft _ _ _
  · exact ht

theorem State.TablesWf.regroup {s : State} (h : s.TablesWf) (c k w : Nat) : (s.regroup c k w).TablesWf :=
  (h.refresh c).regroupWeft c k w

/-! ### Strands that may issue together (R130) -/

theorem Skein.members_nodup (sk : Skein) (w : Nat) : (sk.members w).Nodup := by
  unfold Skein.members
  split
  · exact List.nodup_nil
  · refine List.nodup_range.filterMap fun a a' b h h' => ?_
    split_ifs at h h' <;> simp at h h'
    omega

theorem Skein.mem_readyOf {sk : Skein} {w : Nat} {e : Nat × Word} :
    e ∈ sk.readyOf w ↔ e.1 ∈ sk.members w ∧ ∃ x, Tab.get sk.strands e.1 = some x ∧ x.status = .ready ∧ x.pc = e.2 := by
  unfold Skein.readyOf
  rw [List.mem_filterMap]
  constructor
  · rintro ⟨i, hi, h⟩
    split at h
    · next x hx =>
      split_ifs at h with hr
      cases h
      exact ⟨hi, x, hx, hr, rfl⟩
    · cases h
  · rintro ⟨hi, x, hx, hr, hp⟩
    exact ⟨e.1, hi, by simp [hx, hr, hp]⟩

/-- Each strand is listed once among the READY ones. -/
theorem Skein.readyOf_nodup (sk : Skein) (w : Nat) : ((sk.readyOf w).map Prod.fst).Nodup := by
  refine List.Nodup.sublist ?_ (sk.members_nodup w)
  unfold Skein.readyOf
  induction sk.members w with
  | nil => exact List.Sublist.refl _
  | cons i l ih =>
    rw [List.filterMap_cons]
    split
    · exact ih.cons _
    · next b hb =>
      have : b.1 = i := by
        split at hb
        · split_ifs at hb; cases hb; rfl
        · cases hb
      simpa [this] using ih

/-- Strands that an issue at a PC may name: distinct members of the weft, READY at the PC, with no access of their own under
way. -/
def Skein.MayIssueAt (sk : Skein) (w : Nat) (is : List Nat) (pc : Word) : Prop :=
  is ≠ [] ∧ is.Nodup ∧ ∀ j ∈ is, j ∈ sk.members w ∧
    ∃ x, Tab.get sk.strands j = some x ∧ x.status = .ready ∧ x.pc = pc ∧ x.hold = none

/-- READY strands at one PC, of those without an access under way. -/
theorem Skein.mayIssueAt_of_sublist {sk : Skein} {w : Nat} {l : List (Nat × Word)} {pc : Word} (hl : l.Sublist (sk.readyOf w))
    (hne : l ≠ []) (hh : ∀ e ∈ l, (Tab.get sk.strands e.1).elim false (fun t => t.hold.isNone) = true)
    (hp : ∀ e ∈ l, e.2 = pc) : sk.MayIssueAt w (l.map Prod.fst) pc := by
  refine ⟨by simpa using hne, (sk.readyOf_nodup w).sublist (hl.map _), fun j hj => ?_⟩
  obtain ⟨e, he, rfl⟩ := List.mem_map.mp hj
  obtain ⟨hm, x, hx, hr, hpc⟩ := Skein.mem_readyOf.mp (hl.subset he)
  have := hh e he
  exact ⟨hm, x, hx, hr, hpc.trans (hp e he), by simpa [hx] using this⟩

theorem foldl_pick_mem {α : Type} (p : α → α → Bool) (l : List α) (x : α) :
    l.foldl (fun b e => if p b e then b else e) x ∈ x :: l := by
  induction l generalizing x with
  | nil => exact List.mem_singleton_self x
  | cons y l ih =>
    rw [List.foldl_cons]
    split_ifs
    · exact List.mem_cons.mpr ((List.mem_cons.mp (ih x)).imp id (List.mem_cons_of_mem _))
    · exact List.mem_cons_of_mem _ (ih y)

/-- The PC picked is that of a candidate (R130). -/
theorem groupPick_mem {cand : List (BufEntry × Nat)} {yielded : Word → Bool} {clock : Nat} {pc : Word}
    (h : groupPick cand yielded clock = some pc) : ∃ e ∈ cand, e.1.pc = pc := by
  unfold groupPick at h
  simp only at h
  split_ifs at h
  · split at h
    · cases h
    · next x l _ => exact ⟨_, foldl_pick_mem _ l x, Option.some.inj h⟩
  · split at h
    · cases h
    · next x l hl => exact ⟨_, List.mem_of_mem_filter (hl ▸ foldl_pick_mem _ l x), Option.some.inj h⟩

/-- At the PC picked, strands may issue together (R130). -/
theorem State.mayIssueAt_groupPick {s : State} {sk : Skein} {w : Nat} {wf : Weft} {yielded : Word → Bool} {clock : Nat} {pc : Word}
    (h : groupPick (s.candidates sk w wf) yielded clock = some pc) :
    sk.MayIssueAt w (((s.canIssue sk w).filter (fun e => e.2 == pc)).map Prod.fst) pc := by
  obtain ⟨e, he, rfl⟩ := groupPick_mem h
  obtain ⟨b, -, hb⟩ := List.mem_filterMap.mp he
  have hsub : ((s.canIssue sk w).filter (fun r => r.2 == e.1.pc)).Sublist (sk.readyOf w) :=
    List.filter_sublist.trans List.filter_sublist
  refine Skein.mayIssueAt_of_sublist hsub (fun hnil => ?_) (fun r hr => ?_) (fun r hr => ?_)
  · simp only at hb
    split_ifs at hb with hn
    cases hb
    refine hn (List.length_eq_zero_iff.mpr (List.filter_eq_nil_iff.mpr fun r hr => ?_))
    exact List.filter_eq_nil_iff.mp hnil r (List.mem_of_mem_filter hr)
  · exact (Bool.and_eq_true_iff.mp (List.mem_filter.mp (List.mem_of_mem_filter hr)).2).1
  · exact eq_of_beq (List.mem_filter.mp hr).2

/-- So they may at the PC where the first of them continues its chain (R48, R268). -/
theorem Skein.mayIssueAt_midChain {sk : Skein} {w : Nat} {wf : Weft} {e : Nat × Word} {rest : List (Nat × Word)}
    (h : sk.midChain w wf = e :: rest) :
    sk.MayIssueAt w (e.1 :: (rest.filter (fun x => x.2 == e.2)).map Prod.fst) e.2 := by
  have hsub : (e :: rest.filter (fun x => x.2 == e.2)).Sublist (sk.midChain w wf) := by
    rw [h]
    exact List.filter_sublist.cons_cons e
  rw [← List.map_cons]
  refine Skein.mayIssueAt_of_sublist (hsub.trans List.filter_sublist) (List.cons_ne_nil _ _) (fun r hr => ?_) (fun r hr => ?_)
  · exact (Bool.and_eq_true_iff.mp (List.mem_filter.mp (hsub.subset hr)).2).2
  · rcases List.mem_cons.mp hr with rfl | hr
    · rfl
    · exact eq_of_beq (List.mem_filter.mp hr).2

/-! ### What a turn of the grouping stage comes to (R38, R54, R130) -/

/-- An issue begins at a state: its weft and its bolt have noted it, and it is the current one. -/
def State.beginIssue (t : State) (f : Weft → Weft) (bolt : Nat) (x : Issue) : State :=
  { (t.modWeft x.skein x.weft f).modBolt bolt (fun b => { b with watchdog := 0 }) with cur := x }

section
variable {s r t : State} {k w : Nat} {sk : Skein} {c : Nat} {is : List Nat} {pc : Word} {reuse l1 : Bool} {moment : Option Nat}
  {i : Instr} {b : List Byte}

/-- An issue whose packet is at hand, and whose chain has no encoding trap, begins and hands on the word at its PC, with the
packet's tail as K. -/
theorem State.issueAt_eq (hsize : pc.toNat * 4 < sk.kern.codeSize) (hb : s.packetAt sk c pc = some (b, t))
    (hchain : chainTrap sk.kern (t.privOf sk) (chainFrom b 3 (pc.toNat % 4)) = none)
    (hi : decodeUnchained (packetWord b (pc.toNat % 4)) = .ok i) :
    ∃ f x, (∀ wf, (f wf).g = wf.g) ∧
      x = { skein := k, weft := w, strands := is, pc := pc, word := packetWord b (pc.toNat % 4), k := packetWord b 3,
            reuse := reuse, l1 := l1, moment := moment, before := x.before, denied := [] } ∧
      s.issueAt k w sk c is pc reuse l1 moment = (t.beginIssue f sk.bolt x, some i) := by
  unfold State.issueAt
  rw [if_neg (by omega)]
  simp only [hb, hchain, hi]
  refine ⟨_, _, ?_, ?_, rfl⟩
  · exact fun _ => rfl
  · rfl

/-- An issue that comes to an instruction has its packet at hand, and its chain has no encoding trap. -/
theorem State.issueAt_eq_some (h : s.issueAt k w sk c is pc reuse l1 moment = (r, some i)) :
    pc.toNat * 4 < sk.kern.codeSize ∧ ∃ b t, s.packetAt sk c pc = some (b, t) ∧
      chainTrap sk.kern (t.privOf sk) (chainFrom b 3 (pc.toNat % 4)) = none ∧
      decodeUnchained (packetWord b (pc.toNat % 4)) = .ok i := by
  unfold State.issueAt at h
  split_ifs at h with hsize
  · simp at h
  · split at h
    · simp at h
    · next b t hb =>
      simp only at h
      split at h
      · simp at h
      · next hchain =>
        split at h
        · simp at h
        · next j hj =>
          obtain ⟨-, hji⟩ := Prod.mk.inj h
          cases hji
          exact ⟨by omega, b, t, hb, hchain, hj⟩

/-- Fetching a packet changes what the core's cache holds, and no skein, bolt, context or launch (R308). -/
theorem State.packetAt_keeps (h : s.packetAt sk c pc = some (b, t)) : t.skeins = s.skeins := by
  unfold State.packetAt at h
  simp only at h
  split at h
  · cases h; rfl
  · obtain ⟨l, -, h⟩ := Option.map_eq_some_iff.mp h
    cases h; rfl

end

section
variable (t : State) (f : Weft → Weft) (bolt : Nat) (x : Issue)

@[simp] theorem State.beginIssue_cur : (t.beginIssue f bolt x).cur = x := rfl

theorem State.beginIssue_eq : t.beginIssue f bolt x = { t with
    skeins := (t.beginIssue f bolt x).skeins, bolts := (t.beginIssue f bolt x).bolts, cur := x } := rfl

theorem State.skein?_beginIssue (m : Nat) : (t.beginIssue f bolt x).skein? m =
    if m = x.skein then (t.skein? m).map (fun sk => { sk with wefts := Tab.upd sk.wefts x.weft f }) else t.skein? m :=
  State.skein?_modSkein t x.skein m _

@[simp] theorem State.strand?_beginIssue (m j : Nat) : (t.beginIssue f bolt x).strand? m j = t.strand? m j :=
  State.strand?_modWeft t x.skein x.weft m j f

/-- A weft keeps its members where its width stays. -/
theorem Skein.members_upd (sk : Skein) (w a : Nat) {f : Weft → Weft} (hf : ∀ x, (f x).g = x.g) :
    ({ sk with wefts := Tab.upd sk.wefts w f } : Skein).members a = sk.members a := by
  unfold Skein.members
  simp only [Tab.get_upd]
  split_ifs
  · cases Tab.get sk.wefts a with
    | none => rfl
    | some x => simp [hf]
  · rfl

theorem State.kern_skein?_beginIssue (m : Nat) :
    ((t.beginIssue f bolt x).skein? m).map Skein.kern = (t.skein? m).map Skein.kern := by
  rw [State.skein?_beginIssue]
  split_ifs
  · rw [Option.map_map]; rfl
  · rfl

/-- The launch of a bolt, and so the privilege of its skeins, stays. -/
theorem State.privOf_beginIssue (sk : Skein) : (t.beginIssue f bolt x).privOf sk = t.privOf sk := by
  have hl : ∀ y : Option Bolt, ((y.map (fun b : Bolt => { b with watchdog := 0 })).bind (fun b => Tab.get t.launches b.launch)) =
      y.bind (fun b => Tab.get t.launches b.launch) := fun y => by cases y <;> rfl
  have hb : ((t.beginIssue f bolt x).bolt? sk.bolt).bind (fun b => Tab.get t.launches b.launch) =
      (t.bolt? sk.bolt).bind (fun b => Tab.get t.launches b.launch) := by
    have : (t.beginIssue f bolt x).bolt? sk.bolt = _ := State.bolt?_modBolt (t.modWeft x.skein x.weft f) bolt sk.bolt _
    rw [this]
    split_ifs
    · exact hl _
    · rfl
  unfold State.privOf
  exact congrArg₂ (· && ·) rfl (by rw [← hb]; rfl)

end

/-- A chain without an encoding trap starts with a word that has none (R54). -/
theorem wordTrap_of_chainTrap {kern : Kernel} {priv : Bool} {b : List Byte} {slot : Nat} {i : Instr}
    (h : chainTrap kern priv (chainFrom b 3 slot) = none) (hi : decodeUnchained (packetWord b slot) = .ok i) :
    wordTrap kern priv i = none := by
  have hmem : (slot, packetWord b slot) ∈ chainFrom b 3 slot := by
    unfold chainFrom
    simp only
    split_ifs <;> exact List.mem_cons_self ..
  unfold chainTrap at h
  split at h
  · cases h
  · split at h
    · cases h
    · have := List.findSome?_eq_none_iff.mp h _ hmem
      simpa [hi] using this

/-- The issue of a weft that comes to an instruction is one of strands that may issue together, in a state whose tables are
still in canonical form. -/
theorem State.prepareIssue_eq_some {s r : State} {k w : Nat} {reuse l1 : Bool} {moment : Option Nat} {i : Instr} (hs : s.TablesWf)
    (h : s.prepareIssue k w reuse l1 moment = (r, some i)) :
    ∃ (u : State) (sk : Skein) (c : Nat) (is : List Nat) (pc : Word), u.TablesWf ∧ u.skein? k = some sk ∧ sk.MayIssueAt w is pc ∧
      u.issueAt k w sk c is pc reuse l1 moment = (r, some i) := by
  unfold State.prepareIssue at h
  split at h
  · next sk wf hk hw =>
    split at h
    · simp at h
    · next c hc =>
      split_ifs at h with h1 h2
      · simp at h
      · simp only at h
        split at h
        · next sk1 wf1 hk1 hw1 =>
          split at h
          · simp at h
          · next pc hpick =>
            split_ifs at h
            · exact ⟨_, sk1, c, _, _, hs.regroup c k w, hk1, State.mayIssueAt_groupPick hpick, h⟩
            · simp at h
        · simp at h
      · split at h
        · next e rest hmid =>
          split_ifs at h
          · exact ⟨s, sk, c, _, _, hs, hk, Skein.mayIssueAt_midChain hmid, h⟩
          · simp at h
        · simp at h
  · simp at h

/-- Settles O42: the grouping stage names strands that may issue together, and the issue begins with their skein's strands
and privilege as they were. -/
theorem issueIsSound : Obligations.IssueIsSound := by
  unfold Obligations.IssueIsSound
  intro s t k w reuse l1 moment i hs h
  obtain ⟨u, sk, c, is, pc, hu, hk, ⟨hne, hnd, hmem⟩, hat⟩ := State.prepareIssue_eq_some hs h
  obtain ⟨hsize, b, v, hb, hchain, hi⟩ := State.issueAt_eq_some hat
  obtain ⟨f, x, hg, hx, heq⟩ := State.issueAt_eq (k := k) (w := w) (is := is) (reuse := reuse) (l1 := l1) (moment := moment)
    hsize hb hchain hi
  obtain ⟨rfl, -⟩ := Prod.mk.inj (hat.symm.trans heq)
  have hv : v.skein? k = some sk := by rw [State.skein?, State.packetAt_keeps hb]; exact hk
  obtain ⟨rfl, rfl, rfl, rfl, hd⟩ : x.skein = k ∧ x.weft = w ∧ x.strands = is ∧ x.pc = pc ∧ x.denied = [] := by
    rw [hx]
    exact ⟨rfl, rfl, rfl, rfl, rfl⟩
  have hsk : (v.beginIssue f sk.bolt x).skein? x.skein = some { sk with wefts := Tab.upd sk.wefts x.weft f } := by
    rw [State.skein?_beginIssue, if_pos rfl, hv]; rfl
  obtain ⟨hws, hww⟩ := hu.of_skein? hk
  refine ⟨{ sk with wefts := Tab.upd sk.wefts x.weft f }, ⟨hsk, hd, hws, Tab.wf_upd hww x.weft f, hnd, fun j hj => ?_⟩, rfl, rfl,
    hne, (State.privOf_beginIssue ..).symm ▸ wordTrap_of_chainTrap hchain hi, fun j hj => ?_⟩
  · obtain ⟨-, y, hy, -⟩ := hmem j hj
    exact Option.isSome_of_eq_some hy
  · obtain ⟨hm, y, hy, hr⟩ := hmem j hj
    exact ⟨(Skein.members_upd sk x.weft x.weft hg).symm ▸ hm, y, by rw [State.strand?_beginIssue, State.strand?, hv]; exact hy, hr⟩

/-! ### A step runs what it decodes (R38, R39, R42, R43, R130) -/

/-- The turn of a weft that may issue, where the grouping picks a PC, is the issue of the strands that may issue there. -/
theorem State.prepareIssue_eq {u : State} {k w c : Nat} {reuse l1 : Bool} {moment : Option Nat} {sk0 sk : Skein} {wf0 wf : Weft}
    {pc : Word} (hk : u.skein? k = some sk0) (hw : u.weft? k w = some wf0) (hc : sk0.core = some c)
    (hmay : u.mayIssue sk0.ctx = true) (hact : wf0.activeSince.isSome = true) (hshd : wf0.shadowWait = none)
    (hscr : wf0.scrubWait = false) (hret : wf0.retireWait = none) (hk1 : (u.regroup c k w).skein? k = some sk)
    (hw1 : (u.regroup c k w).weft? k w = some wf)
    (hpick : groupPick ((u.regroup c k w).candidates sk w wf) ((u.regroup c k w).hasYielded sk w wf) (u.regroup c k w).clock = some pc)
    (hfree : (u.regroup c k w).cycleFree wf pc = true) :
    u.prepareIssue k w reuse l1 moment = (u.regroup c k w).issueAt k w sk c
      ((((u.regroup c k w).canIssue sk w).filter (fun e => e.2 == pc)).map Prod.fst) pc reuse l1 moment := by
  unfold State.prepareIssue
  simp only [hk, hw, hc]
  rw [if_neg (by simp [Option.isSome_iff_ne_none.mp hact, hshd, hscr, hret]), if_neg (by simp [hmay])]
  simp only [hk1, hw1, hpick, hfree, if_true]

/-- A step of a schedule runs what its first move comes to, once the time of the turn has passed and what is due has
settled. -/
theorem step_schedule {s : State} {n : Nat} {m : Move} {rest : List Turn} (h : s.schedule = { wait := n, move := m } :: rest) :
    step s = runTurn (State.turnOf (({ s with schedule := rest } : State).tick (s.slack n)).settle m) := by
  unfold step State.takeTurn
  rw [h]

theorem isWord_eq_false {i : Instr} (h : encode i = none) : isWord i = false := by
  simpa [isWord, encode] using h

/-- Settles O41: each move of the schedule, an issue by what the grouping and the fetch come to. -/
theorem stepRunsDecoded : Obligations.StepRunsDecoded := by
  unfold Obligations.StepRunsDecoded
  intro s n rest u
  refine ⟨fun i hs hi => ?_, fun hs => step_schedule hs, ?_⟩
  · rw [step_schedule hs, State.turnOf, isWord_eq_false hi]
    rfl
  · intro k w c reuse l1 moment sk0 sk wf0 wf pc b t i hs hk hw hc hmay hact hshd hscr hret hk1 hw1 hpick hfree hsize hb hchain hi
    obtain ⟨f, x, -, hx, heq⟩ := State.issueAt_eq (k := k) (w := w) (reuse := reuse) (l1 := l1) (moment := moment)
      (is := (((u.regroup c k w).canIssue sk w).filter (fun e => e.2 == pc)).map Prod.fst) hsize hb hchain hi
    refine ⟨t.beginIssue f sk.bolt x, ?_, State.beginIssue_eq t f sk.bolt x, hx, State.strand?_beginIssue t f sk.bolt x,
      State.kern_skein?_beginIssue t f sk.bolt x⟩
    rw [step_schedule hs, State.turnOf, State.prepareIssue_eq hk hw hc hmay hact hshd hscr hret hk1 hw1 hpick hfree, heq]
    rfl

end Sys2Proof.Machine
end

section
/-! Nothing stops the machine (R51, R146, R184): each row of the opcode table, and each step that the machine takes by
itself, goes on. -/

namespace Sys2Proof.Machine

theorem goesOn_next (t : State) : goesOn (.next t) := ⟨t, rfl⟩

/-! ### Words -/

/-- Every word but NOP acts through the frame of a word: it differs from the others in its body alone (R54). -/
theorem exec_eq_word {i : Instr} (h : isWord i = true) (hn : i ≠ .nop) (s : State) : ∃ body, exec i s = s.word i body := by
  cases i
  case nop => exact absurd rfl hn
  all_goals cases h
  all_goals exact ⟨_, rfl⟩

theorem State.word_goesOn (s : State) (i : Instr) (body : Skein → State → Attempt) : goesOn (s.word i body) := by
  unfold State.word
  split
  · exact goesOn_next _
  · split <;> exact goesOn_next _

theorem exec_word_goesOn {i : Instr} (h : isWord i = true) (s : State) : goesOn (exec i s) := by
  by_cases hn : i = .nop
  · subst hn
    exact goesOn_next _
  · obtain ⟨body, hb⟩ := exec_eq_word h hn s
    rw [hb]
    exact s.word_goesOn i body

/-! ### Commands and events -/

/-- The frame of a command goes on whatever its body ends in (R341 to R344). -/
theorem State.command_goesOn (s : State) (qn opcode : Nat) (used : List (Nat × Nat)) (body : Cmd → State → CmdEnd) :
    goesOn (s.command qn opcode used body) := by
  unfold State.command
  dsimp only
  repeat' first | with_reducible exact goesOn_next _ | split

/-- Every branch of an event goes on: one that is not due, or finds no record to act on, leaves the state as it is. -/
theorem exec_event_goesOn {i : Instr} (h : isWord i = false) (s : State) : goesOn (exec i s) := by
  cases i
  all_goals cases h
  all_goals dsimp only [exec]
  case build | setkeys | destroy | launchCmd | evset | evclear | evread | cancel | setroot | ringset | rspool | qopen |
      qclose | protect | tinval =>
    exact State.command_goesOn ..
  all_goals dsimp only [
    execActiveSetEntry, execActiveSetTimeout, execPathwaitTimeout, execSliceTimeout, execWakePacket, execWatchTimeout,
    execRebuildComplete, execScrubPass, execSpscrubComplete, execLoadReply, execLdgaWrite, execStoreAck, execAtomicReply,
    execShadowOpenRequest, execShpubArrival, execPublishPrepare, execPublishCommit, execPublishAbort, execReplicaTimeout,
    execShdReply, execShadowWrite, execRstAck, execCopyChunk, execCopyRetire, execCopyNack, execCopyViolation,
    execBindRecordWrite, execBoltStart, execSkeinEnd, execWatchdog, execDoorbell, execQreset, execContextBuilt,
    execKeyTableUpdateApplied, execAttest, execWalkComplete, execInstructionFetchReply, execTokenArrival, execFlitReceive,
    execFlitReplayTimeout, execRotationStep, execRetrainDone, execShadowCalibrationDone, execLoomLossOfLight,
    execAbandonTimeout, execHaltComplete, execContextSaveComplete, execImageSpillStart, execSpillComplete, execRestore,
    execRestoreComplete, execMoveComplete, execRecodingComplete, execFilterInvalidation, execFilterAck, execReplay,
    execExtentGrant, execGenbump, execPoolExtentWithdrawal, execPoolInflightTimeout, execPortTraining, execPortDown,
    execPortUp, execFabricResponseTimeout, execFabricLaneWeak, execFabricLaneLost, execPartitionReady, execMeterIntervalEnd,
    execCapcfgWrite, execCaptureSample, execHostMmioViolation, execReadring, execSetopkey, execResetRelease,
    execEngineOpStart, execEngineOpDone, execFaultRecordDelivery, execWcAgeExpiry, execReadyToken, execStartToken,
    execJoinTimeout, execWaittDeadline, execParityApply, execHomeRequest, execBackInvalidate, execPreempt, execMigrate,
    execTiermove, execCompress, execExpand, execExtentWithdraw, execCarve, execUncarve, execPartset, execRegisterWrite,
    execPowerOverLimit, execPwrcap, execReset]
  all_goals repeat' first
    | with_reducible exact goesOn_next _
    | with_reducible exact State.command_goesOn ..
    | split

theorem exec_goesOn (i : Instr) (s : State) : goesOn (exec i s) := by
  cases h : isWord i with
  | true => exact exec_word_goesOn h s
  | false => exact exec_event_goesOn h s

/-! ### Steps of the machine's own -/

/-- A command that is taken is the row of its opcode. -/
theorem State.runCommand_goesOn (s : State) (q o : Nat) : goesOn (s.runCommand q o) := by
  unfold State.runCommand
  split
  · exact exec_goesOn (.evset q) s
  · exact exec_goesOn (.evclear q) s
  · exact exec_goesOn (.evread q) s
  · exact exec_goesOn (.cancel q) s
  · exact exec_goesOn (.build q) s
  · exact exec_goesOn (.destroy q) s
  · exact exec_goesOn (.setkeys q) s
  · exact exec_goesOn (.setroot q) s
  · exact exec_goesOn (.ringset q) s
  · exact exec_goesOn (.qopen q) s
  · exact exec_goesOn (.qclose q) s
  · exact exec_goesOn (.replay (some q) 0) s
  · exact exec_goesOn (.tinval q) s
  · exact exec_goesOn (.protect q) s
  · exact exec_goesOn (.attest (some q) []) s
  · exact exec_goesOn (.rspool q) s
  · exact exec_goesOn (.launchCmd q) s

/-- A due step is a row of the opcode table, with what its source holds. -/
theorem State.runDue_goesOn (s : State) : ∀ d : Due, goesOn (s.runDue d)
  | .issue _ _ => goesOn_next s
  | .activeSetEntry k w => exec_goesOn (.activeSetEntry k w) s
  | .flitReceive l => exec_goesOn (.flitReceive (l / 256) (l % 256) [] []) s
  | .tokenArrival l => exec_goesOn (.tokenArrival (l / 256) (l % 256)) s
  | .walkComplete w => exec_goesOn (.walkComplete w) s
  | .wcAgeExpiry c l => exec_goesOn (.wcAgeExpiry c l) s
  | .homeRequest w => exec_goesOn (.homeRequest w) s
  | .shadowWrite r => exec_goesOn (.shadowWrite r) s
  | .extentWithdraw e => exec_goesOn (.extentWithdraw e) s
  | .loadReply r m => exec_goesOn (.loadReply r m _) s
  | .ldgaWrite r m => exec_goesOn (.ldgaWrite r m _) s
  | .storeAck r => exec_goesOn (.storeAck r _) s
  | .atomicReply r => exec_goesOn (.atomicReply r _) s
  | .rstAck r => exec_goesOn (.rstAck r _) s
  | .instructionFetchReply f => exec_goesOn (.instructionFetchReply f) s
  | .wakePacket c e => exec_goesOn (.wakePacket c e _) s
  | .copyChunk c => exec_goesOn (.copyChunk c _) s
  | .engineOpStart c => exec_goesOn (.engineOpStart c) s
  | .engineOpDone c => exec_goesOn (.engineOpDone c) s
  | .parityApply c g => exec_goesOn (.parityApply c g) s
  | .skeinEnd k => exec_goesOn (.skeinEnd k) s
  | .waittDeadline k i => exec_goesOn (.waittDeadline k i) s
  | .joinTimeout k w p => exec_goesOn (.joinTimeout k w p) s
  | .sliceTimeout k w => exec_goesOn (.sliceTimeout k w) s
  | .pathwaitTimeout k w p => exec_goesOn (.pathwaitTimeout k w p) s
  | .activeSetTimeout k w => exec_goesOn (.activeSetTimeout k w) s
  | .watchTimeout c e => exec_goesOn (.watchTimeout c e _) s
  | .watchdog b => exec_goesOn (.watchdog b) s
  | .copyRetire c => exec_goesOn (.copyRetire c) s
  | .copyNack c => exec_goesOn (.copyNack c 0 _) s
  | .copyViolation c => exec_goesOn (.copyViolation c _) s
  | .rebuildComplete c g => exec_goesOn (.rebuildComplete c g) s
  | .spscrubComplete k w => exec_goesOn (.spscrubComplete k w) s
  | .shadowOpenRequest o h => exec_goesOn (.shadowOpenRequest o h) s
  | .shpubArrival o => exec_goesOn (.shpubArrival o) s
  | .shdReply o => exec_goesOn (.shdReply o) s
  | .publishPrepare c x h => exec_goesOn (.publishPrepare c x h) s
  | .publishCommit c x => exec_goesOn (.publishCommit c x) s
  | .publishAbort c x => exec_goesOn (.publishAbort c x) s
  | .faultRecordDelivery r => exec_goesOn (.faultRecordDelivery r) s
  | .moveComplete d g => exec_goesOn (.moveComplete d g) s
  | .recodingComplete d g => exec_goesOn (.recodingComplete d g) s
  | .filterInvalidation c d g => exec_goesOn (.filterInvalidation c d g) s
  | .filterAck c d g => exec_goesOn (.filterAck c d g) s
  | .flitReplayTimeout l => exec_goesOn (.flitReplayTimeout (l / 256) (l % 256)) s
  | .command q o => s.runCommand_goesOn q o
  | .contextBuilt c => exec_goesOn (.contextBuilt c) s
  | .partitionReady p => exec_goesOn (.partitionReady p) s
  | .keyTableUpdateApplied c n => exec_goesOn (.keyTableUpdateApplied c n) s
  | .boltStart cl c l b => exec_goesOn (.boltStart cl c l b) s
  | .haltComplete p => exec_goesOn (.haltComplete p) s
  | .abandonTimeout p => exec_goesOn (.abandonTimeout p) s
  | .contextSaveComplete c => exec_goesOn (.contextSaveComplete c) s
  | .restoreComplete c => exec_goesOn (.restoreComplete c) s

theorem runTurn_goesOn (r : State × Turned) : goesOn (runTurn r) := by
  unfold runTurn
  split
  · exact exec_goesOn _ _
  · exact State.runDue_goesOn _ _
  · exact goesOn_next _

/-- Settles O44: a step runs a row of the opcode table, a step that is due, or nothing. -/
theorem nothingStops : Obligations.NothingStops :=
  ⟨exec_goesOn, fun s => runTurn_goesOn s.takeTurn⟩

end Sys2Proof.Machine
end

section
/-! Words that act strand by strand (R42, R133, R148): where each strand of the issue set goes, and what those that trap
take along. -/

namespace Sys2Proof.Machine

/-! ### Changing several strands of a skein -/

theorem Tab.get_foldl_upd {α : Type} [DecidableEq α] (f : Nat → α → α) {is : List Nat} (hn : is.Nodup) (t : Tab α) (a : Nat) :
    Tab.get (is.foldl (fun t i => Tab.upd t i (f i)) t) a = if a ∈ is then (Tab.get t a).map (f a) else Tab.get t a := by
  induction is generalizing t with
  | nil => simp
  | cons i l ih =>
    obtain ⟨hi, hl⟩ := List.nodup_cons.mp hn
    rw [List.foldl_cons, ih hl, Tab.get_upd]
    by_cases ha : a = i
    · subst ha
      simp [hi]
    · simp [ha]

theorem State.strand?_modStrands (s : State) (k : Nat) {is : List Nat} (hn : is.Nodup) (f : Nat → Strand → Strand) (a j : Nat) :
    (s.modStrands k is f).strand? a j = if a = k ∧ j ∈ is then (s.strand? a j).map (f j) else s.strand? a j := by
  unfold State.modStrands
  rw [State.strand?_modSkein]
  by_cases ha : a = k
  · subst ha
    simp only [if_true, true_and, State.strand?]
    cases s.skein? a with
    | none => simp
    | some sk => exact Tab.get_foldl_upd f hn sk.strands j
  · simp [ha]

theorem State.onlyStrands_modStrands (s : State) (is : List Nat) (f : Nat → Strand → Strand) :
    s.OnlyStrands (s.modStrands s.cur.skein is f) := s.onlyStrands_modSkein _ (fun _ => rfl)

theorem State.onlyStrands_modStrand (s : State) (i : Nat) (f : Strand → Strand) :
    s.OnlyStrands (s.modStrand s.cur.skein i f) := s.onlyStrands_modSkein _ (fun _ => rfl)

/-! ### The strands that act (R42) -/

section
variable {s : State} {sk : Skein}

theorem State.Issuing.strand? (h : s.Issuing sk) (j : Nat) : s.strand? s.cur.skein j = Tab.get sk.strands j := by
  rw [State.strand?, h.1]; rfl

theorem State.Issuing.exists_strand (h : s.Issuing sk) {j : Nat} (hj : j ∈ s.cur.strands) :
    ∃ x, s.strand? s.cur.skein j = some x := by
  rw [h.strand?]
  exact Option.isSome_iff_exists.mp (h.2.2.2.2.2 j hj)

theorem State.mem_acting (s : State) (g : BitVec 3) (j : Nat) :
    j ∈ s.acting g ↔ j ∈ s.cur.strands ∧ ∃ x, s.strand? s.cur.skein j = some x ∧ x.rpr g.toNat = true := by
  simp only [State.acting, State.active, List.mem_map, List.mem_filter, Prod.exists, State.mem_issueSet]
  constructor
  · rintro ⟨i, x, ⟨⟨hi, hx⟩, hg⟩, rfl⟩
    exact ⟨hi, x, hx, hg⟩
  · rintro ⟨hj, x, hx, hg⟩
    exact ⟨j, x, ⟨⟨hj, hx⟩, hg⟩, rfl⟩

/-- The strands of the issue set that act, and the state where the others have gone on (R42). -/
def State.actors (s : State) (g : BitVec 3) : List Nat := s.cur.strands.filter (fun j => (s.acting g).contains j)
def State.othersGone (s : State) (g : BitVec 3) : State :=
  s.modStrands s.cur.skein (s.cur.strands.filter (fun j => !(s.acting g).contains j)) (fun _ x => x.advance)

theorem State.mem_actors {g : BitVec 3} {j : Nat} {x : Strand} (hx : s.strand? s.cur.skein j = some x) :
    j ∈ s.actors g ↔ j ∈ s.cur.strands ∧ x.rpr g.toNat = true := by
  simp [State.actors, State.mem_acting, hx]

@[simp] theorem State.othersGone_cur (s : State) (g : BitVec 3) : (s.othersGone g).cur = s.cur := rfl
@[simp] theorem State.othersGone_homes (s : State) (g : BitVec 3) : (s.othersGone g).homes = s.homes := rfl
@[simp] theorem State.othersGone_seq (s : State) (g : BitVec 3) : (s.othersGone g).seq = s.seq := rfl

theorem State.othersGone_only (s : State) (g : BitVec 3) : s.OnlyStrands (s.othersGone g) := s.onlyStrands_modStrands _ _

theorem State.strand?_othersGone (h : s.Issuing sk) (g : BitVec 3) (k j : Nat) : (s.othersGone g).strand? k j =
    if k = s.cur.skein ∧ j ∈ s.cur.strands then (s.strand? k j).map (fun x => if x.rpr g.toNat then x else x.advance)
    else s.strand? k j := by
  rw [State.othersGone, State.strand?_modStrands _ _ (h.2.2.2.2.1.filter _)]
  by_cases hk : k = s.cur.skein ∧ j ∈ s.cur.strands
  · obtain ⟨rfl, hj⟩ := hk
    obtain ⟨x, hx⟩ := h.exists_strand hj
    by_cases hg : x.rpr g.toNat = true <;> simp [State.mem_acting, hj, hx, hg]
  · rw [if_neg hk, if_neg (fun hc => hk ⟨hc.1, List.mem_of_mem_filter hc.2⟩)]

/-- A strand that acts is as it was when the others have gone on. -/
theorem State.strand?_othersGone_actor (h : s.Issuing sk) {g : BitVec 3} {j : Nat} (hj : j ∈ s.actors g) :
    (s.othersGone g).strand? s.cur.skein j = s.strand? s.cur.skein j := by
  have hc := List.mem_of_mem_filter hj
  obtain ⟨x, hx⟩ := h.exists_strand hc
  rw [State.strand?_othersGone h, if_pos ⟨rfl, hc⟩, hx, Option.map_some, if_pos ((State.mem_actors hx).mp hj).2]

end

/-! ### What a change of strands leaves -/

theorem State.OnlyStrands.homes {s t : State} (h : s.OnlyStrands t) : t.homes = s.homes := by rw [h.1]

theorem State.weft?_modSkein (s : State) (k a w : Nat) {f : Skein → Skein} (hf : ∀ sk, (f sk).wefts = sk.wefts) :
    (s.modSkein k f).weft? a w = s.weft? a w := by
  unfold State.weft?
  rw [State.skein?_modSkein]
  split_ifs
  · cases s.skein? a <;> simp [hf]
  · rfl

theorem State.weft?_count (s : State) (k a w p n : Nat) : (s.count k p n).weft? a w = s.weft? a w :=
  s.weft?_modSkein k a w (fun _ => rfl)

theorem State.weft?_foldl_modStrand {β : Type} (k : Nat) (g : β → Nat) (f : β → Strand → Strand) (l : List β) (s : State) (a w : Nat) :
    (l.foldl (fun t r => t.modStrand k (g r) (f r)) s).weft? a w = s.weft? a w := by
  induction l generalizing s with
  | nil => rfl
  | cons r l ih => exact (ih _).trans (State.weft?_modSkein s k a w (fun _ => rfl))

theorem State.weft?_modWeft (s : State) (k w a b : Nat) (f : Weft → Weft) :
    (s.modWeft k w f).weft? a b = if a = k ∧ b = w then (s.weft? a b).map f else s.weft? a b := by
  unfold State.weft? State.modWeft
  rw [State.skein?_modSkein]
  by_cases ha : a = k
  · subst ha
    cases s.skein? a <;> simp [Tab.get_upd]
  · simp [ha]

/-! ### One strand after another -/

/-- What `f` does in one strand, after what it did in those before. -/
def State.actStep (k : Nat) (f : State → Nat → Strand → State × Option TrapReq) (p : State × List TrapReq) (i : Nat) :
    State × List TrapReq :=
  match p.1.strand? k i with
  | none => p
  | some t => ((f p.1 i t).1, p.2 ++ (f p.1 i t).2.toList)

theorem State.actStep_eq {u : State} {k i : Nat} {x : Strand} (h : u.strand? k i = some x)
    (f : State → Nat → Strand → State × Option TrapReq) (ts : List TrapReq) :
    State.actStep k f (u, ts) i = ((f u i x).1, ts ++ (f u i x).2.toList) := by simp only [State.actStep, h]

theorem State.eachStrand_eq (s : State) (g : BitVec 3) (f : State → Nat → Strand → State × Option TrapReq)
    {t : State} {ts : List TrapReq} (h : (s.actors g).foldl (State.actStep s.cur.skein f) (s.othersGone g, []) = (t, ts)) :
    s.eachStrand (s.acting g) f = if ts = [] then t else t.trapHere ts := by
  have : s.eachStrand (s.acting g) f = (fun r : State × List TrapReq => if r.2 = [] then r.1 else r.1.trapHere r.2)
      ((s.actors g).foldl (State.actStep s.cur.skein f) (s.othersGone g, [])) := rfl
  rw [this, h]

/-- Two changes that agree on the strand there change it alike. -/
theorem State.modStrand_congr {u : State} {k i : Nat} {x : Strand} (hx : u.strand? k i = some x) {f f' : Strand → Strand}
    (hf : f x = f' x) : u.modStrand k i f = u.modStrand k i f' := by
  obtain ⟨sk, hk, hi⟩ := Option.bind_eq_some_iff.mp hx
  rw [State.skein?] at hk
  simp only [State.modStrand, State.modSkein, Tab.upd, hk, hi, hf]

/-- Strands that each go on change one after another, and nothing else does. -/
theorem State.foldl_actStep_go {f : State → Nat → Strand → State × Option TrapReq} {m : Nat → Strand → Strand} {l : List Nat}
    (hl : l.Nodup) {u : State} (hex : ∀ i ∈ l, ∃ x, u.strand? u.cur.skein i = some x)
    (hf : ∀ v : State, v.cur = u.cur → ∀ i ∈ l, ∀ x, u.strand? u.cur.skein i = some x → v.strand? u.cur.skein i = some x →
      f v i x = (v.modStrand u.cur.skein i (m i), none)) :
    ∃ v, l.foldl (State.actStep u.cur.skein f) (u, []) = (v, []) ∧ u.OnlyStrands v ∧
      ∀ a j, v.strand? a j = if a = u.cur.skein ∧ j ∈ l then (u.strand? a j).map (m j) else u.strand? a j := by
  induction l generalizing u with
  | nil => exact ⟨u, rfl, .refl u, by simp⟩
  | cons i l ih =>
    obtain ⟨hi, hl⟩ := List.nodup_cons.mp hl
    obtain ⟨x, hx⟩ := hex i (List.mem_cons_self ..)
    have hother : ∀ j ∈ l, (u.modStrand u.cur.skein i (m i)).strand? u.cur.skein j = u.strand? u.cur.skein j := fun j hj => by
      have hji : j ≠ i := fun e => hi (e ▸ hj)
      simp [State.strand?_modStrand, hji]
    obtain ⟨v, hv, ho, hs⟩ := ih hl (u := u.modStrand u.cur.skein i (m i))
      (fun j hj => by
        obtain ⟨y, hy⟩ := hex j (List.mem_cons_of_mem _ hj)
        exact ⟨y, (hother j hj).trans hy⟩)
      (fun v hv j hj y hy => hf v hv j (List.mem_cons_of_mem _ hj) y ((hother j hj).symm.trans hy))
    refine ⟨v, ?_, (u.onlyStrands_modStrand i (m i)).trans ho, fun a j => ?_⟩
    · rw [List.foldl_cons, State.actStep_eq hx, hf u rfl i (List.mem_cons_self ..) x hx hx]
      exact hv
    · rw [hs a j, State.strand?_modStrand]
      by_cases ha : a = u.cur.skein
      · by_cases hj : j = i
        · subst hj; simp [ha, hi]
        · simp [ha, hj]
      · simp [ha]

/-- Strands that each trap leave the state as it is; their traps come in order. -/
theorem State.foldl_actStep_trap {f : State → Nat → Strand → State × Option TrapReq} {r : Nat → Strand → TrapReq} {k : Nat}
    {u : State} {l : List Nat} (hf : ∀ i ∈ l, ∀ x, u.strand? k i = some x → f u i x = (u, some (r i x))) (ts : List TrapReq) :
    l.foldl (State.actStep k f) (u, ts) = (u, ts ++ l.filterMap (fun i => (u.strand? k i).map (r i))) := by
  induction l generalizing ts with
  | nil => simp
  | cons i l ih =>
    have ih := ih (fun j hj => hf j (List.mem_cons_of_mem _ hj))
    rw [List.foldl_cons, List.filterMap_cons]
    cases hx : u.strand? k i with
    | none => simp only [State.actStep, hx, ih, Option.map_none]
    | some x => simp [State.actStep_eq hx, hf i (List.mem_cons_self ..) x hx, ih]

/-! ### A word of which every strand that acts goes on -/

/-- Every strand whose guard is true goes where `m` says, the others to the next PC, and nothing else changes (R42). -/
theorem State.eachStrand_go {s : State} {sk : Skein} (h : s.Issuing sk) (g : BitVec 3)
    {f : State → Nat → Strand → State × Option TrapReq} {m : Nat → Strand → Strand}
    (hf : ∀ v : State, v.cur = s.cur → ∀ j ∈ s.actors g, ∀ x, s.strand? s.cur.skein j = some x → v.strand? s.cur.skein j = some x →
      f v j x = (v.modStrand s.cur.skein j (m j), none)) :
    s.StrandsDone (s.eachStrand (s.acting g) f) g.toNat m ∧ s.OnlyStrands (s.eachStrand (s.acting g) f) := by
  have hgone : ∀ j ∈ s.actors g, (s.othersGone g).strand? s.cur.skein j = s.strand? s.cur.skein j :=
    fun j hj => State.strand?_othersGone_actor h hj
  obtain ⟨v, hv, ho, hs⟩ := State.foldl_actStep_go (m := m) (f := f) (h.2.2.2.2.1.filter _) (u := s.othersGone g)
    (l := s.actors g)
    (fun j hj => by
      obtain ⟨x, hx⟩ := h.exists_strand (List.mem_of_mem_filter hj)
      exact ⟨x, (hgone j hj).trans hx⟩)
    (fun v hv j hj x hx => hf v hv j hj x ((hgone j hj).symm.trans hx))
  rw [State.eachStrand_eq s g f hv, if_pos rfl]
  refine ⟨fun k j => ?_, (s.othersGone_only g).trans ho⟩
  rw [hs, State.strand?_othersGone h]
  by_cases hk : k = s.cur.skein ∧ j ∈ s.cur.strands
  · obtain ⟨rfl, hj⟩ := hk
    obtain ⟨x, hx⟩ := h.exists_strand hj
    by_cases hg : x.rpr g.toNat = true <;> simp [State.mem_actors hx, hj, hx, hg]
  · rw [if_neg hk, if_neg hk, if_neg (fun hc => hk ⟨hc.1, List.mem_of_mem_filter hc.2⟩)]

/-- What a word does that can run, and whose strands each go on. -/
theorem State.word_eachStrand_go {s : State} {sk : Skein} {i : Instr} (h : s.CanRun sk i) (g : BitVec 3)
    {f : Skein → State → Nat → Strand → State × Option TrapReq} {m : Nat → Strand → Strand}
    (hf : ∀ v : State, v.cur = s.cur → ∀ j ∈ s.actors g, ∀ x, s.strand? s.cur.skein j = some x → v.strand? s.cur.skein j = some x →
      f sk v j x = (v.modStrand s.cur.skein j (m j), none)) :
    goesTo (s.word i (fun sk t => (true, t.eachStrand (t.acting g) (f sk)))) (fun t =>
      s.StrandsDone t g.toNat m ∧ s.OnlyStrands t) := by
  obtain ⟨hs, ho⟩ := State.eachStrand_go h.1 g hf
  refine ⟨_, State.word_canRun h _, ?_⟩
  rw [if_pos rfl, State.reportDenied_nil (ho.cur ▸ h.1.2.1)]
  exact ⟨fun k j => (State.strand?_count ..).trans (hs k j), ho.trans (ho.cur ▸ State.onlyStrands_count _ 0 1)⟩

/-! ### A word of which every strand that acts traps (R148, R150) -/

/-- The strands of the issue set that act, in its order. -/
theorem State.acting_eq_filter (s : State) (g : BitVec 3) :
    s.acting g = s.cur.strands.filter (fun j => (s.strand? s.cur.skein j).elim false (fun x => x.rpr g.toNat)) := by
  unfold State.acting State.active State.issueSet
  induction s.cur.strands with
  | nil => rfl
  | cons j l ih =>
    cases hx : s.strand? s.cur.skein j with
    | none => simpa [hx] using ih
    | some x => by_cases hg : x.rpr g.toNat = true <;> simp [hx, hg, ih]

theorem State.actors_eq_acting (s : State) (g : BitVec 3) : s.actors g = s.acting g := by
  rw [State.actors, s.acting_eq_filter g]
  refine List.filter_congr fun j hj => ?_
  cases hx : s.strand? s.cur.skein j <;> simp [hj, hx]

/-- Whether a strand is in a handler, and still runs. -/
def Strand.handling (x : Strand) : Bool := x.active && x.live

/-- A strand whose trap is held at a PC, in the order of the weft's holds (R150). -/
def Strand.heldAt (x : Strand) (cause : Nat) (val pc : Word) (order : Nat) : Strand :=
  { x with status := .traphold cause val pc order, pc := pc, hold := none }

theorem Skein.someActive_eq (sk : Skein) (w : Nat) : sk.someActive w =
    (sk.members w).any (fun i => ((Tab.get sk.strands i).map Strand.handling).getD false) := by
  unfold Skein.someActive
  congr 1
  funext i
  cases Tab.get sk.strands i <;> rfl

section
variable {s t : State} {sk : Skein} (h : s.Issuing sk) (ho : s.OnlyStrands t)
  (hh : ∀ j, (t.strand? s.cur.skein j).map Strand.handling = (s.strand? s.cur.skein j).map Strand.handling)
include h ho

/-- Where nothing but strands changed, and none of them came into a handler or left one, the skein is as it was for a trap. -/
theorem State.OnlyStrands.skein (hh : ∀ j, (t.strand? s.cur.skein j).map Strand.handling = (s.strand? s.cur.skein j).map Strand.handling) :
    ∃ sk', t.skein? s.cur.skein = some sk' ∧ sk'.kern = sk.kern ∧ (∀ w, sk'.someActive w = sk.someActive w) ∧
      ∀ j, t.strand? s.cur.skein j = Tab.get sk'.strands j := by
  obtain ⟨sk', hk', hsk⟩ := ho.2.2.2 sk h.1
  have hs : ∀ j, t.strand? s.cur.skein j = Tab.get sk'.strands j := fun j => by rw [State.strand?, hk']; rfl
  refine ⟨sk', hk', by rw [hsk], fun w => ?_, hs⟩
  have hm : sk'.members w = sk.members w := by rw [hsk]; rfl
  simp only [Skein.someActive_eq, hm, ← hs, ← h.strand?, hh]

theorem State.OnlyStrands.trapHere (ts : List TrapReq) :
    t.trapHere ts = t.takeTraps s.cur.skein s.cur.weft s.cur.pc ts := by
  rw [State.trapHere_nil (ho.cur ▸ h.2.1), ho.cur]

include hh

/-- Traps taken while no strand of the weft is in a handler: each strand enters with its own (R148). -/
theorem State.trapHere_enter (hw : sk.someActive s.cur.weft = false) {ts : List TrapReq} (hn : (ts.map TrapReq.strand).Nodup)
    (hc : ∀ r ∈ ts, ∀ x, t.strand? s.cur.skein r.strand = some x → x.canEnter sk.kern = true) :
    (t.trapHere ts).cur = s.cur ∧ (t.trapHere ts).homes = s.homes ∧
    (∀ wf, (t.trapHere ts).weft? s.cur.skein s.cur.weft = some wf → wf.tmask = laneMask s.cur.weft (ts.map TrapReq.strand)) ∧
    ∀ a j, (t.trapHere ts).strand? a j = match (if a = s.cur.skein then ts.find? (fun r => r.strand == j) else none) with
      | some r => (t.strand? a j).map (fun x => x.enter r.cause r.val s.cur.pc)
      | none => t.strand? a j := by
  obtain ⟨sk', hk', hkern, hact, hs⟩ := State.OnlyStrands.skein h ho hh
  have hc' : ∀ r ∈ ts, ∀ x, Tab.get sk'.strands r.strand = some x → x.canEnter sk'.kern = true := by
    rw [hkern]
    exact fun r hr x hx => hc r hr x ((hs _).trans hx)
  have hw' : sk'.someActive s.cur.weft = false := (hact _).trans hw
  have heq := State.takeTraps_enter (pc := s.cur.pc) hk' hw' hc'
  rw [State.OnlyStrands.trapHere h ho]
  refine ⟨?_, ?_, ?_, State.strand?_takeTraps_enter hk' hw' hn hc'⟩
  · rw [heq, State.foldl_modStrand_eq]
    exact ho.cur
  · rw [heq, State.foldl_modStrand_eq]
    exact ho.homes
  · rw [heq, State.weft?_foldl_modStrand, State.weft?_modWeft, if_pos ⟨rfl, rfl⟩]
    intro wf hwf
    obtain ⟨x, -, rfl⟩ := Option.map_eq_some_iff.mp hwf
    rfl

/-- Traps taken while a strand of the weft is in a handler are held (R150). -/
theorem State.trapHere_held (hw : sk.someActive s.cur.weft = true) {ts : List TrapReq} (hn : (ts.map TrapReq.strand).Nodup)
    (hc : ∀ r ∈ ts, ∀ x, t.strand? s.cur.skein r.strand = some x → x.active = false ∧ x.trapvec ≠ 0xFFFFFFFF) :
    (t.trapHere ts).cur = s.cur ∧
    ∀ a j, (t.trapHere ts).strand? a j = match (if a = s.cur.skein then ts.find? (fun r => r.strand == j) else none) with
      | some r => (t.strand? a j).map (fun x => x.heldAt r.cause r.val s.cur.pc t.seq)
      | none => t.strand? a j := by
  obtain ⟨sk', hk', hkern, hact, hs⟩ := State.OnlyStrands.skein h ho hh
  have heq := State.takeTraps_held (pc := s.cur.pc) hk' ((hact _).trans hw) (fun r hr x hx => hc r hr x ((hs _).trans hx))
  rw [State.OnlyStrands.trapHere h ho, heq]
  refine ⟨?_, fun a j => ?_⟩
  · rw [State.foldl_modStrand_eq]
    exact ho.cur
  · refine (State.strand?_foldl_modStrand s.cur.skein TrapReq.strand (fun r x => x.heldAt r.cause r.val s.cur.pc t.seq) ts hn
      { t with seq := t.seq + 1 } a j).trans ?_
    cases (if a = s.cur.skein then ts.find? (fun r => r.strand == j) else none) <;> rfl

end

/-- The traps of some strands, one of each. -/
theorem find?_filterMap_strand {l : List Nat} {f : Nat → Option TrapReq} (hf : ∀ i r, f i = some r → r.strand = i) (j : Nat) :
    (l.filterMap f).find? (fun r => r.strand == j) = if j ∈ l then f j else none := by
  induction l with
  | nil => rfl
  | cons i l ih =>
    rw [List.filterMap_cons]
    cases hi : f i with
    | none =>
      rw [ih]
      by_cases hj : j = i
      · subst hj; simp [hi]
      · simp [hj]
    | some r =>
      by_cases hj : j = i
      · subst hj; simp [hi, hf j r hi]
      · have : r.strand ≠ j := fun e => hj (e.symm.trans (hf i r hi))
        rw [List.find?_cons_of_neg (by simpa using this), ih]
        simp [hj]

/-- The trap of each strand that acts. -/
def State.trapsOf (s : State) (g : BitVec 3) (cause : Nat) (val : Strand → Word) : List TrapReq :=
  (s.actors g).filterMap (fun j => (s.strand? s.cur.skein j).map (fun x => { strand := j, cause := cause, val := val x }))

section
variable {s : State} {sk : Skein} (h : s.Issuing sk) (g : BitVec 3) (cause : Nat) (val : Strand → Word)

theorem State.mem_trapsOf {r : TrapReq} (hr : r ∈ s.trapsOf g cause val) :
    r.strand ∈ s.actors g ∧ ∃ x, s.strand? s.cur.skein r.strand = some x := by
  obtain ⟨j, hj, hjr⟩ := List.mem_filterMap.mp hr
  obtain ⟨x, hx, rfl⟩ := Option.map_eq_some_iff.mp hjr
  exact ⟨hj, x, hx⟩

theorem State.find?_trapsOf (j : Nat) : (s.trapsOf g cause val).find? (fun r => r.strand == j) =
    if j ∈ s.actors g then (s.strand? s.cur.skein j).map (fun x => { strand := j, cause := cause, val := val x }) else none :=
  find?_filterMap_strand (fun i r hr => by obtain ⟨x, -, rfl⟩ := Option.map_eq_some_iff.mp hr; rfl) j

include h in
theorem State.trapsOf_strands : (s.trapsOf g cause val).map TrapReq.strand = s.actors g := by
  rw [State.trapsOf, List.map_filterMap]
  refine (List.filterMap_congr fun j hj => ?_).trans (List.filterMap_some)
  obtain ⟨x, hx⟩ := h.exists_strand (List.mem_of_mem_filter hj)
  simp [hx]

include h in
theorem State.handling_othersGone (j : Nat) : ((s.othersGone g).strand? s.cur.skein j).map Strand.handling =
    (s.strand? s.cur.skein j).map Strand.handling := by
  rw [State.strand?_othersGone h]
  split_ifs
  · cases s.strand? s.cur.skein j with
    | none => rfl
    | some x =>
      simp only [Option.map_some]
      split_ifs <;> rfl
  · rfl

include h in
/-- A word of which every strand that acts traps: the others go on, and those trap together. -/
theorem State.eachStrand_trap {f : State → Nat → Strand → State × Option TrapReq}
    (hf : ∀ j ∈ s.actors g, ∀ x, s.strand? s.cur.skein j = some x →
      f (s.othersGone g) j x = (s.othersGone g, some { strand := j, cause := cause, val := val x })) :
    s.eachStrand (s.acting g) f =
      if s.trapsOf g cause val = [] then s.othersGone g else (s.othersGone g).trapHere (s.trapsOf g cause val) := by
  refine State.eachStrand_eq s g f ?_
  have hgone : ∀ j ∈ s.actors g, (s.othersGone g).strand? s.cur.skein j = s.strand? s.cur.skein j :=
    fun j hj => State.strand?_othersGone_actor h hj
  rw [State.foldl_actStep_trap (r := fun j x => { strand := j, cause := cause, val := val x })
    (fun j hj x hx => hf j hj x ((hgone j hj).symm.trans hx)), List.nil_append, State.trapsOf]
  exact congrArg _ (List.filterMap_congr fun j hj => by rw [hgone j hj])

include h in
/-- Strands that act take their traps' change, the others have gone on. -/
theorem State.strandsDone_trapsOf {t : State} (e : TrapReq → Strand → Strand)
    (ht : ∀ a j, t.strand? a j =
      match (if a = s.cur.skein then (s.trapsOf g cause val).find? (fun r => r.strand == j) else none) with
      | some r => ((s.othersGone g).strand? a j).map (e r)
      | none => (s.othersGone g).strand? a j) :
    s.StrandsDone t g.toNat (fun j x => e { strand := j, cause := cause, val := val x } x) := by
  intro k j
  rw [ht, State.strand?_othersGone h]
  by_cases hk : k = s.cur.skein ∧ j ∈ s.cur.strands
  · obtain ⟨rfl, hj⟩ := hk
    obtain ⟨x, hx⟩ := h.exists_strand hj
    by_cases hg : x.rpr g.toNat = true <;> simp [State.find?_trapsOf, State.mem_actors hx, hj, hx, hg]
  · by_cases hks : k = s.cur.skein
    · have hj : j ∉ s.actors g := fun hj => hk ⟨hks, List.mem_of_mem_filter hj⟩
      simp [State.find?_trapsOf, hj, hk]
    · simp [hks]

end

/-- What a word does that can run, and in which every strand that acts traps: its strands have a handler, and none of the
weft is in one (R148). -/
theorem State.word_eachStrand_enter {s : State} {sk : Skein} {i : Instr} (h : s.CanRun sk i) (g : BitVec 3)
    (hh : s.Handled sk g) (cause : Nat) (val : Strand → Word) {f : Skein → State → Nat → Strand → State × Option TrapReq}
    (hf : ∀ j ∈ s.actors g, ∀ x, s.strand? s.cur.skein j = some x →
      f sk (s.othersGone g) j x = (s.othersGone g, some { strand := j, cause := cause, val := val x })) :
    goesTo (s.word i (fun sk t => (true, t.eachStrand (t.acting g) (f sk)))) (fun t =>
      s.StrandsDone t g.toNat (fun _ x => x.enter cause (val x) s.cur.pc) ∧ t.homes = s.homes ∧
      (s.acting g ≠ [] → ∀ wf, t.weft? s.cur.skein s.cur.weft = some wf → wf.tmask = laneMask s.cur.weft (s.acting g))) := by
  obtain ⟨hw, hx⟩ := hh
  have ho := s.othersGone_only g
  have hstr := State.trapsOf_strands h.1 g cause val
  have hnd : ((s.trapsOf g cause val).map TrapReq.strand).Nodup := hstr ▸ h.1.2.2.2.2.1.filter _
  have hcan : ∀ r ∈ s.trapsOf g cause val, ∀ x, (s.othersGone g).strand? s.cur.skein r.strand = some x →
      x.canEnter sk.kern = true := by
    intro r hr x hrx
    obtain ⟨hj, -⟩ := State.mem_trapsOf g cause val hr
    rw [State.strand?_othersGone_actor h.1 hj] at hrx
    obtain ⟨ha, hv, hp⟩ := hx _ (List.mem_of_mem_filter hj) x hrx ((State.mem_actors hrx).mp hj).2
    simp only [Strand.canEnter, ha, hp, Bool.not_false, Bool.true_and, Bool.and_true, bne_iff_ne]
    exact hv
  obtain ⟨hcur, hhomes, hmask, hs⟩ := State.trapHere_enter h.1 ho (State.handling_othersGone h.1 g) hw hnd hcan
  rw [State.actors_eq_acting] at hstr
  refine ⟨_, State.word_canRun h _, ?_⟩
  simp only [if_true, State.eachStrand_trap h.1 g cause val hf]
  by_cases hn : s.trapsOf g cause val = []
  · rw [if_pos hn, State.reportDenied_nil (s := s.othersGone g) h.1.2.1]
    refine ⟨State.strandsDone_trapsOf h.1 g cause val (fun r x => x.enter r.cause r.val s.cur.pc) (fun a j => ?_), rfl, fun hne => ?_⟩
    · simp [hn]
    · exact absurd (hstr.symm.trans (by rw [hn]; rfl)) hne
  · rw [if_neg hn, State.reportDenied_nil (by rw [hcur]; exact h.1.2.1)]
    refine ⟨State.strandsDone_trapsOf h.1 g cause val (fun r x => x.enter r.cause r.val s.cur.pc) (fun a j => ?_), hhomes,
      fun _ wf hwf => ?_⟩
    · rw [State.strand?_count, hs]
    · rw [← hstr]
      exact hmask wf ((State.weft?_count ..).symm.trans hwf)

/-- The same where a strand of the weft is in a handler: those that act are held (R150). -/
theorem State.word_eachStrand_held {s : State} {sk : Skein} {i : Instr} (h : s.CanRun sk i) (g : BitVec 3)
    (hw : sk.someActive s.cur.weft = true) (cause : Nat) (val : Strand → Word)
    (hx : ∀ j ∈ s.cur.strands, ∀ x, s.strand? s.cur.skein j = some x → x.rpr g.toNat = true →
      x.active = false ∧ x.trapvec ≠ 0xFFFFFFFF)
    {f : Skein → State → Nat → Strand → State × Option TrapReq}
    (hf : ∀ j ∈ s.actors g, ∀ x, s.strand? s.cur.skein j = some x →
      f sk (s.othersGone g) j x = (s.othersGone g, some { strand := j, cause := cause, val := val x })) :
    goesTo (s.word i (fun sk t => (true, t.eachStrand (t.acting g) (f sk)))) (fun t =>
      s.StrandsDone t g.toNat (fun _ x => x.heldAt cause (val x) s.cur.pc s.seq)) := by
  have hnd : ((s.trapsOf g cause val).map TrapReq.strand).Nodup :=
    State.trapsOf_strands h.1 g cause val ▸ h.1.2.2.2.2.1.filter _
  obtain ⟨hcur, hs⟩ := State.trapHere_held h.1 (s.othersGone_only g) (State.handling_othersGone h.1 g) hw hnd
    (fun r hr x hrx => by
      obtain ⟨hj, -⟩ := State.mem_trapsOf g cause val hr
      rw [State.strand?_othersGone_actor h.1 hj] at hrx
      exact hx _ (List.mem_of_mem_filter hj) x hrx ((State.mem_actors hrx).mp hj).2)
  refine ⟨_, State.word_canRun h _, ?_⟩
  simp only [if_true, State.eachStrand_trap h.1 g cause val hf]
  refine State.strandsDone_trapsOf h.1 g cause val (fun r x => x.heldAt r.cause r.val s.cur.pc s.seq) (fun a j => ?_)
  by_cases hn : s.trapsOf g cause val = []
  · rw [if_pos hn, State.reportDenied_nil (s := s.othersGone g) h.1.2.1]
    simp [hn]
  · rw [if_neg hn, State.reportDenied_nil (by rw [hcur]; exact h.1.2.1), State.strand?_count, hs]
    rfl

/-! ### Transfers of control (R39, R40, R133) -/

theorem targetOk_iff (kern : Kernel) (t : Int) : targetOk kern t = true ↔ 0 ≤ t ∧ t % 4 ≠ 3 ∧ t * 4 < kern.codeSize := by
  simp only [targetOk, pcOk, Bool.and_eq_true, decide_eq_true_eq]
  omega

/-- A transfer whose every target R40 accepts goes there. -/
theorem State.word_goTo_go {s : State} {sk : Skein} {i : Instr} (h : s.CanRun sk i) (g : BitVec 3) (target : Strand → Int)
    (hok : ∀ j ∈ s.cur.strands, ∀ x, s.strand? s.cur.skein j = some x → x.rpr g.toNat = true → targetOk sk.kern (target x) = true) :
    goesTo (s.word i (fun sk t => (true, t.eachStrand (t.acting g) (fun u j x => u.goTo sk j (target x) id)))) (fun t =>
      s.StrandsDone t g.toNat (fun _ x => { x with pc := BitVec.ofInt 32 (target x) }) ∧ s.OnlyStrands t) := by
  refine State.word_eachStrand_go h g (fun v hv j hj x hx hvx => ?_)
  rw [State.goTo, if_pos (hok j (List.mem_of_mem_filter hj) x hx ((State.mem_actors hx).mp hj).2), hv]
  exact congrArg (·, none) (State.modStrand_congr hvx rfl)

/-- A transfer none of whose targets R40 accepts traps BAD_TARGET. -/
theorem State.word_goTo_trap {s : State} {sk : Skein} {i : Instr} (h : s.CanRun sk i) (g : BitVec 3) (hh : s.Handled sk g)
    (target : Strand → Int)
    (hok : ∀ j ∈ s.cur.strands, ∀ x, s.strand? s.cur.skein j = some x → x.rpr g.toNat = true → ¬ targetOk sk.kern (target x) = true) :
    goesTo (s.word i (fun sk t => (true, t.eachStrand (t.acting g) (fun u j x => u.goTo sk j (target x) id)))) (fun t =>
      s.StrandsDone t g.toNat (fun _ x => x.enter 0x09 (BitVec.ofInt 32 (target x)) s.cur.pc) ∧ t.homes = s.homes ∧
      (s.acting g ≠ [] → ∀ wf, t.weft? s.cur.skein s.cur.weft = some wf → wf.tmask = laneMask s.cur.weft (s.acting g))) := by
  refine State.word_eachStrand_enter h g hh 0x09 (fun x => BitVec.ofInt 32 (target x)) (fun j hj x hx => ?_)
  rw [State.goTo, if_neg (hok j (List.mem_of_mem_filter hj) x hx ((State.mem_actors hx).mp hj).2)]

/-- NOP sends every strand to the next PC. -/
theorem runsPerLane_nop : RunsPerLane .nop 7 (fun _ _ x => x) := fun s _ h =>
  ⟨_, rfl, fun k j => State.strand?_modStrands s s.cur.skein h.1.2.2.2.2.1 _ k j, s.onlyStrands_modStrands _ _⟩

/-- Settles O18: BR and BRX go, or trap, strand by strand. -/
theorem branches : Obligations.Branches := by
  unfold Obligations.Branches
  intro g d a disp ok
  have hword (x : Word) : BitVec.ofInt 32 (x.toNat : Int) = x := by rw [BitVec.ofInt_natCast, BitVec.ofNat_toNat, BitVec.setWidth_eq]
  refine ⟨runsPerLane_nop, fun s sk h hc => ?_, fun s sk h hc => ?_, fun s sk h hh hc => ?_, fun s sk h hh hc => ?_⟩
  · exact State.word_goTo_go h g disp (fun j hj x hx hg => (targetOk_iff _ _).mpr (hc j hj x hx hg))
  · have := State.word_goTo_go h g (fun x => ((x.rv a.toNat).toNat : Int))
      (fun j hj x hx hg => (targetOk_iff _ _).mpr (hc j hj x hx hg))
    simp only [hword] at this
    exact this
  · exact State.word_goTo_trap h g hh disp (fun j hj x hx hg => (targetOk_iff _ _).not.mpr (hc j hj x hx hg))
  · have := State.word_goTo_trap h g hh (fun x => ((x.rv a.toNat).toNat : Int))
      (fun j hj x hx hg => (targetOk_iff _ _).not.mpr (hc j hj x hx hg))
    simp only [hword] at this
    exact this

end Sys2Proof.Machine
end

section
/-! Taking a trap (R34, R51 to R54, R148, R150, R331): encoding traps, traps of lanes, and a context that faults. -/

namespace Sys2Proof.Machine

/-! ### Encoding traps (R51 to R54) -/

theorem wordTrap_nop (kern : Kernel) (priv : Bool) : wordTrap kern priv .nop = none := by
  simp [wordTrap, illegalFor, Instr.use, Instr.newIn31, Instr.tile?, Instr.privileged, Instr.badSr]

theorem exec_of_wordTrap {s : State} {sk : Skein} {i : Instr} {cause : Nat} {w : Word} (hi : encode i = some w)
    (hk : s.skein? s.cur.skein = some sk) (ht : wordTrap sk.kern (s.privOf sk) i = some cause) :
    exec i s = .next (s.takeTraps s.cur.skein s.cur.weft s.cur.pc
      (s.cur.strands.map (fun j => { strand := j, cause := cause, val := s.cur.word }))) := by
  have hw : isWord i = true := by
    cases h : encodeNat i <;> simp [encode, isWord, h] at hi ⊢
  have hn : i ≠ .nop := by
    rintro rfl
    rw [wordTrap_nop] at ht
    cases ht
  obtain ⟨body, hb⟩ := exec_eq_word hw hn s
  rw [hb, State.word_traps hk ht]

/-- The whole issue set enters with the word as its value, whatever the guard. -/
theorem exec_wordTrap_enter {s : State} {sk : Skein} {i : Instr} {cause : Nat} {w : Word} (hi : encode i = some w)
    (h : s.Issuing sk) (ht : wordTrap sk.kern (s.privOf sk) i = some cause) (hh : s.Handled sk 7) :
    goesTo (exec i s) (fun t => t.homes = s.homes ∧ ∀ k j, t.strand? k j =
      if k = s.cur.skein ∧ j ∈ s.cur.strands then (s.strand? k j).map (fun x => x.enter cause s.cur.word s.cur.pc)
      else s.strand? k j) := by
  obtain ⟨hw, hx⟩ := hh
  refine ⟨_, exec_of_wordTrap hi h.1 ht, ?_⟩
  rw [← State.OnlyStrands.trapHere h (.refl s)]
  obtain ⟨-, hhomes, -, hs⟩ := State.trapHere_enter h (.refl s) (fun _ => rfl) hw
    (ts := s.cur.strands.map (fun j => { strand := j, cause := cause, val := s.cur.word }))
    (by simpa [Function.comp_def] using h.2.2.2.2.1)
    (fun r hr x hrx => by
      obtain ⟨j, hj, rfl⟩ := List.mem_map.mp hr
      obtain ⟨ha, hv, hp⟩ := hx j hj x hrx rfl
      simp only [Strand.canEnter, ha, hp, Bool.not_false, Bool.true_and, Bool.and_true, bne_iff_ne]
      exact hv)
  refine ⟨hhomes, fun k j => (hs k j).trans ?_⟩
  rw [← List.filterMap_eq_map, find?_filterMap_strand (fun i r hr => by cases hr; rfl)]
  by_cases hk : k = s.cur.skein <;> by_cases hj : j ∈ s.cur.strands <;> simp [hk, hj]

/-! ### Lanes of which some trap (R34, R148) -/

/-- A strand of a word once the traps have entered, at the word's PC. -/
def LaneOut.after (pc : Word) : LaneOut → Strand
  | .ok t => t.advance
  | .flagged t => t.advance
  | .trap t c v => t.enter c v pc

theorem LaneOut.after_eq (pc : Word) (i : Nat) (o : LaneOut) :
    o.after pc = ((o.trap? i).elim o.strand (fun r => o.strand.enter r.cause r.val pc)) := by cases o <;> rfl

theorem LaneOut.strand_of_trap? {i : Nat} {o : LaneOut} {r : TrapReq} (h : o.trap? i = some r) : r.strand = i := by
  cases o <;> cases h
  rfl

section
variable {s : State} {sk : Skein} (h : s.Issuing sk) (f : Nat → Strand → LaneOut)

/-- The outcomes given to their strands, before the traps enter. -/
def State.laneStrands (s : State) (outs : List (Nat × LaneOut)) : State :=
  s.modSkein s.cur.skein (fun sk => { sk with strands := outs.foldl (fun t o => Tab.set t o.1 (some o.2.strand)) sk.strands })

theorem State.putLanes_eq (s : State) (outs : List (Nat × LaneOut)) :
    s.putLanes outs = if outs.filterMap (fun o => o.2.trap? o.1) = [] then s.laneStrands outs
      else (s.laneStrands outs).trapHere (outs.filterMap (fun o => o.2.trap? o.1)) := by
  unfold State.putLanes State.laneStrands
  simp only
  split
  · next hn => rw [if_pos hn]
  · next hn => rw [if_neg hn]

theorem State.laneStrands_only (s : State) (outs : List (Nat × LaneOut)) : s.OnlyStrands (s.laneStrands outs) :=
  s.onlyStrands_modSkein _ (fun _ => rfl)

include h

theorem State.strand?_laneStrands (k j : Nat) : (s.laneStrands (s.laneOuts f)).strand? k j =
    if k = s.cur.skein ∧ j ∈ s.cur.strands then (s.strand? k j).map (fun x => (f j x).strand) else s.strand? k j := by
  rw [State.laneStrands, State.strand?_modSkein]
  by_cases hk : k = s.cur.skein
  · subst hk
    simp only [if_true, true_and, h.1, Option.bind_some]
    rw [Tab.get_foldl_set Prod.fst (fun o => o.2.strand) _ _ _ (State.laneOuts_keys h f), State.find_laneOuts h f j]
    by_cases hj : j ∈ s.cur.strands
    · obtain ⟨x, hx⟩ := h.exists_strand hj
      simp [hj, hx]
    · simp [hj, h.strand?]
  · simp [hk]

omit h in
theorem State.find?_laneTraps (j : Nat) :
    ((s.laneOuts f).filterMap (fun o => o.2.trap? o.1)).find? (fun r => r.strand == j) =
      if j ∈ s.cur.strands then (s.strand? s.cur.skein j).bind (fun x => (f j x).trap? j) else none := by
  rw [State.laneOuts, State.issueSet, List.filterMap_map, List.filterMap_filterMap]
  refine (congrArg _ (List.filterMap_congr fun i hi => ?_)).trans (find?_filterMap_strand
    (f := fun i => (s.strand? s.cur.skein i).bind (fun x => (f i x).trap? i)) (fun i r hr => ?_) j)
  · cases s.strand? s.cur.skein i <;> rfl
  · obtain ⟨x, -, hx⟩ := Option.bind_eq_some_iff.mp hr
    exact LaneOut.strand_of_trap? hx

theorem State.laneTraps_nodup :
    (((s.laneOuts f).filterMap (fun o => o.2.trap? o.1)).map TrapReq.strand).Nodup := by
  refine (State.laneOuts_keys h f).sublist ?_
  induction s.laneOuts f with
  | nil => exact List.Sublist.refl _
  | cons o l ih =>
    rw [List.filterMap_cons]
    cases ho : o.2.trap? o.1 with
    | none => exact ih.cons _
    | some r =>
      change List.Sublist (r.strand :: _) (o.1 :: _)
      rw [LaneOut.strand_of_trap? ho]
      exact ih.cons_cons _

/-- Each strand with its outcome, its trap entered where it has one. -/
theorem State.after_of_laneTraps {t : State}
    (ht : ∀ k j, t.strand? k j = match (if k = s.cur.skein then
        ((s.laneOuts f).filterMap (fun o => o.2.trap? o.1)).find? (fun r => r.strand == j) else none) with
      | some r => ((s.laneStrands (s.laneOuts f)).strand? k j).map (fun x => x.enter r.cause r.val s.cur.pc)
      | none => (s.laneStrands (s.laneOuts f)).strand? k j) (k j : Nat) :
    t.strand? k j =
      if k = s.cur.skein ∧ j ∈ s.cur.strands then (s.strand? k j).map (fun x => (f j x).after s.cur.pc) else s.strand? k j := by
  rw [ht, State.find?_laneTraps, State.strand?_laneStrands h f]
  by_cases hk : k = s.cur.skein ∧ j ∈ s.cur.strands
  · obtain ⟨rfl, hj⟩ := hk
    obtain ⟨x, hx⟩ := h.exists_strand hj
    simp only [hj, hx, and_self, if_true, Option.bind_some, Option.map_some, LaneOut.after_eq s.cur.pc j]
    cases (f j x).trap? j <;> rfl
  · by_cases hks : k = s.cur.skein
    · have hj : j ∉ s.cur.strands := fun hj => hk ⟨hks, hj⟩
      simp [hks, hj]
    · simp [hks]

/-- Outcomes of which those that trap can enter: each strand is where its own leaves it. -/
theorem State.putLanes_enter (hw : sk.someActive s.cur.weft = false)
    (hh : ∀ j ∈ s.cur.strands, ∀ x, s.strand? s.cur.skein j = some x → (f j x).strand.handling = x.handling)
    (hc : ∀ j ∈ s.cur.strands, ∀ x, s.strand? s.cur.skein j = some x → ∀ r, (f j x).trap? j = some r →
      (f j x).strand.canEnter sk.kern = true) :
    (s.putLanes (s.laneOuts f)).cur = s.cur ∧ ∀ k j, (s.putLanes (s.laneOuts f)).strand? k j =
      if k = s.cur.skein ∧ j ∈ s.cur.strands then (s.strand? k j).map (fun x => (f j x).after s.cur.pc) else s.strand? k j := by
  have hst := State.strand?_laneStrands h f
  have hho : ∀ j, ((s.laneStrands (s.laneOuts f)).strand? s.cur.skein j).map Strand.handling =
      (s.strand? s.cur.skein j).map Strand.handling := by
    intro j
    rw [hst]
    split_ifs with hj
    · obtain ⟨x, hx⟩ := h.exists_strand hj.2
      simp [hx, hh j hj.2 x hx]
    · rfl
  obtain ⟨hcur, -, -, hs⟩ := State.trapHere_enter h (s.laneStrands_only (s.laneOuts f)) hho hw (State.laneTraps_nodup h f)
    (fun r hr x hx => by
      obtain ⟨o, ho, hor⟩ := List.mem_filterMap.mp hr
      obtain ⟨⟨j, y⟩, hy, rfl⟩ := List.mem_map.mp ho
      obtain ⟨hj, hjy⟩ := (s.mem_issueSet j y).mp hy
      cases LaneOut.strand_of_trap? hor
      rw [hst, if_pos ⟨rfl, hj⟩, hjy, Option.map_some] at hx
      cases hx
      exact hc _ hj y hjy r hor)
  rw [State.putLanes_eq]
  split_ifs with hn
  · exact ⟨rfl, State.after_of_laneTraps h f (fun k j => by simp [hn])⟩
  · exact ⟨hcur, State.after_of_laneTraps h f hs⟩

omit h in
/-- Retiring outcomes changes no strand beside giving them (R66, R70, R71). -/
theorem State.strand?_retire (sk : Skein) (i : Instr) (dst : List Nat) (outs : List (Nat × LaneOut))
    (hcur : (s.putLanes outs).cur = s.cur) : (s.retire sk i dst outs).cur = s.cur ∧
      ∀ k j, (s.retire sk i dst outs).strand? k j = (s.putLanes outs).strand? k j := by
  obtain ⟨hn, hns⟩ := State.noteWrites_only s.cur.weft (s.newNames sk i dst) (s.putLanes outs)
  rw [hcur] at hn hns
  unfold State.retire
  simp only
  split_ifs
  · exact ⟨hcur, fun k j => State.strand?_count ..⟩
  · obtain ⟨a, b⟩ := State.reuseEnter_only ((s.putLanes outs).noteWrites s.cur.skein s.cur.weft (s.newNames sk i dst)) (sk.core.getD 0) _
    exact ⟨a.cur.trans (hn.cur.trans hcur), fun k j => (b k j).trans (hns k j)⟩
  · obtain ⟨a, b⟩ := State.reuseEnter_only (s.putLanes outs) (sk.core.getD 0) _
    exact ⟨a.cur.trans hcur, b⟩
  · exact ⟨hn.cur.trans hcur, hns⟩
  · exact ⟨hcur, fun _ _ => rfl⟩

end

/-- A per-lane word that can run, and in which the strands that trap can enter (R42, R148). -/
theorem State.lanes_enter {s : State} {sk : Skein} {i : Instr} (h : s.CanRun sk i) (f : Skein → Nat → Strand → LaneOut)
    (hw : sk.someActive s.cur.weft = false)
    (hh : ∀ j ∈ s.cur.strands, ∀ x, s.strand? s.cur.skein j = some x → (f sk j x).strand.handling = x.handling)
    (hc : ∀ j ∈ s.cur.strands, ∀ x, s.strand? s.cur.skein j = some x → ∀ r, (f sk j x).trap? j = some r →
      (f sk j x).strand.canEnter sk.kern = true) :
    goesTo (s.lanes i f) (fun t => ∀ k j, t.strand? k j =
      if k = s.cur.skein ∧ j ∈ s.cur.strands then (s.strand? k j).map (fun x => (f sk j x).after s.cur.pc) else s.strand? k j) := by
  obtain ⟨hcur, hs⟩ := State.putLanes_enter h.1 (f sk) hw hh hc
  obtain ⟨hrc, hrs⟩ := State.strand?_retire sk i (Instr.use i).dst _ hcur
  refine ⟨_, State.word_canRun h _, fun k j => ?_⟩
  rw [if_pos rfl, State.reportDenied_nil (by rw [hrc]; exact h.1.2.1), State.strand?_count, hrs, hs]

/-- A floating result whose trap is taken writes FPFLAGS alone, and names the destination (R34). -/
theorem fpDone_trap (tval : Nat) {fl : FpFlags} {w x : Strand} (hf : fl &&& x.fptrapen ≠ 0) (ha : x.active = false)
    (hv : x.trapvec ≠ 0xFFFFFFFF) :
    fpDone false tval fl w x = .trap { x with fpflags := x.fpflags ||| fl } (fpCause (fl &&& x.fptrapen)) (BitVec.ofNat 32 tval) := by
  have h0 : fl ≠ 0 := fun h0 => hf (by rw [h0]; exact BitVec.zero_and)
  have ht : x.fpTraps fl = true := by
    simp only [Strand.fpTraps, ha, Bool.not_false, Bool.and_true, Bool.and_eq_true, bne_iff_ne]
    exact ⟨hf, hv⟩
  rw [fpDone, if_neg (not_or.mpr ⟨Bool.false_ne_true, h0⟩), if_pos ht]

/-- FADD whose flags trap in every strand that acts (R34, R98, R148). -/
theorem fadd_traps (c : BitVec 1) (g : BitVec 3) (d a b : VReg) {s : State} {sk : Skein} (h : s.CanRun sk (.fadd c g d a b 0))
    (fl : Strand → FpFlags) (hfl : ∀ x, fl x =
      (ftz32 (fpCtx sk.kern x) (Fmt.fp32.add (fpCtx sk.kern x) (fpv (x.rv a.toNat)) (fpv (x.rb s.cur.k b.toNat)))).flags)
    (hx : ∀ j ∈ s.cur.strands, ∀ x, s.strand? s.cur.skein j = some x → x.rpr g.toNat = true →
      fl x &&& x.fptrapen ≠ 0 ∧ x.active = false ∧ x.trapvec ≠ 0xFFFFFFFF ∧ pcOk sk.kern x.trapvec.toNat = true)
    (hw : sk.someActive s.cur.weft = false) :
    goesTo (exec (.fadd c g d a b 0) s) (fun t => s.StrandsDone t g.toNat (fun _ x =>
      ({ x with fpflags := x.fpflags ||| fl x }).enter (fpCause (fl x &&& x.fptrapen)) (d.setWidth 32) s.cur.pc)) := by
  have hgo : ∀ j x, x.rpr g.toNat = false → laneF2 s.cur.k 0 g d a b Fmt.fp32.add sk j x = .ok x := by
    intro j x hg
    simp [laneF2, laneF, guarded, hg]
  have htrap : ∀ j ∈ s.cur.strands, ∀ x, s.strand? s.cur.skein j = some x → x.rpr g.toNat = true →
      laneF2 s.cur.k 0 g d a b Fmt.fp32.add sk j x =
        .trap { x with fpflags := x.fpflags ||| fl x } (fpCause (fl x &&& x.fptrapen)) (d.setWidth 32) := by
    intro j hj x hjx hg
    obtain ⟨hf, ha, hv, -⟩ := hx j hj x hjx hg
    rw [hfl] at hf ⊢
    simp only [laneF2, laneF, guarded, hg, if_true]
    exact (fpDone_trap d.toNat hf ha hv).trans (by rw [BitVec.ofNat_toNat])
  obtain ⟨t, ht, hs⟩ := State.lanes_enter h (laneF2 s.cur.k 0 g d a b Fmt.fp32.add) hw
    (fun j hj x hjx => by
      cases hg : x.rpr g.toNat with
      | false => rw [hgo j x hg]; rfl
      | true => rw [htrap j hj x hjx hg]; rfl)
    (fun j hj x hjx r hr => by
      cases hg : x.rpr g.toNat with
      | false => rw [hgo j x hg] at hr; cases hr
      | true =>
        obtain ⟨-, ha, hv, hp⟩ := hx j hj x hjx hg
        rw [htrap j hj x hjx hg]
        simp only [LaneOut.strand, Strand.canEnter, ha, hp, Bool.not_false, Bool.true_and, Bool.and_true, bne_iff_ne]
        exact hv)
  refine ⟨t, ht, fun k j => (hs k j).trans ?_⟩
  by_cases hk : k = s.cur.skein ∧ j ∈ s.cur.strands
  · obtain ⟨rfl, hj⟩ := hk
    obtain ⟨x, hjx⟩ := h.1.exists_strand hj
    cases hg : x.rpr g.toNat with
    | false => simp only [hj, hjx, hg, and_self, if_true, Option.map_some, hgo j x hg, LaneOut.after, Bool.false_eq_true, if_false]
    | true => simp only [hj, hjx, hg, and_self, if_true, Option.map_some, htrap j hj x hjx hg, LaneOut.after]
  · rw [if_neg hk, if_neg hk]

/-! ### What an event record leaves (R346, R372) -/

/-- The current issue, the bolts and the contexts. -/
def State.gangs (s : State) : Issue × Tab Bolt × Tab Context := (s.cur, s.bolts, s.contexts)

theorem foldl_gangs {β : Type} {f : State → β → State} (hf : ∀ s b, (f s b).gangs = s.gangs) (l : List β) (s : State) :
    (l.foldl f s).gangs = s.gangs := by
  induction l generalizing s with
  | nil => rfl
  | cons b l ih => exact (ih _).trans (hf s b)

theorem State.wakeWatches_gangs (s : State) (tdom va n : Nat) (s2 : Stage2) : (s.wakeWatches tdom va n s2).gangs = s.gangs := by
  unfold State.wakeWatches
  refine foldl_gangs (fun t w => ?_) _ _
  rfl

theorem State.effectWrite_gangs (s : State) (tdom core seq reached va : Nat) (a : Attr) (s2 : Stage2) (data : List Byte) :
    (s.effectWrite tdom core seq reached va a s2 data).gangs = s.gangs := by
  unfold State.effectWrite
  exact State.wakeWatches_gangs ..

theorem State.spent_gangs (s : State) (va n : Nat) : (s.spent va n).gangs = s.gangs := by
  unfold State.spent; split_ifs <;> rfl

theorem State.unitSent_gangs (s : State) (station domain va n : Nat) : (s.unitSent station domain va n).gangs = s.gangs := by
  unfold State.unitSent
  simp only
  split_ifs
  · rfl
  · cases s.partOfDomain domain <;> rfl
  · rfl

theorem State.modWrite_gangs {s t : State} {domain gen wr core seq va : Nat} {data : List Byte}
    (h : s.modWrite domain gen wr core seq va data = .ok t) : t.gangs = s.gangs := by
  unfold State.modWrite at h
  split at h
  · split at h <;> cases h
    exact State.spent_gangs ..
  · split at h <;> cases h
    exact State.effectWrite_gangs ..

theorem State.openRecord_gangs {s t : State} {a : FaultAsk} {id : Nat} (h : s.openRecord a = some (id, t)) : t.gangs = s.gangs := by
  unfold State.openRecord at h
  simp only at h
  split at h
  · cases h; rfl
  · split_ifs at h
    cases h; rfl

theorem State.unitNack_gangs {s t : State} {ctx domain va code flags : Nat} (h : s.unitNack ctx domain va code flags = some t) :
    t.gangs = s.gangs := by
  unfold State.unitNack at h
  split_ifs at h
  · cases h; rfl
  · obtain ⟨r, hr, rfl⟩ := Option.map_eq_some_iff.mp h
    exact State.openRecord_gangs hr

theorem State.ringWrite_gangs {s t : State} {qn : Nat} {record : List Byte} (h : s.ringWrite qn record = some t) :
    t.gangs = s.gangs := by
  unfold State.ringWrite at h
  simp only at h
  split at h
  · cases h; rfl
  · split at h
    · next u hu =>
      have hg := State.modWrite_gangs hu
      cases h
      exact (State.unitSent_gangs ..).trans hg
    · obtain ⟨u, hu, rfl⟩ := Option.map_eq_some_iff.mp h
      have hg := State.unitNack_gangs hu
      exact (State.spent_gangs ..).trans hg

theorem State.drainEvents_gangs (n : Nat) (s : State) (qn : Nat) : (s.drainEvents n qn).gangs = s.gangs := by
  induction n generalizing s with
  | zero => rfl
  | succ n ih =>
    unfold State.drainEvents
    split
    · rfl
    · split
      · rfl
      · split_ifs
        · split
          · rfl
          · next t ht =>
            have hg := State.ringWrite_gangs ht
            exact (ih t).trans hg
        · rfl

theorem State.toEventQueue_gangs (s : State) (qn : Nat) (record : List Byte) : (s.toEventQueue qn record).gangs = s.gangs := by
  unfold State.toEventQueue
  split
  · rfl
  · next q _ =>
    simp only
    generalize (if q.marked = true then record.set 3 1 else record) = r
    split
    · rfl
    · split
      · split
        · exact State.drainEvents_gangs ..
        · rfl
      · exact State.drainEvents_gangs ..

theorem State.raise_gangs (s : State) (host : Bool) (code sev src : Nat) (part ctx : Option Nat) (dest : List Nat)
    (body : List Byte) : (s.raise host code sev src part ctx dest body).gangs = s.gangs := by
  unfold State.raise
  simp only
  refine (foldl_gangs (fun t p => ?_) dest _).trans ?_
  · split
    · rfl
    · exact State.toEventQueue_gangs ..
  · split_ifs <;> rfl

theorem State.raiseFault_gangs (s : State) (ctx cause src strand pc boltIx skeinIx relaunches info : Nat) (relaunched faulted : Bool) :
    (s.raiseFault ctx cause src strand pc boltIx skeinIx relaunches info relaunched faulted).gangs = s.gangs :=
  State.raise_gangs ..

/-! ### A context that faults (R271, R272, R326, R331) -/

theorem State.freeSkein_gangs (s : State) (k : Nat) : (s.freeSkein k).gangs = s.gangs := by
  unfold State.freeSkein
  split
  · rfl
  · next sk _ => cases sk.core <;> rfl

/-- A bolt that a kill has taken. -/
def Bolt.halted (b : Bolt) : Bolt := { b with state := .killed, skeins := [], bars := [] }

theorem State.haltBolt_gangs (s : State) (b : Nat) :
    (s.haltBolt b).gangs = (s.cur, Tab.upd s.bolts b Bolt.halted, s.contexts) := by
  unfold State.haltBolt
  split
  · next hb =>
    rw [State.bolt?] at hb
    simp only [Tab.upd, hb]
    rfl
  · next bo _ =>
    simp only
    generalize hu : ({ s with reqs := _, copies := _ } : State) = u
    have hg : u.gangs = s.gangs := by rw [← hu]; rfl
    have hf : (bo.skeins.foldl State.freeSkein u).gangs = s.gangs := (foldl_gangs State.freeSkein_gangs _ _).trans hg
    obtain ⟨h1, h2, h3⟩ := by simpa only [State.gangs, Prod.mk.injEq] using hf
    simp only [State.gangs, State.modBolt_cur, State.modBolt_bolts, State.modBolt_contexts, h1, h2, h3]
    rfl

/-- Blocks returned to the pool leave the bolts, and the state of every context. -/
theorem State.freeBlocks_keeps (s : State) (b : Nat) : (s.freeBlocks b).cur = s.cur ∧ (s.freeBlocks b).bolts = s.bolts ∧
    ∀ c, ((s.freeBlocks b).ctx? c).map Context.state = (s.ctx? c).map Context.state := by
  unfold State.freeBlocks
  split
  · exact ⟨rfl, rfl, fun _ => rfl⟩
  · refine ⟨rfl, rfl, fun c => ?_⟩
    rw [State.ctx?_modCtx]
    split_ifs
    · cases s.ctx? c <;> rfl
    · rfl

/-- A bolt after its context's fault. -/
def Bolt.faulted (b : Bolt) : Bolt := if b.state = .killed then b else b.halted

/-- What the fault of a context does to one of its bolts. -/
def State.faultBolt (ctx cause : Nat) (atBolt : Option Nat) (f : FaultAt) (t : State) (b : Nat) : State :=
  match t.bolt? b with
  | none => t
  | some bo =>
    let own := atBolt = some b
    if bo.state = .killed then t.freeBlocks b
    else
      ((t.haltBolt b).freeBlocks b).raiseFault ctx cause f.src (if own then f.strand else 0xFFFF)
        (if own then f.pc else 0) bo.index (if own then f.skeinIx else t.faultSkein bo cause f) bo.relaunches f.info false true

theorem State.faultBolt_keeps (ctx cause : Nat) (atBolt : Option Nat) (f : FaultAt) (t : State) (b : Nat) :
    (t.faultBolt ctx cause atBolt f b).cur = t.cur ∧
    (∀ a, (t.faultBolt ctx cause atBolt f b).bolt? a = if a = b then (t.bolt? a).map Bolt.faulted else t.bolt? a) ∧
    ∀ c, ((t.faultBolt ctx cause atBolt f b).ctx? c).map Context.state = (t.ctx? c).map Context.state := by
  unfold State.faultBolt
  split
  · next hb =>
    refine ⟨rfl, fun a => ?_, fun _ => rfl⟩
    split_ifs with ha
    · rw [ha, hb]; rfl
    · rfl
  · next bo hb =>
    simp only
    split
    · next hk =>
      obtain ⟨hcur, hbolts, hctx⟩ := t.freeBlocks_keeps b
      refine ⟨hcur, fun a => ?_, hctx⟩
      rw [State.bolt?, hbolts]
      split_ifs with ha
      · rw [ha, hb, Option.map_some, Bolt.faulted, if_pos hk]
        exact hb
      · rfl
    · next hk =>
      obtain ⟨hcur, hbolts, hctx⟩ := (t.haltBolt b).freeBlocks_keeps b
      have hg := State.raiseFault_gangs ((t.haltBolt b).freeBlocks b) ctx cause f.src (if atBolt = some b then f.strand else 0xFFFF)
        (if atBolt = some b then f.pc else 0) bo.index (if atBolt = some b then f.skeinIx else t.faultSkein bo cause f) bo.relaunches
        f.info false true
      have hh := t.haltBolt_gangs b
      simp only [State.gangs, Prod.mk.injEq] at hg hh
      obtain ⟨hg1, hg2, hg3⟩ := hg
      obtain ⟨hh1, hh2, hh3⟩ := hh
      refine ⟨by rw [hg1, hcur, hh1], fun a => ?_, fun c => ?_⟩
      · rw [State.bolt?, hg2, hbolts, hh2, Tab.get_upd]
        split_ifs with ha
        · rw [ha, hb, show Tab.get t.bolts b = some bo from hb, Option.map_some, Option.map_some, Bolt.faulted, if_neg hk]
        · rfl
      · rw [State.ctx?, hg3, ← State.ctx?, hctx, State.ctx?, hh3, ← State.ctx?]

theorem Bolt.state_faulted (b : Bolt) : b.faulted.state = .killed := by
  unfold Bolt.faulted
  split_ifs with h
  · exact h
  · rfl

/-- After the fault of each of some bolts, those are killed, and every context is in the state it was. -/
theorem State.foldl_faultBolt (ctx cause : Nat) (atBolt : Option Nat) (f : FaultAt) (l : List Nat) (t : State) :
    (l.foldl (State.faultBolt ctx cause atBolt f) t).cur = t.cur ∧
    (∀ a, a ∈ l → (t.bolt? a).isSome = true →
      ∃ y, (l.foldl (State.faultBolt ctx cause atBolt f) t).bolt? a = some y ∧ y.state = .killed) ∧
    (∀ a y, t.bolt? a = some y → y.state = .killed →
      ∃ y', (l.foldl (State.faultBolt ctx cause atBolt f) t).bolt? a = some y' ∧ y'.state = .killed) ∧
    ∀ c, ((l.foldl (State.faultBolt ctx cause atBolt f) t).ctx? c).map Context.state = (t.ctx? c).map Context.state := by
  induction l generalizing t with
  | nil => exact ⟨rfl, fun _ h => absurd h List.not_mem_nil, fun a y h hk => ⟨y, h, hk⟩, fun _ => rfl⟩
  | cons b l ih =>
    obtain ⟨hcur, hbolt, hctx⟩ := State.faultBolt_keeps ctx cause atBolt f t b
    obtain ⟨icur, iin, ikilled, ictx⟩ := ih (t.faultBolt ctx cause atBolt f b)
    refine ⟨icur.trans hcur, fun a ha hs => ?_, fun a y hy hk => ?_, fun c => (ictx c).trans (hctx c)⟩
    · obtain ⟨y, hy⟩ := Option.isSome_iff_exists.mp hs
      by_cases hab : a = b
      · exact ikilled a y.faulted (by rw [hbolt, if_pos hab, hy]; rfl) y.state_faulted
      · exact iin a ((List.mem_cons.mp ha).resolve_left hab) (by rw [hbolt, if_neg hab, hy]; rfl)
    · by_cases hab : a = b
      · exact ikilled a y.faulted (by rw [hbolt, if_pos hab, hy]; rfl) y.state_faulted
      · exact ikilled a y (by rw [hbolt, if_neg hab, hy]) hk

theorem State.mem_boltsOf {s : State} {n : Nat} {b : Bolt} {ctx : Nat} (hb : s.bolt? n = some b) (hc : b.ctx = ctx)
    (hr : b.state ≠ .retired) : n ∈ s.boltsOf ctx := by
  unfold State.boltsOf
  refine List.mem_filterMap.mpr ⟨(n, b), List.mem_filterMap.mpr ⟨(n, some b), Tab.mem_of_get hb, rfl⟩, ?_⟩
  simp [hc, hr]

/-- The fault of a context that runs takes it to FAULTED, and kills each of its bolts (R326, R331). -/
theorem State.faultContext_running {s : State} {ctx cause n : Nat} {b : Bolt} {c : Context} (hc : s.ctx? ctx = some c)
    (hcs : c.state = .running) (hb : s.bolt? n = some b) (hbc : b.ctx = ctx) (hbs : b.state = .running) (atBolt : Option Nat)
    (f : FaultAt) :
    (s.faultContext ctx cause atBolt f).cur = s.cur ∧
    (∃ y, (s.faultContext ctx cause atBolt f).ctx? ctx = some y ∧ y.state = .faulted) ∧
    ∃ y, (s.faultContext ctx cause atBolt f).bolt? n = some y ∧ y.state = .killed := by
  obtain ⟨hcur, hin, -, hctx⟩ := State.foldl_faultBolt ctx cause atBolt f (s.boltsOf ctx) s
  have heq : s.faultContext ctx cause atBolt f = ((s.boltsOf ctx).foldl (State.faultBolt ctx cause atBolt f) s).modCtx ctx
      (fun x => { x with state := .faulted, restoring := none, spilling := none }) := by
    unfold State.faultContext
    simp only [hc, hcs, CtxState.mayFault, if_true]
    rfl
  rw [heq]
  refine ⟨hcur, ?_, hin n (State.mem_boltsOf hb hbc (by rw [hbs]; decide)) (Option.isSome_of_eq_some hb)⟩
  have hx := hctx ctx
  rw [hc] at hx
  obtain ⟨x, hx, -⟩ := Option.map_eq_some_iff.mp hx
  exact ⟨_, by rw [State.ctx?_modCtx, if_pos rfl, hx]; rfl, rfl⟩

/-- A trap of one strand that has no handler, or is in one, faults its context (R148, R331). -/
theorem State.takeTraps_fault {s : State} {sk : Skein} {k w : Nat} {pc : Word} {r : TrapReq} {x : Strand}
    (hk : s.skein? k = some sk) (hx : Tab.get sk.strands r.strand = some x) (h : x.active = true ∨ x.trapvec = 0xFFFFFFFF) :
    s.takeTraps k w pc [r] = s.faultContext sk.ctx r.cause (some sk.bolt)
      { src := coreId (sk.core.getD 0), strand := r.strand, pc := pc.toNat, skeinIx := sk.index, info := r.val.toNat } := by
  have hp : (x.active || x.trapvec == 0xFFFFFFFF) = true := by simpa using h
  unfold State.takeTraps
  simp only [hk, List.find?_cons, hx, hp]
  unfold State.trapFault
  simp only [hk]

/-- A software trap of one strand without a handler (R147, R331). -/
theorem trap_faults (g : BitVec 3) (n : BitVec 6) {s : State} {sk : Skein} {i : Nat} {x : Strand} {b : Bolt} {c : Context}
    (h : s.CanRun sk (.trap g n)) (hg : s.acting g = [i]) (hx : Tab.get sk.strands i = some x)
    (ht : x.active = true ∨ x.trapvec = 0xFFFFFFFF) (hb : s.bolt? sk.bolt = some b) (hbc : b.ctx = sk.ctx)
    (hbs : b.state = .running) (hc : s.ctx? sk.ctx = some c) (hcs : c.state = .running) :
    goesTo (exec (.trap g n) s) (fun t => (∃ y, t.ctx? sk.ctx = some y ∧ y.state = .faulted) ∧
      (∃ y, t.bolt? sk.bolt = some y ∧ y.state = .killed)) := by
  have hact : s.actors g = [i] := (s.actors_eq_acting g).trans hg
  have hxi : s.strand? s.cur.skein i = some x := (h.1.strand? i).trans hx
  have hts : s.trapsOf g 0x30 (fun _ => n.setWidth 32) = [{ strand := i, cause := 0x30, val := n.setWidth 32 }] := by
    simp [State.trapsOf, hact, hxi]
  obtain ⟨sk', hk', hsk⟩ := (s.othersGone_only g).2.2.2 sk h.1.1
  have hxi' : Tab.get sk'.strands i = some x := by
    have := State.strand?_othersGone_actor h.1 (g := g) (j := i) (by rw [hact]; exact List.mem_singleton_self i)
    rw [hxi, State.strand?, hk'] at this
    exact this
  have hskc : sk'.ctx = sk.ctx := by rw [hsk]
  have hskb : sk'.bolt = sk.bolt := by rw [hsk]
  have hfault := State.takeTraps_fault (w := s.cur.weft) (pc := s.cur.pc) (r := { strand := i, cause := 0x30, val := n.setWidth 32 })
    hk' hxi' ht
  rw [hskc, hskb] at hfault
  obtain ⟨hcur, hctx, hbolt⟩ := State.faultContext_running (s := s.othersGone g) (cause := 0x30) hc hcs hb hbc hbs (some sk.bolt)
    { src := coreId (sk'.core.getD 0), strand := i, pc := s.cur.pc.toNat, skeinIx := sk'.index, info := ((n.setWidth 32 : Word)).toNat }
  refine ⟨_, State.word_canRun h _, ?_⟩
  rw [if_pos rfl, State.eachStrand_trap h.1 g 0x30 (fun _ => n.setWidth 32) (fun _ _ _ _ => rfl), hts, if_neg (List.cons_ne_nil _ _),
    State.OnlyStrands.trapHere h.1 (s.othersGone_only g), hfault, State.reportDenied_nil (by rw [hcur]; exact h.1.2.1)]
  exact ⟨hctx, hbolt⟩

/-- Settles O48: encoding traps, a fault without a handler, TRAPHOLD, and a floating trap. -/
theorem trapsTaken : Obligations.TrapsTaken := by
  unfold Obligations.TrapsTaken
  refine ⟨fun i s sk cause w hi h ht hh => exec_wordTrap_enter hi h ht hh, ?_, ?_, ?_⟩
  · intro g n s sk i x b c h hg hx ht hb hbc hbs hc hcs
    exact trap_faults g n h hg hx ht hb hbc hbs hc hcs
  · intro g n s sk h hw hx
    exact State.word_eachStrand_held h g hw 0x30 (fun _ => n.setWidth 32) hx (fun _ _ _ _ => rfl)
  · intro c g d a b s sk h fl hx hw
    exact fadd_traps c g d a b h fl (fun _ => rfl) hx hw

end Sys2Proof.Machine
end

section
/-! Moves and index registers (R64, R108 to R110): a word that waits for the registers it reaches, and one whose strands
each trap at write-back. -/

namespace Sys2Proof.Machine

/-! ### Strands that a guard leaves out (R42) -/

theorem guarded_skip {g : BitVec 3} {f : Strand → LaneOut} {x : Strand} (h : x.rpr g.toNat = false) : guarded g f x = .ok x := by
  rw [guarded, h]
  rfl

theorem guarded_act {g : BitVec 3} {f : Strand → LaneOut} {x : Strand} (h : x.rpr g.toNat = true) : guarded g f x = f x := by
  rw [guarded, if_pos h]

/-! ### A word that can run waits for no register (R75, R183) -/

theorem ldgaOn_of_ne {k : Nat} {r : Req} (h : r.kind = .ldga → r.skein ≠ k) (act regs : List Nat) : ldgaOn k act regs r = false := by
  by_cases hk : r.kind = .ldga
  · simp [ldgaOn, h hk]
  · simp [ldgaOn, hk]

/-- A word that can run, and retires once no register that it reaches is still to be written: its outcomes retire now. -/
theorem State.word_waiting_retire {s : State} {sk : Skein} {i j : Instr} (h : s.CanRun sk i)
    (act regs dst : Skein → State → List Nat) (f : Skein → Nat → Strand → LaneOut) :
    s.word i (fun sk t => t.waiting (act sk t) (ldgaOn t.cur.skein (act sk t) (regs sk t))
        (fun u => (true, u.retire sk j (dst sk u) (u.laneOuts (f sk))))) =
      .next ((s.retire sk j (dst sk s) (s.laneOuts (f sk))).reportDenied.count s.cur.skein 0 1) := by
  rw [State.word_canRun h, State.waiting_clear _ _ _ _ (fun e he => ldgaOn_of_ne (h.2.2.1 e he) _ _), if_pos rfl]

/-! ### What retiring outcomes leaves beside them -/

/-- A weft is as it was where nothing but strands changed. -/
theorem State.OnlyStrands.weft? {s t : State} {sk : Skein} (ho : s.OnlyStrands t) (hk : s.skein? s.cur.skein = some sk) (w : Nat) :
    t.weft? s.cur.skein w = s.weft? s.cur.skein w := by
  obtain ⟨sk', hk', hsk⟩ := ho.2.2.2 sk hk
  rw [State.weft?, State.weft?, hk', hk, Option.bind_some, Option.bind_some, hsk]

/-- Naming writes and entering the reuse table change counters and the table alone, whether or not a strand trapped (R66, R70,
R71). -/
theorem State.retire_putLanes (s : State) (sk : Skein) (i : Instr) (dst : List Nat) (outs : List (Nat × LaneOut))
    (hcur : (s.putLanes outs).cur = s.cur) : (s.putLanes outs).OnlyStrands (s.retire sk i dst outs) := by
  have hn := (State.noteWrites_only s.cur.weft (s.newNames sk i dst) (s.putLanes outs)).1
  have hcount := State.onlyStrands_count (s.putLanes outs) 1 1
  rw [hcur] at hn hcount
  unfold State.retire
  simp only
  split_ifs
  · exact hcount
  · exact hn.trans (State.reuseEnter_only ..).1
  · exact (State.reuseEnter_only ..).1
  · exact hn
  · exact .refl _

/-! ### A word of which every strand that acts traps at write-back (R148) -/

/-- The traps of the strands that act, taken where the others have gone on: each of those enters, TMASK names them. -/
theorem State.trapHere_trapsOf {s u : State} {sk : Skein} (h : s.Issuing sk) (g : BitVec 3) (hh : s.Handled sk g)
    (ho : s.OnlyStrands u) (hu : ∀ k j, u.strand? k j = (s.othersGone g).strand? k j) (cause : Nat) (val : Strand → Word) :
    (u.trapHere (s.trapsOf g cause val)).cur = s.cur ∧ (u.trapHere (s.trapsOf g cause val)).homes = s.homes ∧
    (∀ wf, (u.trapHere (s.trapsOf g cause val)).weft? s.cur.skein s.cur.weft = some wf →
      wf.tmask = laneMask s.cur.weft (s.acting g)) ∧
    s.StrandsDone (u.trapHere (s.trapsOf g cause val)) g.toNat (fun _ x => x.enter cause (val x) s.cur.pc) := by
  obtain ⟨hw, hx⟩ := hh
  have hstr := State.trapsOf_strands h g cause val
  have hcan : ∀ r ∈ s.trapsOf g cause val, ∀ x, u.strand? s.cur.skein r.strand = some x → x.canEnter sk.kern = true := by
    intro r hr x hrx
    obtain ⟨hj, -⟩ := State.mem_trapsOf g cause val hr
    rw [hu, State.strand?_othersGone_actor h hj] at hrx
    obtain ⟨ha, hv, hp⟩ := hx _ (List.mem_of_mem_filter hj) x hrx ((State.mem_actors hrx).mp hj).2
    simp only [Strand.canEnter, ha, hp, Bool.not_false, Bool.true_and, Bool.and_true, bne_iff_ne]
    exact hv
  obtain ⟨hcur, hhomes, hmask, hs⟩ := State.trapHere_enter h ho
    (fun j => (congrArg _ (hu _ j)).trans (State.handling_othersGone h g j)) hw (hstr ▸ h.2.2.2.2.1.filter _) hcan
  refine ⟨hcur, hhomes, fun wf hwf => ?_, State.strandsDone_trapsOf h g cause val
    (fun r x => x.enter r.cause r.val s.cur.pc) (fun a j => ?_)⟩
  · rw [hmask wf hwf, hstr, State.actors_eq_acting]
  · rw [hs, hu]

section
variable {s : State} {sk : Skein} (h : s.Issuing sk) (g : BitVec 3) (cause : Nat) (val : Strand → Word)
  {f : Nat → Strand → LaneOut}
  (hgo : ∀ j x, x.rpr g.toNat = false → f j x = .ok x)
  (htrap : ∀ j ∈ s.cur.strands, ∀ x, s.strand? s.cur.skein j = some x → x.rpr g.toNat = true → f j x = .trap x cause (val x))
include h hgo htrap

/-- The strands that act stay, the others go on. -/
theorem State.strand?_laneStrands_trap (k j : Nat) :
    (s.laneStrands (s.laneOuts f)).strand? k j = (s.othersGone g).strand? k j := by
  rw [State.strand?_laneStrands h, State.strand?_othersGone h]
  split_ifs with hk
  · obtain ⟨rfl, hj⟩ := hk
    obtain ⟨x, hx⟩ := h.exists_strand hj
    rw [hx, Option.map_some, Option.map_some]
    cases hg : x.rpr g.toNat with
    | true => rw [htrap j hj x hx hg]; rfl
    | false => rw [hgo j x hg]; rfl
  · rfl

/-- The traps of the outcomes are those of the strands that act, in the order of the issue set. -/
theorem State.laneTraps_eq_trapsOf : (s.laneOuts f).filterMap (fun o => o.2.trap? o.1) = s.trapsOf g cause val := by
  rw [State.laneOuts, State.issueSet, List.filterMap_map, List.filterMap_filterMap, State.trapsOf, State.actors,
    List.filterMap_filter]
  refine List.filterMap_congr fun j hj => ?_
  obtain ⟨x, hx⟩ := h.exists_strand hj
  cases hg : x.rpr g.toNat with
  | true => simp [hx, State.mem_acting, hj, hg, htrap j hj x hx hg, LaneOut.trap?]
  | false => simp [hx, State.mem_acting, hg, hgo j x hg, LaneOut.trap?]

/-- Outcomes that are a trap of the same cause in every strand that acts. -/
theorem State.putLanes_trap (hh : s.Handled sk g) :
    (s.putLanes (s.laneOuts f)).cur = s.cur ∧ (s.putLanes (s.laneOuts f)).homes = s.homes ∧
    (s.acting g ≠ [] → ∀ wf, (s.putLanes (s.laneOuts f)).weft? s.cur.skein s.cur.weft = some wf →
      wf.tmask = laneMask s.cur.weft (s.acting g)) ∧
    s.StrandsDone (s.putLanes (s.laneOuts f)) g.toNat (fun _ x => x.enter cause (val x) s.cur.pc) := by
  have hu := State.strand?_laneStrands_trap h g cause val hgo htrap
  rw [State.putLanes_eq, State.laneTraps_eq_trapsOf h g cause val hgo htrap]
  by_cases hn : s.trapsOf g cause val = []
  · rw [if_pos hn]
    refine ⟨rfl, rfl, fun hne => ?_, State.strandsDone_trapsOf h g cause val (fun r x => x.enter r.cause r.val s.cur.pc)
      (fun a j => by simp [hn, hu])⟩
    rw [← State.actors_eq_acting, ← State.trapsOf_strands h g cause val, hn] at hne
    exact absurd rfl hne
  · rw [if_neg hn]
    obtain ⟨hcur, hhomes, hmask, hs⟩ :=
      State.trapHere_trapsOf h g hh (s.laneStrands_only (s.laneOuts f)) hu cause val
    exact ⟨hcur, hhomes, fun _ => hmask, hs⟩

/-- Retiring such outcomes: each strand that acts enters, the others go on, and no byte of memory changes. -/
theorem State.retire_trap (hh : s.Handled sk g) (i : Instr) (dst : List Nat) :
    goesTo (.next ((s.retire sk i dst (s.laneOuts f)).reportDenied.count s.cur.skein 0 1)) (fun t =>
      s.StrandsDone t g.toNat (fun _ x => x.enter cause (val x) s.cur.pc) ∧ t.homes = s.homes ∧
      (s.acting g ≠ [] → ∀ wf, t.weft? s.cur.skein s.cur.weft = some wf → wf.tmask = laneMask s.cur.weft (s.acting g))) := by
  obtain ⟨hcur, hhomes, hmask, hs⟩ := State.putLanes_trap h g cause val hgo htrap hh
  have ho := State.retire_putLanes s sk i dst _ hcur
  have hrs := (State.strand?_retire sk i dst _ hcur).2
  refine ⟨_, rfl, ?_⟩
  rw [State.reportDenied_nil (by rw [ho.cur, hcur]; exact h.2.1)]
  refine ⟨fun k j => ?_, ho.homes.trans hhomes, fun hne wf hwf => hmask hne wf ?_⟩
  · rw [State.strand?_count, hrs, hs]
  · obtain ⟨j, hj⟩ := List.exists_mem_of_ne_nil _ hne
    obtain ⟨hj, x, hx, -⟩ := (s.mem_acting g j).mp hj
    obtain ⟨y, hy⟩ : ∃ y, (s.putLanes (s.laneOuts f)).strand? s.cur.skein j = some y :=
      ⟨_, by rw [hs, if_pos ⟨rfl, hj⟩, hx]; rfl⟩
    obtain ⟨sk', hk', -⟩ := Option.bind_eq_some_iff.mp hy
    have hw := ho.weft? (hcur ▸ hk') s.cur.weft
    rw [hcur] at hw
    rwa [State.weft?_count, hw] at hwf

end

/-- Outcomes that are no trap in any strand that acts: each takes its own, the others go on. -/
theorem State.putLanes_done {s : State} {sk : Skein} (h : s.Issuing sk) {g : BitVec 3} {f : Nat → Strand → LaneOut}
    (w : Nat → Strand → Strand) (hgo : ∀ j x, x.rpr g.toNat = false → f j x = .ok x)
    (hok : ∀ j ∈ s.cur.strands, ∀ x, s.strand? s.cur.skein j = some x → x.rpr g.toNat = true → f j x = .ok (w j x)) :
    s.StrandsDone (s.putLanes (s.laneOuts f)) g.toNat (fun j x => (w j x).advance) ∧ s.OnlyStrands (s.putLanes (s.laneOuts f)) := by
  have hf : ∀ j ∈ s.cur.strands, ∀ x, s.strand? s.cur.skein j = some x → f j x = .ok (if x.rpr g.toNat then w j x else x) := by
    intro j hj x hx
    cases hg : x.rpr g.toNat with
    | true => exact hok j hj x hx hg
    | false => exact hgo j x hg
  obtain ⟨ho, hs⟩ := State.putLanes_ok h f (fun j hj x hx => by rw [hf j hj x hx]; rfl)
  refine ⟨fun k j => ?_, ho⟩
  rw [hs]
  split_ifs with hk
  · obtain ⟨rfl, hj⟩ := hk
    obtain ⟨x, hx⟩ := h.exists_strand hj
    rw [hx, Option.map_some, Option.map_some, hf j hj x hx]
    cases x.rpr g.toNat <;> rfl
  · rfl

/-- Retiring such outcomes changes nothing else. -/
theorem State.retire_done {s : State} {sk : Skein} (h : s.Issuing sk) (i : Instr) (dst : List Nat) {g : BitVec 3}
    {f : Nat → Strand → LaneOut} (w : Nat → Strand → Strand) (hgo : ∀ j x, x.rpr g.toNat = false → f j x = .ok x)
    (hok : ∀ j ∈ s.cur.strands, ∀ x, s.strand? s.cur.skein j = some x → x.rpr g.toNat = true → f j x = .ok (w j x)) :
    goesTo (.next ((s.retire sk i dst (s.laneOuts f)).reportDenied.count s.cur.skein 0 1)) (fun t =>
      s.StrandsDone t g.toNat (fun j x => (w j x).advance) ∧ s.OnlyStrands t) := by
  obtain ⟨hs, ho⟩ := State.putLanes_done h w hgo hok
  obtain ⟨ho, hrs⟩ := s.retire_only sk i dst _ ho
  refine ⟨_, rfl, ?_⟩
  rw [State.reportDenied_nil (ho.cur ▸ h.2.1)]
  refine ⟨fun k j => ?_, ho.trans (ho.cur ▸ State.onlyStrands_count _ 0 1)⟩
  rw [State.strand?_count, hrs, hs]

/-! ### Index registers (R63, R64, R109, R110) -/

/-- A field of an index register. -/
theorem bits_toNat {n : Nat} (x : BitVec n) (hi lo : Nat) : bits x.toNat hi lo = (x.extractLsb' lo (hi + 1 - lo)).toNat := by
  rw [bits, BitVec.extractLsb'_toNat, Nat.shiftRight_eq_div_pow]

/-- The register that an index register and an offset reach, by R64's fields. -/
theorem indexReg_fst (kern : Kernel) (x : Strand) (n : BitVec 2) (o : BitVec 6) :
    (indexReg kern x n o).1 = ((x.rn n.toNat).setWidth 8).toInt + o.toInt := by
  have : bits (x.rn n.toNat).toNat 7 0 = ((x.rn n.toNat).setWidth 8).toNat := by
    rw [bits, BitVec.toNat_setWidth, Nat.pow_zero, Nat.div_one]
  rw [indexReg, this, signed_toNat _ (by decide)]

theorem indexReg_snd (kern : Kernel) (x : Strand) (n : BitVec 2) (o : BitVec 6) : (indexReg kern x n o).2 = true ↔
    ((x.rn n.toNat).extractLsb' 8 6).toNat ≤ (indexReg kern x n o).1 ∧
    (indexReg kern x n o).1 ≤ ((x.rn n.toNat).extractLsb' 14 6).toNat ∧ (indexReg kern x n o).1 < kern.vregs := by
  simp only [indexReg, decide_eq_true_eq, bits_toNat]

/-- Advancing the cursor alone: the limits stay, and the cursor wraps at 8 bits. -/
theorem ofNat_advance_cursor (x : BitVec 20) (v : Word) :
    BitVec.ofNat 20 (x.toNat / 256 * 256 + (x.toNat + v.toNat) % 256) =
      x.extractLsb' 8 12 ++ (x.setWidth 8 + v.setWidth 8) := by
  apply BitVec.eq_of_toNat_eq
  have hx := x.isLt
  rw [BitVec.toNat_append, ← Nat.shiftLeft_add_eq_or_of_lt (BitVec.isLt _)]
  simp only [BitVec.toNat_ofNat, BitVec.extractLsb'_toNat, BitVec.toNat_add, BitVec.toNat_setWidth, Nat.shiftRight_eq_div_pow,
    Nat.shiftLeft_eq]
  omega

/-- RDX and WRX in one strand, by the access that they make of the register they reach (R109). -/
def indexLane (g : BitVec 3) (n : BitVec 2) (o : BitVec 6) (access : Nat → Strand → Strand) : Skein → Nat → Strand → LaneOut :=
  fun sk _ => guarded g (fun x =>
    let e := indexReg sk.kern x n o
    if e.2 then .ok (access e.1.toNat x) else .trap x 0x04 (BitVec.ofInt 32 e.1))

section
variable (c : BitVec 1) (g : BitVec 3) (d : VReg) (n : BitVec 2) (o : BitVec 6) {s : State} {sk : Skein}

/-- RDX and WRX that can run retire their outcomes: no register that they reach is still to be written. -/
theorem exec_rdx (h : s.CanRun sk (.rdx c g d n o)) : exec (.rdx c g d n o) s =
    .next ((s.retire sk (.rdx c g d n o) [d.toNat]
      (s.laneOuts (indexLane g n o (fun r x => x.wv d.toNat (x.rv r)) sk))).reportDenied.count s.cur.skein 0 1) :=
  State.word_waiting_retire h (fun _ t => t.acting g) (fun sk t => reachedRegs sk t.issueSet g n o) (fun _ _ => [d.toNat])
    (rdxLane g d n o)

theorem exec_wrx (h : s.CanRun sk (.wrx c g d n o)) : exec (.wrx c g d n o) s =
    .next ((s.retire sk (.wrx c g d n o) (reachedRegs sk s.issueSet g n o)
      (s.laneOuts (indexLane g n o (fun r x => x.wv r (x.rv d.toNat)) sk))).reportDenied.count s.cur.skein 0 1) :=
  State.word_waiting_retire h (fun _ t => t.acting g) (fun sk t => reachedRegs sk t.issueSet g n o)
    (fun sk t => reachedRegs sk t.issueSet g n o) (wrxLane g d n o)

variable (access : Nat → Strand → Strand)

theorem indexLane_skip (sk : Skein) (j : Nat) (x : Strand) (h : x.rpr g.toNat = false) :
    indexLane g n o access sk j x = .ok x :=
  guarded_skip h

/-- A strand that acts makes its access where R64 allows it, and traps INDEX elsewhere. -/
theorem indexLane_act (sk : Skein) (j : Nat) (x : Strand) (h : x.rpr g.toNat = true) : indexLane g n o access sk j x =
    if (indexReg sk.kern x n o).2 then .ok (access (indexReg sk.kern x n o).1.toNat x)
    else .trap x 0x04 (BitVec.ofInt 32 (indexReg sk.kern x n o).1) :=
  guarded_act h

variable {i : Instr} {dst : List Nat} (hi : s.CanRun sk i → exec i s =
  .next ((s.retire sk i dst (s.laneOuts (indexLane g n o access sk))).reportDenied.count s.cur.skein 0 1)) (h : s.CanRun sk i)
include hi h

/-- Every access allowed: each is made. -/
theorem exec_index_inside (hx : ∀ j ∈ s.cur.strands, ∀ x, s.strand? s.cur.skein j = some x → x.rpr g.toNat = true →
      (indexReg sk.kern x n o).2 = true) :
    goesTo (exec i s) (fun t => s.StrandsDone t g.toNat (fun _ x => (access (indexReg sk.kern x n o).1.toNat x).advance) ∧
      s.OnlyStrands t) := by
  rw [hi h]
  refine State.retire_done h.1 i dst (fun _ x => access (indexReg sk.kern x n o).1.toNat x) (indexLane_skip g n o access sk)
    (fun j hj x hjx hg => ?_)
  rw [indexLane_act g n o access sk j x hg, if_pos (hx j hj x hjx hg)]

/-- No access allowed: each strand that acts traps INDEX. -/
theorem exec_index_outside (hh : s.Handled sk g)
    (hx : ∀ j ∈ s.cur.strands, ∀ x, s.strand? s.cur.skein j = some x → x.rpr g.toNat = true →
      ¬ (indexReg sk.kern x n o).2 = true) :
    goesTo (exec i s) (fun t =>
      s.StrandsDone t g.toNat (fun _ x => x.enter 0x04 (BitVec.ofInt 32 (indexReg sk.kern x n o).1) s.cur.pc) ∧
      t.homes = s.homes ∧
      (s.acting g ≠ [] → ∀ wf, t.weft? s.cur.skein s.cur.weft = some wf → wf.tmask = laneMask s.cur.weft (s.acting g))) := by
  rw [hi h]
  refine State.retire_trap h.1 g 0x04 (fun x => BitVec.ofInt 32 (indexReg sk.kern x n o).1) (indexLane_skip g n o access sk)
    (fun j hj x hjx hg => ?_) hh i dst
  rw [indexLane_act g n o access sk j x hg, if_neg (hx j hj x hjx hg)]

end

theorem exec_nadv (c : BitVec 1) (g : BitVec 3) (n : BitVec 2) (a : VReg) (s : State) : exec (.nadv c g n a) s =
    s.lanes (.nadv c g n a) (fun _ _ => guarded g (fun x => .ok (x.wn n.toNat
      ((x.rn n.toNat).extractLsb' 8 12 ++ ((x.rn n.toNat).setWidth 8 + (x.rv a.toNat).setWidth 8))))) := by
  simp only [← ofNat_advance_cursor]
  rfl

/-- Settles O8: RDX and WRX make their accesses, or trap; the others are per-lane words. -/
theorem indexRegisters : Obligations.IndexRegisters := by
  unfold Obligations.IndexRegisters
  intro c g d a n o e inside reached outside
  have hout (sk : Skein) (x : Strand) (hx : outside sk x) : ¬ (indexReg sk.kern x n o).2 = true := by
    rw [indexReg_snd, indexReg_fst]
    rintro ⟨hlo, hhi, hk⟩
    rcases hx with hx | hx | hx
    · exact absurd hlo (not_le.mpr hx)
    · exact absurd hhi (not_le.mpr hx)
    · exact absurd hk (not_lt.mpr hx)
  have hin (sk : Skein) (x : Strand) (hx : inside sk x) : (indexReg sk.kern x n o).2 = true := by
    rwa [indexReg_snd, indexReg_fst]
  refine ⟨?mov, ?rdxTraps, ?wrxTraps, ?rdx, ?wrx, ?nset, ?nget, ?nadv, ?nclr⟩
  case mov => exact fun s sk h => State.lanes_guarded h g (fun _ _ x => x.wv d.toNat (x.rv a.toNat))
  case rdxTraps =>
    intro s sk h hh hx
    simpa only [indexReg_fst] using exec_index_outside g n o _ (exec_rdx c g d n o) h hh
      (fun j hj x hjx hg => hout sk x (hx j hj x hjx hg))
  case wrxTraps =>
    intro s sk h hh hx
    simpa only [indexReg_fst] using exec_index_outside g n o _ (exec_wrx c g d n o) h hh
      (fun j hj x hjx hg => hout sk x (hx j hj x hjx hg))
  case rdx =>
    intro s sk h hx
    simpa only [indexReg_fst] using exec_index_inside g n o _ (exec_rdx c g d n o) h
      (fun j hj x hjx hg => hin sk x (hx j hj x hjx hg))
  case wrx =>
    intro s sk h hx
    simpa only [indexReg_fst] using exec_index_inside g n o _ (exec_wrx c g d n o) h
      (fun j hj x hjx hg => hin sk x (hx j hj x hjx hg))
  case nset => exact fun s sk h => State.lanes_guarded h g (fun _ _ x => x.wn n.toNat ((x.rv a.toNat).setWidth 20))
  case nget => exact fun s sk h => State.lanes_guarded h g (fun _ _ x => x.wv d.toNat ((x.rn n.toNat).setWidth 32))
  case nadv =>
    intro s sk h
    rw [exec_nadv]
    exact State.lanes_guarded h g (fun _ _ x => x.wn n.toNat
      ((x.rn n.toNat).extractLsb' 8 12 ++ ((x.rn n.toNat).setWidth 8 + (x.rv a.toNat).setWidth 8)))
  case nclr => exact fun s sk h => State.lanes_guarded h g (fun _ _ x => x.wn n.toNat 0)

end Sys2Proof.Machine
end

section
/-! The special registers (R76 to R81, R256, R274, R328, R329): what MFS reads of each, and what MTS writes. -/

namespace Sys2Proof.Machine

/-! ### Issuing an MFS or MTS (R81) -/

/-- Where the skein has no request, no RST of it has flags still to come (R81). -/
theorem State.NoRequests.not_rstFlying {s : State} (h : s.NoRequests) (act : List Nat) :
    (Tab.list s.reqs).any (fun e => rstFlying s.cur.skein act e.2) = false := by
  rw [List.any_eq_false]
  intro e he
  simp [rstFlying, h e he]

/-- A word that can run, and whose body issues it, leaves what the body does. -/
theorem State.word_of_body {s u : State} {sk : Skein} {i : Instr} (h : s.CanRun sk i) {body : Skein → State → Attempt}
    (hb : body sk s = (true, u)) : s.word i body = .next (u.reportDenied.count s.cur.skein 0 1) := by
  rw [State.word_canRun h, hb, if_pos rfl]

/-! ### MFS (R76, R78, R80, R328, R330) -/

/-- A strand after an MFS of a register, before it goes on. -/
def State.afterMfs (s : State) (sk : Skein) (wf : Weft) (d : VReg) (n : BitVec 10) (j : Nat) (x : Strand) : Strand :=
  (x.wv d.toNat (BitVec.ofNat 32 (s.readSr sk s.cur.weft wf j x n.toNat))).latch s.clock n.toNat

/-- An MFS gives each strand that acts what it reads there, and a read of CLOCKLO latches. -/
theorem exec_mfs {c : BitVec 1} {g : BitVec 3} {d : VReg} {n : BitVec 10} {s : State} {sk : Skein} {wf : Weft}
    (h : s.CanRun sk (.mfs c g d n)) (hr : s.NoRequests) (hw : Tab.get sk.wefts s.cur.weft = some wf) :
    goesTo (exec (.mfs c g d n) s) (fun t =>
      s.StrandsDone t g.toNat (fun j x => (s.afterMfs sk wf d n j x).advance) ∧ s.OnlyStrands t) := by
  have hu : ({ s with free := s.free + 1 } : State).Issuing sk := h.1
  obtain ⟨t, ht, hs, ho⟩ := State.retire_done hu (.mfs c g d n) [d.toNat] (s.afterMfs sk wf d n)
    (f := fun j => guarded g (fun x => .ok (s.afterMfs sk wf d n j x)))
    (fun _ _ => guarded_skip) (fun _ _ _ _ => guarded_act)
  refine ⟨t, (State.word_of_body h ?_).trans ht, hs, (s.onlyStrands_free _).trans ho⟩
  refine (if_neg (fun hc => Bool.false_ne_true ((hr.not_rstFlying _).symm.trans hc.2))).trans ?_
  rw [hw]
  rfl

section
variable (s : State) (sk : Skein) (w : Nat) (wf : Weft) (i : Nat) (x : Strand)

/-- TMASK0 to TMASK7. -/
theorem State.readSr_tmask (n : Fin 8) : s.readSr sk w wf i x (0x018 + n) = wf.tmask / 2 ^ (32 * n.val) := by
  fin_cases n <;> rfl

/-- The performance counters. -/
theorem State.readSr_pmc (n : Fin 10) : s.readSr sk w wf i x (0x080 + n) = Cells.get 0 sk.pmc n := by
  fin_cases n <;> rfl

/-- The key registers. -/
theorem State.readSr_key (n : Fin 16) : s.readSr sk w wf i x (0x210 + n) = s.keyRights (sk.core.getD 0) sk.ctx n := by
  fin_cases n <;> rfl

/-- CLOCKHI is the word latched, or the current one where none is (R80). -/
theorem State.readSr_clockhi : s.readSr sk w wf i x 0x029 = x.clkHi.elim (s.clock / 2 ^ 32) BitVec.toNat := rfl

/-- The generation of a context that the module does not have is that of a fresh one. -/
theorem State.readSr_gen : s.readSr sk w wf i x 0x201 = ((s.ctx? sk.ctx).getD (Context.built 0 0 0 false [])).gen % 4096 := by
  change s.genOf sk.ctx % 4096 = _
  rw [State.genOf]
  cases s.ctx? sk.ctx <;> rfl

end

/-- A register other than CLOCKLO reads its value, and nothing else changes. -/
theorem mfs_reads {c : BitVec 1} {g : BitVec 3} {d : VReg} {n : BitVec 10} {v : State → Skein → Weft → Nat → Strand → Nat}
    (hv : ∀ s sk wf j x, s.readSr sk s.cur.weft wf j x n.toNat = v s sk wf j x := by exact fun _ _ _ _ _ => rfl)
    (hn : n.toNat ≠ 0x028 := by decide) (s : State) (sk : Skein) (wf : Weft)
    (h : s.CanRun sk (.mfs c g d n)) (hr : s.NoRequests) (hw : Tab.get sk.wefts s.cur.weft = some wf) :
    goesTo (exec (.mfs c g d n) s) (fun t =>
      s.StrandsDone t g.toNat (fun j x => (x.wv d.toNat (BitVec.ofNat 32 (v s sk wf j x))).advance) ∧ s.OnlyStrands t) := by
  have := exec_mfs h hr hw
  simpa only [State.afterMfs, hv, Strand.latch, if_neg hn] using this

/-- The numbers of a bank of registers. -/
theorem toNat_ofNat_add {b m : Nat} (hb : b + m ≤ 1024) (n : Fin m) : (BitVec.ofNat 10 (b + n)).toNat = b + n := by
  rw [BitVec.toNat_ofNat, Nat.mod_eq_of_lt (by omega)]

/-- Settles O16: every register but CLOCKLO reads without a latch. -/
theorem specialRegisterReads : Obligations.SpecialRegisterReads := by
  unfold Obligations.SpecialRegisterReads
  intro c g d
  have tmask (n : Fin 8) := toNat_ofNat_add (b := 0x018) (by decide) n
  have pmc (n : Fin 10) := toNat_ofNat_add (b := 0x080) (by decide) n
  have key (n : Fin 16) := toNat_ofNat_add (b := 0x210) (by decide) n
  exact
    -- 0x000 to 0x00F: the strand's place, its launch, its core
    ⟨mfs_reads, mfs_reads, mfs_reads, mfs_reads, mfs_reads, mfs_reads, mfs_reads, mfs_reads,
    mfs_reads, mfs_reads, mfs_reads, mfs_reads, mfs_reads, mfs_reads, mfs_reads, mfs_reads,
    -- 0x010 to 0x01F: floating and trap registers, TMASK
    mfs_reads, mfs_reads, mfs_reads, mfs_reads, mfs_reads, mfs_reads, mfs_reads, mfs_reads,
    fun n => mfs_reads (fun s sk wf j x => by rw [tmask]; exact s.readSr_tmask sk _ wf j x n) (by rw [tmask]; omega),
    -- 0x020 to 0x026: JTIMEOUT, the return stack, scratch and data
    mfs_reads, mfs_reads, mfs_reads, mfs_reads, mfs_reads, mfs_reads, mfs_reads,
    -- CLOCKLO and CLOCKHI
    fun s sk wf h hr hw => exec_mfs h hr hw,
    mfs_reads (fun s sk wf j x => (s.readSr_clockhi sk _ wf j x).trans (by cases x.clkHi <;> rfl)),
    -- CSTAT, SPSTAT, SPCNT, the counters
    mfs_reads, mfs_reads, mfs_reads,
    fun n => mfs_reads (fun s sk wf j x => by rw [pmc]; exact s.readSr_pmc sk _ wf j x n) (by rw [pmc]; omega),
    -- the S-level registers (R328)
    mfs_reads, mfs_reads (fun s sk wf j x => s.readSr_gen sk _ wf j x), mfs_reads, mfs_reads, mfs_reads, mfs_reads,
    fun n => mfs_reads (fun s sk wf j x => by rw [key]; exact s.readSr_key sk _ wf j x n) (by rw [key]; omega),
    mfs_reads, mfs_reads⟩

/-! ### MTS of a register held per strand (R77, R81) -/

/-- An MTS of a register held per strand writes it in each strand that acts, FPFLAGS once no RST has flags to come. -/
theorem exec_mts_perStrand {c : BitVec 1} {g : BitVec 3} {a : VReg} {n : BitVec 10} (hp : perStrand n.toNat = true)
    {s : State} {sk : Skein} (h : s.CanRun sk (.mts c g a n)) (hr : n.toNat = 0x010 → s.NoRequests) :
    goesTo (exec (.mts c g a n) s) (fun t =>
      s.StrandsDone t g.toNat (fun _ x => (x.writeSr n.toNat (x.rv a.toNat)).advance) ∧ s.OnlyStrands t) := by
  obtain ⟨hs, ho⟩ := State.putLanes_done h.1 (fun _ x => x.writeSr n.toNat (x.rv a.toNat))
    (f := fun _ => guarded g (fun x => .ok (x.writeSr n.toNat (x.rv a.toNat))))
    (fun _ _ => guarded_skip) (fun _ _ _ _ => guarded_act)
  refine ⟨_, State.word_of_body h ((if_neg fun hc => ?_).trans (if_pos hp)), ?_⟩
  · exact Bool.false_ne_true (((hr hc.1).not_rstFlying _).symm.trans hc.2)
  · rw [State.reportDenied_nil (ho.cur ▸ h.1.2.1)]
    exact ⟨fun k j => (State.strand?_count ..).trans (hs k j), ho.trans (ho.cur ▸ State.onlyStrands_count _ 0 1)⟩

/-! ### MTS of a register held by more strands (R77, R78, R256, R274, R328, R329; log 31) -/

/-- A shared register changes no strand, no byte of memory, and not the issue. -/
theorem State.writeSr_keeps (s : State) (sk : Skein) (n : Nat) (v : Word) :
    (s.writeSr sk n v).cur = s.cur ∧ (s.writeSr sk n v).homes = s.homes ∧
      ∀ k j, (s.writeSr sk n v).strand? k j = s.strand? k j := by
  have hskein (f : Skein → Skein) (hf : ∀ y, (f y).strands = y.strands) (k j : Nat) :
      (s.modSkein s.cur.skein f).strand? k j = s.strand? k j := by
    rw [State.strand?_modSkein]
    split_ifs
    · simp only [hf, State.strand?]
    · rfl
  unfold State.writeSr
  simp only
  split_ifs
  · exact ⟨rfl, rfl, fun k j => State.strand?_modWeft s _ _ k j _⟩
  · exact ⟨rfl, rfl, fun _ _ => rfl⟩
  · exact ⟨rfl, rfl, hskein _ (fun _ => rfl)⟩
  · exact ⟨rfl, rfl, fun _ _ => rfl⟩
  · exact ⟨rfl, rfl, fun _ _ => rfl⟩
  · exact ⟨rfl, rfl, fun _ _ => rfl⟩
  · exact ⟨rfl, rfl, hskein _ (fun _ => rfl)⟩
  · exact ⟨rfl, rfl, fun _ _ => rfl⟩
  · exact ⟨rfl, rfl, fun _ _ => rfl⟩

/-- The least number of a list is what its minimum finds. -/
theorem foldl_min_eq {i m : Nat} {l : List Nat} (hm : m ∈ i :: l) (hl : ∀ j ∈ i :: l, m ≤ j) : l.foldl Nat.min i = m :=
  Option.some.inj (List.min?_cons'.symm.trans (List.min?_eq_some_iff.mpr ⟨hm, hl⟩))

/-- Sending the issue set on changes strands alone, and counts. -/
theorem State.passBy_only (s : State) : s.OnlyStrands (s.passBy.count s.cur.skein 0 1) :=
  (s.onlyStrands_modStrands s.cur.strands (fun _ x => x.advance)).trans (State.onlyStrands_count s.passBy 0 1)

/-- An MTS of a shared register writes the value of the lowest strand that acts, and the issue set goes on. -/
theorem exec_mts_shared {c : BitVec 1} {g : BitVec 3} {a : VReg} {n : BitVec 10} (hp : perStrand n.toNat = false)
    {s : State} {sk : Skein} {i : Nat} {x : Strand} (h : s.CanRun sk (.mts c g a n)) (hi : i ∈ s.acting g)
    (hl : ∀ j ∈ s.acting g, i ≤ j) (hx : Tab.get sk.strands i = some x) :
    goesTo (exec (.mts c g a n) s) (fun t => s.StrandsDone t 7 (fun _ y => y.advance) ∧ t.homes = s.homes ∧
      (s.writeSr sk n.toNat (x.rv a.toNat)).OnlyStrands t) := by
  obtain ⟨hcur, hhomes, hs⟩ := s.writeSr_keeps sk n.toNat (x.rv a.toNat)
  have ho := (s.writeSr sk n.toNat (x.rv a.toNat)).passBy_only
  rw [hcur] at ho
  have hn : n.toNat ≠ 0x010 := fun hn => by rw [hn] at hp; cases hp
  refine ⟨_, State.word_of_body (u := (s.writeSr sk n.toNat (x.rv a.toNat)).passBy) h ?_, ?_⟩
  · refine (if_neg fun hc => hn hc.1).trans ((if_neg (by rw [hp]; exact Bool.false_ne_true)).trans ?_)
    cases hact : s.acting g with
    | nil => rw [hact] at hi; cases hi
    | cons j l =>
      rw [hact] at hi hl
      simp only [foldl_min_eq hi hl, hx]
  · rw [State.reportDenied_nil (s := (s.writeSr sk n.toNat (x.rv a.toNat)).passBy) (hcur ▸ h.1.2.1)]
    refine ⟨fun k j => ?_, ho.homes.trans hhomes, ho⟩
    rw [State.strand?_count, State.passBy, State.strand?_modStrands _ _ (hcur ▸ h.1.2.2.2.2.1), hcur, hs]
    simp

/-- The change of a context that a key register's write makes for core `c`. -/
def State.keyWrite (s : State) (c ctx key r : Nat) (x : Context) : Context :=
  { x with
    keys := Cells.set 0 x.keys key r
    keyWait := x.keyWait.filter (fun e => !(e.1 == c && e.2.1 == key)) ++
      ((((Tab.list s.skeins).filterMap (fun e => if e.2.ctx = ctx then e.2.core else none)).dedup).filter (· != c)).map
        (fun j => (j, key, Cells.get 0 x.keys key, s.clock + 1700)) }

theorem State.writeKey_eq (s : State) (c ctx key r : Nat) :
    s.writeKey c ctx key r = (s.modCtx ctx (s.keyWrite c ctx key r)).killContext c ctx := rfl

section
variable {s t : State} {sk : Skein}

/-- A field of the skein that a shared register writes. -/
theorem State.OnlyStrands.skein?_of_modSkein {f : Skein → Skein} (h : s.skein? s.cur.skein = some sk)
    (ho : (s.modSkein s.cur.skein f).OnlyStrands t) :
    ∃ y, t.skein? s.cur.skein = some y ∧ y = { f sk with strands := y.strands, pmc := y.pmc } :=
  ho.2.2.2 (f sk) (by rw [State.skein?_modSkein]; exact (if_pos rfl).trans (congrArg _ h))

theorem State.OnlyStrands.ctx? (ho : s.OnlyStrands t) (c : Nat) : t.ctx? c = s.ctx? c := by rw [ho.1]; rfl

theorem State.OnlyStrands.keyRights (ho : s.OnlyStrands t) (c ctx key : Nat) :
    t.keyRights c ctx key = s.keyRights c ctx key := by
  rw [State.keyRights, State.keyRights, ho.ctx?]

theorem perStrand_key (n : Fin 16) : perStrand (0x210 + n) = false := by
  rw [perStrand, decide_eq_false_iff_not]
  omega

theorem State.writeSr_key (s : State) (sk : Skein) (v : Word) (n : Fin 16) :
    s.writeSr sk (0x210 + n) v = s.writeKey (sk.core.getD 0) sk.ctx n (v.toNat % 4) := by
  fin_cases n <;> rfl

/-- The key as the writing core holds it, at once (R329). -/
theorem State.keyRights_writeKey (s : State) (c ctx key r : Nat) (h : (s.ctx? ctx).isSome = true) :
    (s.writeKey c ctx key r).keyRights c ctx key = r := by
  obtain ⟨x, hx⟩ := Option.isSome_iff_exists.mp h
  have hc := s.ctx?_modCtx ctx ctx (s.keyWrite c ctx key r)
  rw [if_pos rfl, hx, Option.map_some] at hc
  have hw : (s.keyWrite c ctx key r x).keyWait.find? (fun e => e.1 == c && e.2.1 == key) = none := by
    rw [List.find?_eq_none]
    intro e he
    rcases List.mem_append.mp he with he | he
    · simpa [imp_iff_not_or] using (List.mem_filter.mp he).2
    · obtain ⟨j, hj, rfl⟩ := List.mem_map.mp he
      have hne : j ≠ c := by simpa using (List.mem_filter.mp hj).2
      simp [hne]
  rw [State.writeKey_eq]
  change (s.modCtx ctx (s.keyWrite c ctx key r)).keyRights c ctx key = r
  simp only [State.keyRights, hc, hw]
  exact Cells.get_set_self ..

end

theorem bit_toNat {n : Nat} (x : BitVec n) (j : Nat) : bit x.toNat j = x.getLsbD j := by
  rw [bit, BitVec.getLsbD, Nat.testBit_eq_decide_div_mod_eq]
  rfl

/-- A write of WSTAT clears RESLICED where bit 4 is set, and does nothing else to the weft (R78). -/
theorem State.weft?_writeSr_wstat {s t : State} {sk : Skein} {v : Word} (h : s.Issuing sk)
    (ho : (s.writeSr sk 0x004 v).OnlyStrands t) : t.weft? s.cur.skein s.cur.weft =
      (s.weft? s.cur.skein s.cur.weft).map (fun w => if v.getLsbD 4 then { w with resliced := false } else w) := by
  change (if bit v.toNat 4 then s.modWeft s.cur.skein s.cur.weft (fun w => { w with resliced := false }) else s).OnlyStrands t at ho
  rw [bit_toNat] at ho
  cases hv : v.getLsbD 4 with
  | true =>
    rw [hv, if_pos rfl] at ho
    have hk := s.skein?_modSkein s.cur.skein s.cur.skein
      (fun y => { y with wefts := Tab.upd y.wefts s.cur.weft (fun w => { w with resliced := false }) })
    rw [if_pos rfl, h.1, Option.map_some] at hk
    exact (ho.weft? hk s.cur.weft).trans ((s.weft?_modWeft ..).trans (if_pos ⟨rfl, rfl⟩))
  | false =>
    rw [hv, if_neg Bool.false_ne_true] at ho
    exact (ho.weft? h.1 s.cur.weft).trans (Option.map_id' ..).symm

/-- Settles O17: a register held per strand takes each lane's value, a shared one the lowest lane's (log 31). -/
theorem specialRegisterWrites : Obligations.SpecialRegisterWrites := by
  unfold Obligations.SpecialRegisterWrites
  intro c g a each shared inSkein inCtx
  have perStrand_of (n : BitVec 10) (hp : perStrand n.toNat = true) (hn : n.toNat ≠ 0x010) :
      each n (fun v x => x.writeSr n.toNat v) :=
    fun s sk h => exec_mts_perStrand hp h (fun hc => absurd hc hn)
  have shared_of (n : BitVec 10) (hp : perStrand n.toNat = false) (eff : State → Skein → Word → State → Prop)
      (he : ∀ s sk v t, s.Issuing sk → (s.writeSr sk n.toNat v).OnlyStrands t → eff s sk v t) : shared n eff := by
    intro s sk i x h hi hl hx
    obtain ⟨t, ht, hs, hm, ho⟩ := exec_mts_shared hp h hi hl hx
    exact ⟨t, ht, hs, hm, he s sk _ t h.1 ho⟩
  have inSkein_of (n : BitVec 10) (hp : perStrand n.toNat = false) (f : Word → Skein → Skein)
      (hn : ∀ (s : State) sk v, s.writeSr sk n.toNat v = s.modSkein s.cur.skein (f v)) (p : Word → Skein → Skein → Prop)
      (hf : ∀ v sk y, y = { f v sk with strands := y.strands, pmc := y.pmc } → p v sk y) : shared n (inSkein p) :=
    shared_of n hp _ fun s sk v t h ho => by
      obtain ⟨y, hy, he⟩ := State.OnlyStrands.skein?_of_modSkein h.1 (hn s sk v ▸ ho)
      exact ⟨y, hy, hf v sk y he⟩
  have inCtx_of (n : BitVec 10) (hp : perStrand n.toNat = false) (f : Word → Context → Context)
      (hn : ∀ (s : State) sk v, s.writeSr sk n.toNat v = s.modCtx sk.ctx (f v)) : shared n (inCtx f) :=
    shared_of n hp _ fun s sk v t _ ho =>
      (ho.ctx? sk.ctx).trans (by rw [hn, State.ctx?_modCtx, if_pos rfl])
  refine ⟨?fpflags, ?fpmode, ?fptrapen, ?trapvec, ?tpc, ?tcause, ?tval, ?wstat, ?jtimeout, ?tolexp, ?abftinj, ?wdexp, ?dbgSel, ?keys⟩
  case fpflags => exact fun s sk h hr => exec_mts_perStrand rfl h (fun _ => hr)
  case fpmode => exact perStrand_of 0x011 rfl (by decide)
  case fptrapen => exact perStrand_of 0x012 rfl (by decide)
  case trapvec => exact perStrand_of 0x014 rfl (by decide)
  case tpc => exact perStrand_of 0x015 rfl (by decide)
  case tcause => exact perStrand_of 0x016 rfl (by decide)
  case tval => exact perStrand_of 0x017 rfl (by decide)
  case wstat => exact shared_of 0x004 rfl _ fun s sk v t h ho => State.weft?_writeSr_wstat h ho
  case jtimeout =>
    exact inSkein_of 0x020 rfl (fun v y => { y with jtimeout := jtField v.toNat }) (fun _ _ _ => rfl) _
      (fun v sk y hy => congrArg Skein.jtimeout hy)
  case tolexp => exact inCtx_of 0x208 rfl _ (fun _ _ _ => rfl)
  case abftinj =>
    refine shared_of 0x209 rfl (fun _ sk v t => (t.core (sk.core.getD 0)).abftinj = v &&& 0xBFFFFE00) (fun s sk v t _ ho => ?_)
    have hc := s.core_modCore (sk.core.getD 0) (sk.core.getD 0)
      (fun y => { y with abftinj := v &&& 0xBFFFFE00#32, abftSkein := s.cur.skein })
    exact (congrArg CoreSt.abftinj (ho.2.1 _)).trans (congrArg CoreSt.abftinj (hc.trans (if_pos rfl)))
  case wdexp => exact inCtx_of 0x20A rfl _ (fun _ _ _ => rfl)
  case dbgSel =>
    exact inSkein_of 0x220 rfl (fun v y => { y with dbgSel := v.toNat % 1024 }) (fun _ _ _ => rfl) _
      (fun v sk y hy => congrArg Skein.dbgSel hy)
  case keys =>
    intro n
    have hn := toNat_ofNat_add (b := 0x210) (by decide) n
    refine shared_of _ ((congrArg perStrand hn).trans (perStrand_key n)) (fun s sk v t => (s.ctx? sk.ctx).isSome = true →
      t.keyRights (sk.core.getD 0) sk.ctx n = v.toNat % 4) (fun s sk v t _ ho hc => ?_)
    rw [ho.keyRights, hn, State.writeSr_key, State.keyRights_writeKey _ _ _ _ _ hc]

end Sys2Proof.Machine
end

section
/-! The shapes of per-lane words (R33, R34, R42, R82): what an arm of each shape makes of its strands. -/

namespace Sys2Proof.Machine

variable {i : Instr} {g p : BitVec 3} {q : BitVec 1} {d a b : VReg}

/-! ### Words without traps -/

theorem RunsPerLane.of_arm (w : Skein → Word → Strand → Strand)
    (hi : ∀ s, exec i s = s.lanes i (fun sk _ => guarded g (fun x => .ok (w sk s.cur.k x)))) : RunsPerLane i g w := by
  intro s sk h
  rw [hi]
  exact State.lanes_guarded h g (fun sk _ x => w sk s.cur.k x)

/-- Results that agree make the same word. -/
theorem RunsPerLane.congr {w w' : Skein → Word → Strand → Strand} (h : RunsPerLane i g w')
    (hw : ∀ sk k x, w' sk k x = w sk k x) : RunsPerLane i g w :=
  (funext₃ hw : w' = w) ▸ h

theorem RunsUnary.of_arm {f f' : Word → Word} (hi : ∀ s, exec i s = s.lanes i (lane1 g d a f'))
    (hf : ∀ x, f' x = f x := by exact fun _ => rfl) : RunsUnary i g d a f :=
  (RunsPerLane.of_arm (fun _ _ x => x.wv d.toNat (f' (x.rv a.toNat))) hi).congr
    fun _ _ x => congrArg (x.wv d.toNat) (hf _)

theorem RunsBinary.of_arm {f f' : Word → Word → Word} (hi : ∀ s, exec i s = s.lanes i (lane2 s.cur.k g d a b f'))
    (hf : ∀ x y, f' x y = f x y := by exact fun _ _ => rfl) : RunsBinary i g d a b f :=
  (RunsPerLane.of_arm (fun _ k x => x.wv d.toNat (f' (x.rv a.toNat) (x.rb k b.toNat))) hi).congr
    fun _ _ x => congrArg (x.wv d.toNat) (hf _ _)

theorem RunsPerLane.of_pairs {f f' : Dword → Dword → Dword} (hi : ∀ s, exec i s = s.lanes i (lanePPP s.cur.k g d a b f'))
    (hf : ∀ x y, f' x y = f x y := by exact fun _ _ => rfl) :
    RunsPerLane i g (fun _ k x => x.wp d.toNat (f (x.rp a.toNat) (x.rbp k b.toNat))) :=
  (RunsPerLane.of_arm (fun _ k x => x.wp d.toNat (f' (x.rp a.toNat) (x.rbp k b.toNat))) hi).congr
    fun _ _ x => congrArg (x.wp d.toNat) (hf _ _)

theorem RunsPerLane.of_pair_word {f f' : Dword → Word → Dword} (hi : ∀ s, exec i s = s.lanes i (lanePPV s.cur.k g d a b f'))
    (hf : ∀ x y, f' x y = f x y := by exact fun _ _ => rfl) :
    RunsPerLane i g (fun _ k x => x.wp d.toNat (f (x.rp a.toNat) (x.rb k b.toNat))) :=
  (RunsPerLane.of_arm (fun _ k x => x.wp d.toNat (f' (x.rp a.toNat) (x.rb k b.toNat))) hi).congr
    fun _ _ x => congrArg (x.wp d.toNat) (hf _ _)

theorem RunsPerLane.of_words {f f' : Word → Word → Dword} (hi : ∀ s, exec i s = s.lanes i (lanePVV s.cur.k g d a b f'))
    (hf : ∀ x y, f' x y = f x y := by exact fun _ _ => rfl) :
    RunsPerLane i g (fun _ k x => x.wp d.toNat (f (x.rv a.toNat) (x.rb k b.toNat))) :=
  (RunsPerLane.of_arm (fun _ k x => x.wp d.toNat (f' (x.rv a.toNat) (x.rb k b.toNat))) hi).congr
    fun _ _ x => congrArg (x.wp d.toNat) (hf _ _)

theorem RunsPredicate.of_arm {f : Word → Strand → Bool} (hi : ∀ s, exec i s = s.lanes i (laneQ g p (f s.cur.k))) :
    RunsPredicate i g p f :=
  RunsPerLane.of_arm (fun _ k x => x.wpr p.toNat (f k x)) hi

theorem RunsPredicate.congr {f f' : Word → Strand → Bool} (h : RunsPredicate i g p f') (hf : ∀ k x, f' k x = f k x) :
    RunsPredicate i g p f :=
  (funext₂ hf : f' = f) ▸ h

/-! ### Floating words (R34) -/

/-- An arm that completes by R34 in each strand whose guard is true. -/
theorem RunsFloating.of_arm {w : Skein → Word → Strand → Strand} {fl : Skein → Word → Strand → FpFlags} {tval : Nat}
    (hw : ∀ sk k x, (w sk k x).fpflags = x.fpflags)
    (hi : ∀ s, exec i s = s.lanes i (fun sk _ => guarded g (fun x =>
      fpDone (q == 1) tval (fl sk s.cur.k x) (w sk s.cur.k x) x))) : RunsFloating i g q w fl := by
  intro s sk h hno
  have hact : ∀ j ∈ s.cur.strands, ∀ x, s.strand? s.cur.skein j = some x → x.rpr g.toNat = true → _ :=
    fun j hj x hx hg => fpDone_ok q tval (fl sk s.cur.k x) (w sk s.cur.k x) x (hno j hj x hx hg) (hw sk s.cur.k x) j
  obtain ⟨t, ht, ho, hs⟩ := State.lanes_done h (fun sk _ => guarded g (fun x =>
      fpDone (q == 1) tval (fl sk s.cur.k x) (w sk s.cur.k x) x)) (by
    intro j hj x hx
    cases hg : x.rpr g.toNat with
    | true => rw [guarded_act hg, (hact j hj x hx hg).1]
    | false => rw [guarded_skip hg]; rfl)
  refine ⟨t, (hi s).trans ht, fun k j => (hs k j).trans ?_, ho⟩
  split_ifs with hk
  · obtain ⟨rfl, hj⟩ := hk
    obtain ⟨x, hx⟩ := h.1.exists_strand hj
    rw [hx, Option.map_some, Option.map_some]
    cases hg : x.rpr g.toNat with
    | true => rw [guarded_act hg, (hact j hj x hx hg).2, if_pos rfl]
    | false => rw [guarded_skip hg, if_neg Bool.false_ne_true]; rfl
  · rfl

@[simp] theorem Strand.fpflags_wv (x : Strand) (r : Nat) (v : Word) : (x.wv r v).fpflags = x.fpflags := by
  rw [Strand.wv_eq]

@[simp] theorem Strand.fpflags_wpr (x : Strand) (r : Nat) (v : Bool) : (x.wpr r v).fpflags = x.fpflags := by
  unfold Strand.wpr
  split_ifs <;> rfl

theorem RunsFp.of_arm {f : FpCtx → Word → Strand → FpOut}
    (hi : ∀ s, exec i s = s.lanes i (laneF (q == 1) g d (fun m x => f m s.cur.k x))) : RunsFp i g q d f :=
  RunsFloating.of_arm (fun _ _ _ => Strand.fpflags_wv ..) hi

theorem RunsFp.congr {f f' : FpCtx → Word → Strand → FpOut} (h : RunsFp i g q d f') (hf : ∀ m k x, f' m k x = f m k x) :
    RunsFp i g q d f :=
  (funext₃ hf : f' = f) ▸ h

/-- A result that is given as a word. -/
theorem RunsFp.of_word {v : Strand → Word} {fl : Strand → FpFlags} (h : RunsFp i g q d (fun _ _ x => ⟨(v x).toNat, fl x⟩)) :
    RunsFloating i g q (fun _ _ x => x.wv d.toNat (v x)) (fun _ _ x => fl x) := by
  simpa only [RunsFp, BitVec.ofNat_toNat, BitVec.setWidth_eq] using h

end Sys2Proof.Machine
end

section
/-! Integer results (R87 to R93): each function of Machine/Flags.lean, by the operation that its rule names. -/

namespace Sys2Proof.Machine

/-! ### Products (R87, R89) -/

theorem wMul_eq (x y : Word) : wMul x y = x.signExtend 64 * y.signExtend 64 := BitVec.ofInt_mul ..

theorem wMulu_eq (x y : Word) : wMulu x y = x.setWidth 64 * y.setWidth 64 := by
  rw [wMulu, BitVec.ofNat_mul, BitVec.ofNat_toNat, BitVec.ofNat_toNat]

/-- The high word of a double word is its value divided by 2^32, rounded down. -/
theorem extractLsb'_high_ofInt (z : Int) : (BitVec.ofInt 64 z).extractLsb' 32 32 = BitVec.ofInt 32 (z / 4294967296) := by
  apply BitVec.eq_of_toNat_eq
  simp only [BitVec.extractLsb'_toNat, BitVec.toNat_ofInt, Nat.shiftRight_eq_div_pow]
  omega

theorem extractLsb'_high_ofNat (n : Nat) : (BitVec.ofNat 64 n).extractLsb' 32 32 = BitVec.ofNat 32 (n / 4294967296) := by
  apply BitVec.eq_of_toNat_eq
  simp only [BitVec.extractLsb'_toNat, BitVec.toNat_ofNat, Nat.shiftRight_eq_div_pow]
  omega

theorem intMulh_eq (x y : Word) : intMulh x y = (x.signExtend 64 * y.signExtend 64).extractLsb' 32 32 := by
  rw [← wMul_eq, wMul, extractLsb'_high_ofInt, intMulh]

theorem intMulhu_eq (x y : Word) : intMulhu x y = (x.setWidth 64 * y.setWidth 64).extractLsb' 32 32 := by
  rw [← wMulu_eq, wMulu, extractLsb'_high_ofNat, intMulhu]

/-! ### Shifts and rotations (R87, R89, R92) -/

theorem shAmt_eq (y : Word) : shAmt y = (y &&& 31).toNat := (Nat.and_two_pow_sub_one_eq_mod y.toNat 5).symm

theorem toNat_mod_64 (y : Word) : y.toNat % 64 = (y &&& 63).toNat := (Nat.and_two_pow_sub_one_eq_mod y.toNat 6).symm

theorem intShl_eq (x y : Word) : intShl x y = x <<< (y &&& 31) := by rw [intShl, shAmt_eq, BitVec.shiftLeft_eq']
theorem intShr_eq (x y : Word) : intShr x y = x >>> (y &&& 31) := by rw [intShr, shAmt_eq, BitVec.ushiftRight_eq']
theorem intSar_eq (x y : Word) : intSar x y = x.sshiftRight (y &&& 31).toNat := by rw [intSar, shAmt_eq]

theorem wShl_eq (x : Dword) (y : Word) : wShl x y = x <<< (y &&& 63) := by rw [wShl, toNat_mod_64, BitVec.shiftLeft_eq']
theorem wShr_eq (x : Dword) (y : Word) : wShr x y = x >>> (y &&& 63) := by rw [wShr, toNat_mod_64, BitVec.ushiftRight_eq']
theorem wSar_eq (x : Dword) (y : Word) : wSar x y = x.sshiftRight (y &&& 63).toNat := by rw [wSar, toNat_mod_64]

theorem intRoli_eq (x : Word) (n : BitVec 5) : intRoli x n = x <<< n.toNat ||| x >>> (32 - n.toNat) :=
  BitVec.rotateLeft_eq_rotateLeftAux_of_lt n.isLt

/-- ADDW and the LEA forms scale the zero-extended index (R89). -/
theorem wLea_eq (k : Nat) (x : Dword) (y : Word) : wLea k x y = x + y.setWidth 64 * BitVec.ofNat 64 k := by
  rw [wLea, BitVec.ofNat_mul, BitVec.ofNat_toNat]

/-! ### Saturation (R88) -/

theorem clampS32_eq (r : Int) : clampS32 r =
    if 2 ^ 31 ≤ r then 0x7FFFFFFF else if r < -2 ^ 31 then 0x80000000 else BitVec.ofInt 32 r := by
  unfold clampS32
  split_ifs with hi lo
  · rw [min_eq_left (by omega), max_eq_right (by decide)]; rfl
  · rw [min_eq_right (by omega), max_eq_left (by omega)]; rfl
  · rw [min_eq_right (by omega), max_eq_right (by omega)]

theorem intAddsat_eq (x y : Word) : intAddsat x y =
    let r := x.toInt + y.toInt
    if 2 ^ 31 ≤ r then 0x7FFFFFFF else if r < -2 ^ 31 then 0x80000000 else x + y := by
  rw [intAddsat, clampS32_eq, BitVec.ofInt_add, BitVec.ofInt_toInt, BitVec.ofInt_toInt]

theorem ofInt_toInt_sub (x y : Word) : BitVec.ofInt 32 (x.toInt - y.toInt) = x - y := by
  rw [Int.sub_eq_add_neg, BitVec.ofInt_add, BitVec.ofInt_neg, BitVec.ofInt_toInt, BitVec.ofInt_toInt, BitVec.sub_eq_add_neg]

theorem intSubsat_eq (x y : Word) : intSubsat x y =
    let r := x.toInt - y.toInt
    if 2 ^ 31 ≤ r then 0x7FFFFFFF else if r < -2 ^ 31 then 0x80000000 else x - y := by
  rw [intSubsat, clampS32_eq, ofInt_toInt_sub]

theorem intAddsatu_eq (x y : Word) : intAddsatu x y = if 2 ^ 32 ≤ x.toNat + y.toNat then 0xFFFFFFFF else x + y := by
  rw [intAddsatu, clampU32, max_eq_right (by omega)]
  split_ifs with h
  · rw [min_eq_left (by omega)]; rfl
  · rw [min_eq_right (by omega), BitVec.ofInt_add, BitVec.ofInt_natCast, BitVec.ofInt_natCast, BitVec.ofNat_toNat,
      BitVec.ofNat_toNat, BitVec.setWidth_eq, BitVec.setWidth_eq]

theorem intSubsatu_eq (x y : Word) : intSubsatu x y = if x.ult y then 0 else x - y := by
  rw [intSubsatu, clampU32, min_eq_right (by omega)]
  simp only [BitVec.ult_iff_toNat_lt]
  split_ifs with h
  · rw [max_eq_left (by omega)]; rfl
  · apply BitVec.eq_of_toNat_eq
    rw [max_eq_right (by omega), BitVec.toNat_ofInt, BitVec.toNat_sub_of_le (by bv_omega)]
    omega

/-! ### Division (R88) -/

theorem intDiv_eq (x y : Word) : intDiv x y = if y = 0 then 0xFFFFFFFF else x.sdiv y := by
  have h : BitVec.ofInt 32 (x.toInt.tdiv y.toInt) = x.sdiv y :=
    BitVec.eq_of_toInt_eq (by rw [BitVec.toInt_ofInt, BitVec.toInt_sdiv])
  rw [intDiv, h]
  rfl

theorem intDivu_eq (x y : Word) : intDivu x y = if y = 0 then 0xFFFFFFFF else x / y := by
  rw [intDivu, ← BitVec.toNat_udiv, BitVec.ofNat_toNat, BitVec.setWidth_eq]
  rfl

theorem intRem_eq (x y : Word) : intRem x y = if y = 0 then x else x.srem y := by
  rw [intRem, ← BitVec.toInt_srem, BitVec.ofInt_toInt]

theorem intRemu_eq (x y : Word) : intRemu x y = if y = 0 then x else x % y := by
  rw [intRemu, ← BitVec.toNat_umod, BitVec.ofNat_toNat, BitVec.setWidth_eq]

/-! ### Absolute values (R88) -/

theorem intAbs_eq (x : Word) : intAbs x = if x.msb then -x else x := by
  simp only [intAbs, BitVec.msb_eq_toInt, decide_eq_true_eq]

theorem intAbsdiff_eq (x y : Word) : intAbsdiff x y = BitVec.ofInt 32 |x.toInt - y.toInt| := by
  rw [intAbsdiff, Int.abs_eq_natAbs, BitVec.ofInt_natCast]

/-! ### Counts and reversal (R88) -/

theorem popCount_eq_countP (n x : Nat) : popCount n x = (List.range n).countP (fun j => x.testBit j) := by
  induction n generalizing x with
  | zero => rfl
  | succ n ih =>
    have hbit : x % 2 = if x.testBit 0 then 1 else 0 := by
      rw [Nat.testBit_zero]
      split_ifs with h <;> simp at h <;> omega
    rw [popCount, ih, List.range_succ_eq_map, List.countP_cons, List.countP_map, hbit, Nat.add_comm]
    simp only [Function.comp_def, Nat.testBit_succ]

theorem intPopc_eq (x : Word) : intPopc x = BitVec.ofNat 32 ((List.range 32).countP (fun j => x.getLsbD j)) := by
  rw [intPopc, popCount_eq_countP]
  rfl

/-- The numbers of a range before the first that fails. -/
theorem length_takeWhile_range {p : Nat → Bool} {n k : Nat} (hk : k ≤ n) (hp : ∀ j < k, p j = true) (hn : k < n → p k = false) :
    ((List.range n).takeWhile p).length = k := by
  obtain ⟨m, rfl⟩ := Nat.exists_eq_add_of_le hk
  rw [List.range_add, List.takeWhile_append_of_pos (by simpa using hp)]
  cases m with
  | zero => simp
  | succ m => simp [List.range_succ_eq_map, hn (by omega)]

theorem trailingZeros_eq (n x : Nat) : trailingZeros n x = ((List.range n).takeWhile (fun j => !x.testBit j)).length := by
  induction n generalizing x with
  | zero => rfl
  | succ n ih =>
    rw [trailingZeros, List.range_succ_eq_map, List.takeWhile_cons, Nat.testBit_zero]
    split_ifs with h h' h'
    · simp [h] at h'
    · rfl
    · rw [ih, List.length_cons, List.takeWhile_map, List.length_map, Nat.add_comm]
      simp only [Function.comp_def, Nat.testBit_succ]
    · simp [h] at h'

theorem intCtz_eq (x : Word) :
    intCtz x = BitVec.ofNat 32 ((List.range 32).takeWhile (fun j => !x.getLsbD j)).length := by
  rw [intCtz, trailingZeros_eq]
  rfl

/-- The bits above a number's length are clear, and the highest of its bits is set. -/
theorem testBit_of_bitLen_le {x j : Nat} (h : bitLen x ≤ j) : x.testBit j = false := by
  unfold bitLen at h
  split_ifs at h with hx
  · rw [hx, Nat.zero_testBit]
  · exact Nat.testBit_lt_two_pow ((Nat.log2_lt hx).mp h)

theorem testBit_bitLen_pred {x : Nat} (h : x ≠ 0) : x.testBit (bitLen x - 1) = true := by
  rw [bitLen, if_neg h]
  exact Nat.testBit_log2 h

theorem bitLen_le {x n : Nat} (h : x < 2 ^ n) : bitLen x ≤ n := by
  unfold bitLen
  split_ifs with hx
  · exact Nat.zero_le n
  · exact (Nat.log2_lt hx).mpr h

theorem intClz_eq (x : Word) :
    intClz x = BitVec.ofNat 32 ((List.range 32).takeWhile (fun j => !x.getLsbD (31 - j))).length := by
  have hlen := bitLen_le x.isLt
  rw [intClz, length_takeWhile_range (Nat.sub_le 32 (bitLen x.toNat)) (fun j hj => ?_) (fun hlt => ?_)]
  · rw [BitVec.getLsbD, testBit_of_bitLen_le (by omega), Bool.not_false]
  · have hx : x.toNat ≠ 0 := fun h => by simp [h, bitLen] at hlt
    rw [BitVec.getLsbD, show 31 - (32 - bitLen x.toNat) = bitLen x.toNat - 1 by omega, testBit_bitLen_pred hx, Bool.not_true]

theorem testBit_reverseBits (n x acc j : Nat) : (reverseBits n x acc).testBit j =
    if j < n then x.testBit (n - 1 - j) else acc.testBit (j - n) := by
  induction n generalizing x acc with
  | zero => simp [reverseBits]
  | succ n ih =>
    rw [reverseBits, ih]
    obtain hlt | rfl | hgt := lt_trichotomy j n
    · rw [if_pos hlt, if_pos (by omega), show n + 1 - 1 - j = n - 1 - j + 1 by omega, Nat.testBit_succ]
    · simp [Nat.testBit_zero]
    · rw [if_neg (by omega), if_neg (by omega), show j - n = j - (n + 1) + 1 by omega, Nat.testBit_succ,
        show (2 * acc + x % 2) / 2 = acc by omega]

theorem intBrev_eq (x : Word) : intBrev x = x.reverse := by
  refine BitVec.eq_of_getLsbD_eq fun j hj => ?_
  rw [BitVec.getLsbD_reverse, BitVec.getMsbD, intBrev, BitVec.getLsbD_ofNat, testBit_reverseBits, if_pos hj]
  rfl

end Sys2Proof.Machine
end

section
/-! Integer, immediate and predicate words (R87 to R97): each is an arm of one of the shapes, with its result. -/

namespace Sys2Proof.Machine

/-- Settles O3: each word's arm, and the rule of its result where the model computes it in another form. -/
theorem integerA : Obligations.IntegerA := by
  unfold Obligations.IntegerA
  intro c g d a b
  refine ⟨?add, ?sub, ?mul, ?mulh, ?mulhu, ?and, ?or, ?xor, ?andn, ?shl, ?shr, ?sar, ?min, ?max, ?minu, ?maxu⟩
  case add | sub | mul | and | or | xor | andn => exact .of_arm (fun _ => rfl)
  case mulh => exact .of_arm (fun _ => rfl) intMulh_eq
  case mulhu => exact .of_arm (fun _ => rfl) intMulhu_eq
  case shl => exact .of_arm (fun _ => rfl) intShl_eq
  case shr => exact .of_arm (fun _ => rfl) intShr_eq
  case sar => exact .of_arm (fun _ => rfl) intSar_eq
  case min => exact .of_arm (fun _ => rfl) intMin_eq
  case max => exact .of_arm (fun _ => rfl) intMax_eq
  case minu => exact .of_arm (fun _ => rfl) min_toNat_eq
  case maxu => exact .of_arm (fun _ => rfl) max_toNat_eq

/-- Settles O4: each word's arm, and the rule of its result. -/
theorem integerB : Obligations.IntegerB := by
  unfold Obligations.IntegerB
  intro c g d a b
  refine ⟨?addsat, ?subsat, ?addsatu, ?subsatu, ?div, ?divu, ?rem, ?remu, ?popc, ?clz, ?ctz, ?brev, ?abs, ?neg, ?absdiff⟩
  case addsat => exact .of_arm (fun _ => rfl) intAddsat_eq
  case subsat => exact .of_arm (fun _ => rfl) intSubsat_eq
  case addsatu => exact .of_arm (fun _ => rfl) intAddsatu_eq
  case subsatu => exact .of_arm (fun _ => rfl) intSubsatu_eq
  case div => exact .of_arm (fun _ => rfl) intDiv_eq
  case divu => exact .of_arm (fun _ => rfl) intDivu_eq
  case rem => exact .of_arm (fun _ => rfl) intRem_eq
  case remu => exact .of_arm (fun _ => rfl) intRemu_eq
  case popc => exact .of_arm (fun _ => rfl) intPopc_eq
  case clz => exact .of_arm (fun _ => rfl) intClz_eq
  case ctz => exact .of_arm (fun _ => rfl) intCtz_eq
  case brev => exact .of_arm (fun _ => rfl) intBrev_eq
  case abs => exact .of_arm (fun _ => rfl) intAbs_eq
  case neg => exact .of_arm (fun _ => rfl) BitVec.zero_sub
  case absdiff => exact .of_arm (fun _ => rfl) intAbsdiff_eq

/-- Settles O5: the 64-bit words by their sources' widths, and the immediate forms. -/
theorem wideAndImmediate : Obligations.WideAndImmediate := by
  unfold Obligations.WideAndImmediate
  intro c g d a b i n h pp pv vv
  have pp_of {w : Instr} {f f' : Dword → Dword → Dword} (hi : ∀ s, exec w s = s.lanes w (lanePPP s.cur.k g d a b f'))
      (hf : ∀ x y, f' x y = f x y := by exact fun _ _ => rfl) : pp w f := RunsPerLane.of_pairs hi hf
  have pv_of {w : Instr} {f f' : Dword → Word → Dword} (hi : ∀ s, exec w s = s.lanes w (lanePPV s.cur.k g d a b f'))
      (hf : ∀ x y, f' x y = f x y := by exact fun _ _ => rfl) : pv w f := RunsPerLane.of_pair_word hi hf
  have vv_of {w : Instr} {f f' : Word → Word → Dword} (hi : ∀ s, exec w s = s.lanes w (lanePVV s.cur.k g d a b f'))
      (hf : ∀ x y, f' x y = f x y) : vv w f := RunsPerLane.of_words hi hf
  clear_value pp pv vv
  refine ⟨?add64, ?sub64, ?shl64, ?shr64, ?sar64, ?mulw, ?mulwu, ?and64, ?or64, ?xor64, ?addw, ?addws, ?lea2, ?lea4, ?lea8,
    ?lea16, ?add64i, ?addi, ?andi, ?ori, ?xori, ?shli, ?shri, ?sari, ?roli, ?movi, ?movhi⟩
  case add64 | sub64 | and64 | or64 | xor64 => exact pp_of (fun _ => rfl)
  case shl64 => exact pv_of (fun _ => rfl) wShl_eq
  case shr64 => exact pv_of (fun _ => rfl) wShr_eq
  case sar64 => exact pv_of (fun _ => rfl) wSar_eq
  case addw => exact pv_of (fun _ => rfl) (fun x y => (wLea_eq 1 x y).trans (by rw [BitVec.mul_one]))
  case addws => exact pv_of (fun _ => rfl)
  case lea2 => exact pv_of (fun _ => rfl) (wLea_eq 2)
  case lea4 => exact pv_of (fun _ => rfl) (wLea_eq 4)
  case lea8 => exact pv_of (fun _ => rfl) (wLea_eq 8)
  case lea16 => exact pv_of (fun _ => rfl) (wLea_eq 16)
  case mulw => exact vv_of (fun _ => rfl) wMul_eq
  case mulwu => exact vv_of (fun _ => rfl) wMulu_eq
  case add64i => exact .of_arm (fun _ _ x => x.wp d.toNat (x.rp a.toNat + i.signExtend 64)) (fun _ => rfl)
  case addi | andi | ori | xori | shli | shri | sari => exact .of_arm (fun _ => rfl)
  case roli => exact .of_arm (fun _ => rfl) (fun x => intRoli_eq x n)
  case movi => exact .of_arm (fun _ _ x => x.wv d.toNat (h.signExtend 32)) (fun _ => rfl)
  case movhi => exact .of_arm (fun _ _ x => x.wv d.toNat (h ++ (x.rv d.toNat).setWidth 16)) (fun _ => rfl)

/-- ICMP's condition, by the comparisons of bit vectors (R94). -/
theorem icmpCond_eq (f : Nat) (y z : Word) : icmpCond f y z =
    (match f with
      | 0 => y = z
      | 1 => y ≠ z
      | 2 => y.slt z
      | 3 => y.sle z
      | 4 => z.slt y
      | 5 => z.sle y
      | 6 => y.ult z
      | 7 => y.ule z
      | 8 => z.ult y
      | 9 => z.ule y
      | 10 => y &&& z ≠ 0
      | _ => y &&& z = 0 : Bool) := by
  unfold icmpCond
  split <;> simp [BitVec.slt, BitVec.sle, BitVec.ult, BitVec.ule, bne, Bool.beq_eq_decide_eq]

/-- Settles O6: FCMP completes by R34, SEL's selector guards nothing, the others are predicate words. -/
theorem predicates : Obligations.Predicates := by
  unfold Obligations.Predicates
  intro c q g p u v k d a b f h
  refine ⟨?icmp, ?fcmp, ?sel, ?pand, ?por, ?pxor, ?pandn, ?pnot, ?pmov, ?ptov, ?vtop⟩
  case icmp =>
    refine .congr (f' := fun kk x => combine k.toNat (x.rpr p.toNat) (icmpCond f.toNat (x.rv a.toNat) (x.rb kk b.toNat)))
      (.of_arm (fun _ => rfl)) (fun kk x => ?_)
    rw [icmpCond_eq]
    rfl
  case fcmp => exact .of_arm (fun _ _ _ => Strand.fpflags_wpr ..) (fun _ => rfl)
  case sel =>
    exact .of_arm (fun _ kk x => x.wv d.toNat (if x.rpr g.toNat then x.rv a.toNat else x.rb kk b.toNat)) (fun _ => rfl)
  case pand | por | pxor | pandn | pnot | pmov | vtop => exact .of_arm (fun _ => rfl)
  case ptov => exact .of_arm (fun _ _ x => x.wv d.toNat (if x.rpr u.toNat then 1 else 0)) (fun _ => rfl)

end Sys2Proof.Machine
end

section
/-! FCMP (R16, R95): the values that FP32 words encode are ordered as their encodings are, each with its sign. -/

namespace Sys2Proof.Machine

/-! ### FP32 words -/

/-- The magnitude that an FP32 encoding without its sign stands for, in units of the smallest subnormal; infinity takes
the place of the next power of two. -/
def fpMag (n : Nat) : Nat := (if n / 2 ^ 23 = 0 then n % 2 ^ 23 else 2 ^ 23 + n % 2 ^ 23) * 2 ^ (n / 2 ^ 23 - 1)

/-- The encoding without its sign. -/
def fpEnc (w : Word) : Nat := w.toNat % 2 ^ 31

/-- The encoding without its sign, read with the sign. -/
def fpKey (w : Word) : Int := if w.msb then -(fpEnc w : Int) else fpEnc w

theorem toNat_and_7FFFFFFF (w : Word) : (w &&& 0x7FFFFFFF).toNat = fpEnc w := Nat.and_two_pow_sub_one_eq_mod w.toNat 31

theorem fpMag_lt_succ (n : Nat) : fpMag n < fpMag (n + 1) := by
  unfold fpMag
  by_cases hwrap : (n + 1) % 2 ^ 23 = 0
  · have hfr : n % 2 ^ 23 = 2 ^ 23 - 1 := by omega
    have hex : (n + 1) / 2 ^ 23 = n / 2 ^ 23 + 1 := by omega
    rw [hwrap, hex, hfr]
    cases n / 2 ^ 23 with
    | zero => decide
    | succ e =>
      rw [if_neg (by omega), if_neg (by omega), Nat.add_sub_cancel, Nat.add_sub_cancel, Nat.pow_succ 2 e]
      have : 0 < 2 ^ e := Nat.two_pow_pos e
      omega
  · have hex : (n + 1) / 2 ^ 23 = n / 2 ^ 23 := by omega
    have hfr : (n + 1) % 2 ^ 23 = n % 2 ^ 23 + 1 := by omega
    rw [hex, hfr]
    exact Nat.mul_lt_mul_of_pos_right (by split_ifs <;> omega) (Nat.two_pow_pos _)

theorem fpMag_strictMono : StrictMono fpMag := strictMono_nat_of_lt_succ fpMag_lt_succ

/-- An encoding of a format with infinities, by its exponent field (R15). -/
theorem Fmt.decode_ieee {f : Fmt} (hf : f.ieee = true) (x : Nat) : f.decode x =
    if x / 2 ^ f.fbits % 2 ^ f.ebits = 2 ^ f.ebits - 1 then
      if x % 2 ^ f.fbits = 0 then .inf (x / f.signBit % 2 == 1)
      else .nan (x / f.signBit % 2 == 1) (x % 2 ^ f.fbits) f.fbits (decide (x % 2 ^ f.fbits < 2 ^ (f.fbits - 1))) true
    else if x / 2 ^ f.fbits % 2 ^ f.ebits = 0 then .fin (x / f.signBit % 2 == 1) (x % 2 ^ f.fbits) f.qmin
    else .fin (x / f.signBit % 2 == 1) (2 ^ f.fbits + x % 2 ^ f.fbits)
      (((x / 2 ^ f.fbits % 2 ^ f.ebits : Nat) : Int) - 1 + f.qmin) := by
  dsimp only [Fmt.decode]
  by_cases he : x / 2 ^ f.fbits % 2 ^ f.ebits = 2 ^ f.ebits - 1
  · rw [if_pos ⟨hf, he⟩, if_pos he]
  · rw [if_neg (fun h => he h.2), if_neg (fun h => h.1 hf), if_neg he]

/-- What an FP32 word decodes to, by its exponent field. -/
theorem fp32_decode (w : Word) : Fmt.fp32.decode w.toNat =
    if fpEnc w / 2 ^ 23 = 255 then
      if fpEnc w % 2 ^ 23 = 0 then .inf w.msb
      else .nan w.msb (fpEnc w % 2 ^ 23) 23 (decide (fpEnc w % 2 ^ 23 < 2 ^ 22)) true
    else if fpEnc w / 2 ^ 23 = 0 then .fin w.msb (fpEnc w % 2 ^ 23) (-149)
    else .fin w.msb (2 ^ 23 + fpEnc w % 2 ^ 23) (((fpEnc w / 2 ^ 23 : Nat) : Int) - 1 + -149) := by
  have hlt := w.isLt
  have hneg : (w.toNat / 2 ^ 31 % 2 == 1) = w.msb := by
    rw [BitVec.msb_eq_decide, beq_eq_decide]
    exact decide_eq_decide.mpr (by omega)
  have hex : w.toNat / 2 ^ 23 % 2 ^ 8 = fpEnc w / 2 ^ 23 := by unfold fpEnc; omega
  have hfr : w.toNat % 2 ^ 23 = fpEnc w % 2 ^ 23 := by unfold fpEnc; omega
  rw [← hneg, ← hex, ← hfr]
  exact Fmt.decode_ieee rfl w.toNat

/-! ### Finite words, infinities and NaNs -/

/-- A finite value in units of the smallest subnormal. -/
def fpUnits (w : Word) : Int := if w.msb then -(fpMag (fpEnc w) : Int) else fpMag (fpEnc w)

theorem fp32_decode_fin {w : Word} (h : fpEnc w < 0x7F800000) : ∃ m e, Fmt.fp32.decode w.toNat = .fin w.msb m e ∧ -149 ≤ e ∧
    unitsAt w.msb m e (-149) = fpUnits w := by
  rw [fp32_decode, if_neg (by omega), fpUnits, fpMag]
  by_cases hex : fpEnc w / 2 ^ 23 = 0
  · rw [if_pos hex, if_pos hex, hex]
    exact ⟨_, _, rfl, le_rfl, rfl⟩
  · rw [if_neg hex, if_neg hex]
    refine ⟨_, _, rfl, by omega, ?_⟩
    rw [unitsAt, show (((fpEnc w / 2 ^ 23 : Nat) : Int) - 1 + -149 - -149).toNat = fpEnc w / 2 ^ 23 - 1 by omega]

theorem fp32_decode_inf {w : Word} (h : fpEnc w = 0x7F800000) : Fmt.fp32.decode w.toNat = .inf w.msb := by
  rw [fp32_decode, h]
  rfl

theorem fp32_decode_nan {w : Word} (h : 0x7F800000 < fpEnc w) : Fmt.fp32.decode w.toNat =
    .nan w.msb (fpEnc w % 2 ^ 23) 23 (decide (fpEnc w % 2 ^ 23 < 2 ^ 22)) true := by
  have hlt : fpEnc w < 2 ^ 31 := Nat.mod_lt _ (by decide)
  rw [fp32_decode, if_pos (by omega), if_neg (by omega)]

theorem fp32_isNan (w : Word) : (Fmt.fp32.decode w.toNat).isNan = decide (0x7F800000 < fpEnc w) := by
  obtain h | h | h := lt_trichotomy (fpEnc w) 0x7F800000
  · obtain ⟨m, e, hd, -⟩ := fp32_decode_fin h
    simp [hd, FpVal.isNan, h.le]
  · simp [fp32_decode_inf h, FpVal.isNan, h]
  · simp [fp32_decode_nan h, FpVal.isNan, h]

theorem fp32_isSignalling (w : Word) : (Fmt.fp32.decode w.toNat).isSignalling =
    (decide (0x7F800000 < fpEnc w) && !w.getLsbD 22) := by
  obtain h | h | h := lt_trichotomy (fpEnc w) 0x7F800000
  · obtain ⟨m, e, hd, -⟩ := fp32_decode_fin h
    simp [hd, FpVal.isSignalling, h.le]
  · simp [fp32_decode_inf h, FpVal.isSignalling, h]
  · rw [fp32_decode_nan h, FpVal.isSignalling, decide_eq_true h, Bool.true_and, BitVec.getLsbD, Nat.testBit_eq_decide_div_mod_eq,
      ← decide_not]
    exact decide_eq_decide.mpr (by unfold fpEnc; omega)

/-! ### Order (R95) -/

theorem unitsAt_eq_mul (s : Bool) (m : Nat) {e q q' : Int} (hq : q' ≤ q) (he : q ≤ e) :
    unitsAt s m e q' = unitsAt s m e q * 2 ^ (q - q').toNat := by
  have h : (e - q').toNat = (e - q).toNat + (q - q').toNat := by omega
  cases s <;> simp [unitsAt, h, pow_add, mul_assoc]

/-- Finite values compare in any common unit. -/
theorem FpVal.lt_fin (s s' : Bool) (m m' : Nat) {e e' q : Int} (h : q ≤ e) (h' : q ≤ e') :
    (FpVal.fin s m e).lt (.fin s' m' e') = decide (unitsAt s m e q < unitsAt s' m' e' q) := by
  rw [FpVal.lt, unitsAt_eq_mul s m (le_min h h') (min_le_left e e'), unitsAt_eq_mul s' m' (le_min h h') (min_le_right e e')]
  exact decide_eq_decide.mpr (Int.mul_lt_mul_right (by positivity)).symm

theorem FpVal.lt_fin_inf (s s' : Bool) (m : Nat) (e : Int) : (FpVal.fin s m e).lt (.inf s') = !s' := rfl
theorem FpVal.lt_inf_fin (s s' : Bool) (m : Nat) (e : Int) : (FpVal.inf s).lt (.fin s' m e) = s := rfl

/-- The values of FP32 words are ordered as their encodings are; both zeros have key 0. -/
theorem fpUnits_lt_iff (x y : Word) : fpUnits x < fpUnits y ↔ fpKey x < fpKey y := by
  have hxy := fpMag_strictMono.lt_iff_lt (a := fpEnc x) (b := fpEnc y)
  have hyx := fpMag_strictMono.lt_iff_lt (a := fpEnc y) (b := fpEnc x)
  have hx := fpMag_strictMono.lt_iff_lt (a := 0) (b := fpEnc x)
  have hy := fpMag_strictMono.lt_iff_lt (a := 0) (b := fpEnc y)
  rw [show fpMag 0 = 0 from rfl] at hx hy
  unfold fpUnits fpKey
  split_ifs <;> omega

/-- A finite key lies between those of the infinities. -/
theorem fpKey_fin {w : Word} (h : fpEnc w < 0x7F800000) : -0x7F800000 < fpKey w ∧ fpKey w < 0x7F800000 := by
  unfold fpKey
  split_ifs <;> omega

theorem fpKey_inf {w : Word} (h : fpEnc w = 0x7F800000) : fpKey w = if w.msb then -0x7F800000 else 0x7F800000 := by
  rw [fpKey, h]
  rfl

theorem fp32_lt {x y : Word} (hx : fpEnc x ≤ 0x7F800000) (hy : fpEnc y ≤ 0x7F800000) :
    (Fmt.fp32.decode x.toNat).lt (Fmt.fp32.decode y.toNat) = decide (fpKey x < fpKey y) := by
  rcases hx.lt_or_eq with hxf | hxi <;> rcases hy.lt_or_eq with hyf | hyi
  · obtain ⟨m, e, hd, he, hu⟩ := fp32_decode_fin hxf
    obtain ⟨m', e', hd', he', hu'⟩ := fp32_decode_fin hyf
    rw [hd, hd', FpVal.lt_fin _ _ _ _ he he', hu, hu']
    exact decide_eq_decide.mpr (fpUnits_lt_iff x y)
  · obtain ⟨m, e, hd, -⟩ := fp32_decode_fin hxf
    rw [hd, fp32_decode_inf hyi, FpVal.lt_fin_inf, fpKey_inf hyi]
    cases y.msb with
    | true => exact (decide_eq_false (fpKey_fin hxf).1.not_gt).symm
    | false => exact (decide_eq_true (fpKey_fin hxf).2).symm
  · obtain ⟨m, e, hd, -⟩ := fp32_decode_fin hyf
    rw [hd, fp32_decode_inf hxi, FpVal.lt_inf_fin, fpKey_inf hxi]
    cases x.msb with
    | true => exact (decide_eq_true (fpKey_fin hyf).1).symm
    | false => exact (decide_eq_false (fpKey_fin hyf).2.not_gt).symm
  · rw [fp32_decode_inf hxi, fp32_decode_inf hyi, FpVal.lt, fpKey_inf hxi, fpKey_inf hyi]
    cases x.msb <;> cases y.msb <;> rfl

/-! ### FCMP (R95) -/

/-- With a NaN operand the unordered condition and NE hold, and no other. -/
theorem fcmpCond_unordered {x y : Word} (h : Nat)
    (hun : (decide (0x7F800000 < fpEnc x) || decide (0x7F800000 < fpEnc y)) = true) :
    (fcmpCond h x y).1 = (match h with
      | 1 => true
      | 6 => true
      | _ => false) := by
  simp only [fcmpCond, fp32_isNan, hun]
  split <;> simp

/-- Without one, the conditions compare the keys. -/
theorem fcmpCond_ordered {x y : Word} (h : Nat) (hx : fpEnc x ≤ 0x7F800000) (hy : fpEnc y ≤ 0x7F800000) :
    (fcmpCond h x y).1 = (match h with
      | 0 => decide (fpKey x = fpKey y)
      | 1 => decide (fpKey x ≠ fpKey y)
      | 2 => decide (fpKey x < fpKey y)
      | 3 => decide (fpKey x ≤ fpKey y)
      | 4 => decide (fpKey y < fpKey x)
      | 5 => decide (fpKey y ≤ fpKey x)
      | 6 => false
      | _ => true) := by
  have heq : (!decide (fpKey x < fpKey y) && !decide (fpKey y < fpKey x)) = decide (fpKey x = fpKey y) := by
    rw [← decide_not, ← decide_not, ← Bool.decide_and]
    exact decide_eq_decide.mpr (by omega)
  simp only [fcmpCond, fp32_isNan, decide_eq_false hx.not_gt, decide_eq_false hy.not_gt, fp32_lt hx hy, fp32_lt hy hx, heq]
  split <;> simp [le_iff_lt_or_eq, eq_comm]

theorem fcmpCond_flags (h : Nat) (x y : Word) : (fcmpCond h x y).2 =
    if (if 2 ≤ h ∧ h ≤ 5 then decide (0x7F800000 < fpEnc x) || decide (0x7F800000 < fpEnc y)
      else (decide (0x7F800000 < fpEnc x) && !x.getLsbD 22) || (decide (0x7F800000 < fpEnc y) && !y.getLsbD 22)) = true
    then fNV else 0 := by
  rw [← fp32_isSignalling, ← fp32_isSignalling, ← fp32_isNan, ← fp32_isNan]
  rfl

/-- Settles O7: the conditions without and with a NaN operand, and the flags. -/
theorem floatComparison : Obligations.FloatComparison := by
  unfold Obligations.FloatComparison
  intro h x y hh nan signalling key un
  have hnan (w : Word) : nan w = decide (0x7F800000 < fpEnc w) := by
    change ((w &&& 0x7FFFFFFF).ult 0x7F800001 == false) = _
    rw [BitVec.ult, toNat_and_7FFFFFFF, beq_false, ← decide_not]
    exact decide_eq_decide.mpr Nat.not_lt
  have hsig (w : Word) : signalling w = (decide (0x7F800000 < fpEnc w) && !w.getLsbD 22) := congrArg (· && _) (hnan w)
  have hkey (w : Word) : key w = fpKey w := by
    change (if w.msb then -((w &&& 0x7FFFFFFF).toNat : Int) else (w.toNat : Int)) = _
    rw [toNat_and_7FFFFFFF, fpKey]
    split_ifs with hs
    · rfl
    · rw [BitVec.msb_eq_decide, decide_eq_true_eq] at hs
      exact congrArg _ (Nat.mod_eq_of_lt (by omega)).symm
  have hun : un = (decide (0x7F800000 < fpEnc x) || decide (0x7F800000 < fpEnc y)) := congrArg₂ (· || ·) (hnan x) (hnan y)
  simp only [hsig, hkey]
  clear_value un
  refine Prod.ext ?cond ?flags
  case cond =>
    cases un with
    | true =>
      rw [fcmpCond_unordered h hun.symm]
      interval_cases h <;> rfl
    | false =>
      have hle := hun.symm
      rw [Bool.or_eq_false_iff, decide_eq_false_iff_not, decide_eq_false_iff_not, not_lt, not_lt] at hle
      rw [fcmpCond_ordered h hle.1 hle.2]
      interval_cases h <;> rfl
  case flags =>
    have hx (hs : (decide (0x7F800000 < fpEnc x) && !x.getLsbD 22) = true) : un = true := by
      rw [hun, (Bool.and_eq_true_iff.mp hs).1, Bool.true_or]
    have hy (hs : (decide (0x7F800000 < fpEnc y) && !y.getLsbD 22) = true) : un = true := by
      rw [hun, (Bool.and_eq_true_iff.mp hs).1, Bool.or_true]
    rw [fcmpCond_flags, ← hun]
    refine if_congr ?_ rfl rfl
    split_ifs with ho
    · exact ⟨fun hu => .inl ⟨ho.1, ho.2, hu⟩, fun hu => hu.elim (fun hu => hu.2.2) (fun hs => hs.elim hx hy)⟩
    · rw [Bool.or_eq_true_iff]
      exact ⟨.inr, fun hu => hu.resolve_left (fun hu => ho ⟨hu.1, hu.2.1⟩)⟩

end Sys2Proof.Machine
end

section
/-! Floating words (R98 to R107): each is an arm of the floating shape, with its result. -/

namespace Sys2Proof.Machine

/-- FCOPYSIGN (R99): the sign of B above the magnitude of A. -/
theorem and_or_and_eq_append (x y : Word) :
    x &&& 0x7FFFFFFF#32 ||| y &&& 0x80000000#32 = y.extractLsb' 31 1 ++ x.setWidth 31 := by
  refine BitVec.eq_of_getLsbD_eq fun j hj => ?_
  rw [BitVec.getLsbD_append, BitVec.getLsbD_or, BitVec.getLsbD_and, BitVec.getLsbD_and]
  by_cases hs : j < 31
  · have hm : (0x7FFFFFFF#32).getLsbD j = true := by interval_cases j <;> rfl
    have hn : (0x80000000#32).getLsbD j = false := by interval_cases j <;> rfl
    simp [hs, hm, hn]
  · obtain rfl : j = 31 := by omega
    simp

/-- Settles O9: FCOPYSIGN is an integer word of two sources, the others complete by R34. -/
theorem floatArithmetic : Obligations.FloatArithmetic := by
  unfold Obligations.FloatArithmetic
  intro c q g d a b two fused
  refine ⟨?fadd, ?fsub, ?fmul, ?fdiv, ?fmin, ?fmax, ?fcopysign, ?fscale, ?fma, ?fms, ?fnma, ?fnms⟩
  case fadd | fsub | fmul | fdiv | fmin | fmax | fscale | fma | fms | fnma | fnms => exact RunsFp.of_arm (fun _ => rfl)
  case fcopysign => exact .of_arm (fun _ => rfl) and_or_and_eq_append

/-- Settles O10: each word completes by R34, with the result of its function. -/
theorem floatFunctionsAndHalves : Obligations.FloatFunctionsAndHalves := by
  unfold Obligations.FloatFunctionsAndHalves
  intro c q y g d a b one half
  refine ⟨?rcp, ?rsq, ?sqrt, ?exp2, ?log2, ?sinpi, ?cospi, ?tanh, ?hadd, ?hsub, ?hmul, ?hfma⟩
  case rcp | rsq | sqrt | exp2 | log2 | sinpi | cospi | tanh => exact RunsFp.of_arm (fun _ => rfl)
  case hadd | hsub | hmul | hfma => exact RunsFp.of_arm (fun _ => rfl)

/-! ### Conversions (R104 to R107) -/

/-- An element of a packed word. -/
theorem bits_element (x : Word) (lo n : Nat) (hn : 0 < n) : bits x.toNat (lo + (n - 1)) lo = ((x >>> lo).setWidth n).toNat := by
  rw [bits, BitVec.toNat_setWidth, BitVec.toNat_ushiftRight, Nat.shiftRight_eq_div_pow, show lo + (n - 1) + 1 - lo = n by omega]

/-- Settles O11: they complete by R34 with Q = 0; PK8 and PK4 replace one element of d, XT8 and XT4 read one of A. -/
theorem conversions : Obligations.Conversions := by
  unfold Obligations.Conversions
  intro c e z g d a b k2 k3 one fmt
  refine ⟨?ftoi, ?ftoiz, ?ftou, ?itof, ?utof, ?pkh, ?pkb, ?xthl, ?xthh, ?xtbl, ?xtbh, ?frnd, ?frndz, ?pk8, ?xt8, ?pk4, ?xt4⟩
  case ftoi | ftoiz | ftou | utof | pkh | pkb | xthl | xthh | xtbl | xtbh | frnd | frndz => exact RunsFp.of_arm (fun _ => rfl)
  case itof =>
    refine RunsFp.congr (f' := fun m _ x =>
      ftz32 m (Fmt.fp32.round m.rm (decide ((x.rv a.toNat).toInt < 0)) (x.rv a.toNat).toInt.natAbs 0 false))
      (.of_arm (fun _ => rfl)) (fun m _ x => ?_)
    simp only [BitVec.msb_eq_toInt]
  case pk8 | pk4 => exact RunsFp.of_word (.of_arm (fun _ => rfl))
  case xt8 =>
    refine RunsFp.congr (f' := fun m _ x => ftz32 m (fromFp8 fmt m (bits (x.rv a.toNat).toNat (8 * k2.toNat + 7) (8 * k2.toNat))))
      (.of_arm (fun _ => rfl)) (fun m _ x => ?_)
    rw [bits_element _ _ 8 (by decide)]
  case xt4 => exact .of_arm (fun _ => rfl) (fun x => by rw [bits_element x _ 4 (by decide)])

end Sys2Proof.Machine
end

section
/-! What holds of a table when a strand or weft of it comes back to what it was, and which records a table lists (R129). -/

namespace Sys2Proof.Machine

/-! ### Canonical maps -/

section
variable {α : Type} [DecidableEq α] {d : α}

theorem Cells.get_of_lt {m : Cells α} {lo a : Nat} (h : Cells.wfFrom d lo m = true) (ha : a < lo) : Cells.get d m a = d := by
  cases m with
  | nil => rfl
  | cons e t =>
    obtain ⟨k, v⟩ := e
    simp only [Cells.wfFrom, Bool.and_eq_true, decide_eq_true_eq] at h
    rw [Cells.get, if_pos (ha.trans_le h.1.1)]

/-- Maps in canonical form that read alike are one map. -/
theorem Cells.ext {m m' : Cells α} {lo : Nat} (h : Cells.wfFrom d lo m = true) (h' : Cells.wfFrom d lo m' = true)
    (hget : ∀ a, Cells.get d m a = Cells.get d m' a) : m = m' := by
  have hhead {k : Nat} {v : α} {t n : Cells α} (hv : v ≠ d) (hn : Cells.wfFrom d (k + 1) n = true)
      (hg : Cells.get d ((k, v) :: t) k = Cells.get d n k) : False := by
    rw [Cells.get_of_lt hn k.lt_succ_self] at hg
    exact hv (by simpa [Cells.get] using hg)
  induction m generalizing m' lo with
  | nil =>
    cases m' with
    | nil => rfl
    | cons e t =>
      simp only [Cells.wfFrom, Bool.and_eq_true, decide_eq_true_eq] at h'
      exact (hhead h'.1.2 (n := []) rfl (hget e.1).symm).elim
  | cons e t ih =>
    obtain ⟨k, v⟩ := e
    simp only [Cells.wfFrom, Bool.and_eq_true, decide_eq_true_eq] at h
    obtain ⟨⟨hk, hv⟩, ht⟩ := h
    cases m' with
    | nil => exact (hhead hv (n := []) rfl (hget k)).elim
    | cons e' t' =>
      obtain ⟨k', v'⟩ := e'
      simp only [Cells.wfFrom, Bool.and_eq_true, decide_eq_true_eq] at h'
      obtain ⟨⟨hk', hv'⟩, ht'⟩ := h'
      obtain hlt | rfl | hlt := lt_trichotomy k k'
      · exact (hhead hv (n := (k', v') :: t') (by simp [Cells.wfFrom, hv', ht']; omega) (hget k)).elim
      · have hvv : v = v' := by simpa [Cells.get] using hget k
        rw [hvv, ih ht ht' fun a => ?_]
        have ha := hget a
        rcases lt_or_ge k a with hlt | hle
        · simpa [Cells.get, hlt.not_gt, hlt.ne'] using ha
        · rw [Cells.get_of_lt ht (Nat.lt_succ_of_le hle), Cells.get_of_lt ht' (Nat.lt_succ_of_le hle)]
      · exact (hhead hv' (n := (k, v) :: t) (by simp [Cells.wfFrom, hv, ht]; omega) (hget k').symm).elim

/-- Writing what a key holds already changes nothing. -/
theorem Cells.set_of_get {m : Cells α} {a : Nat} {v : α} (hv : v ≠ d) (h : Cells.get d m a = v) : Cells.set d m a v = m := by
  induction m with
  | nil => exact absurd h.symm hv
  | cons e t ih =>
    obtain ⟨k, w⟩ := e
    rw [Cells.get] at h
    rw [Cells.set]
    split_ifs at h ⊢ with h1 h2
    · exact absurd h.symm hv
    · rw [h, h2]
    · rw [ih h]

/-- A later write of the same key replaces the earlier one. -/
theorem Cells.set_set {m : Cells α} {a : Nat} {v w : α} (hv : v ≠ d) (hw : w ≠ d) :
    Cells.set d (Cells.set d m a v) a w = Cells.set d m a w := by
  induction m with
  | nil => simp [Cells.set, hv, hw]
  | cons e t ih =>
    obtain ⟨k, x⟩ := e
    by_cases h1 : a < k
    · simp [Cells.set, h1, hv, hw]
    · by_cases h2 : a = k
      · simp [Cells.set, h2, hv, hw]
      · simp [Cells.set, h1, h2, ih]

end

/-! ### Records of a table -/

theorem Tab.mem_list {α : Type} {t : Tab α} {k : Nat} {v : α} : (k, v) ∈ Tab.list t ↔ (k, some v) ∈ t := by
  simp only [Tab.list, List.mem_filterMap, Prod.exists, Option.map_eq_some_iff, Prod.mk.injEq]
  constructor
  · rintro ⟨a, b, hm, x, rfl, rfl, rfl⟩
    exact hm
  · intro h
    exact ⟨k, some v, h, v, rfl, rfl, rfl⟩

section
variable {α : Type} [DecidableEq α] {t t' : Tab α} {k : Nat}

theorem Tab.ext (h : Cells.wf none t = true) (h' : Cells.wf none t' = true) (hget : ∀ a, Tab.get t a = Tab.get t' a) : t = t' :=
  Cells.ext h h' hget

theorem Tab.upd_upd (t : Tab α) (k : Nat) (f g : α → α) : Tab.upd (Tab.upd t k f) k g = Tab.upd t k (fun x => g (f x)) := by
  unfold Tab.upd
  cases h : Tab.get t k with
  | none => simp only [h]
  | some v =>
    simp only [Tab.get_set_self]
    exact Cells.set_set (Option.some_ne_none _) (Option.some_ne_none _)

/-- A change that leaves the record as it is. -/
theorem Tab.upd_of_get {v : α} {f : α → α} (h : Tab.get t k = some v) (hf : f v = v) : Tab.upd t k f = t := by
  simp only [Tab.upd, h, hf]
  exact Cells.set_of_get (Option.some_ne_none v) h

theorem Cells.lo_le_of_mem {d : α} {m : Cells α} {lo : Nat} {e : Nat × α} (h : Cells.wfFrom d lo m = true) (he : e ∈ m) :
    lo ≤ e.1 := by
  induction m generalizing lo with
  | nil => exact absurd he List.not_mem_nil
  | cons x m ih =>
    simp only [Cells.wfFrom, Bool.and_eq_true, decide_eq_true_eq] at h
    rcases List.mem_cons.mp he with rfl | he
    · exact h.1.1
    · exact h.1.1.trans ((Nat.le_succ _).trans (ih h.2 he))

/-- In a canonical map a key reads what is listed at it. -/
theorem Cells.get_of_mem {d : α} {m : Cells α} {lo a : Nat} {v : α} (h : Cells.wfFrom d lo m = true) (hm : (a, v) ∈ m) :
    Cells.get d m a = v := by
  induction m generalizing lo with
  | nil => exact absurd hm List.not_mem_nil
  | cons x m ih =>
    obtain ⟨k, w⟩ := x
    simp only [Cells.wfFrom, Bool.and_eq_true, decide_eq_true_eq] at h
    rcases List.mem_cons.mp hm with hx | hx
    · cases hx
      simp [Cells.get]
    · have := Cells.lo_le_of_mem h.2 hx
      rw [Cells.get, if_neg (by omega), if_neg (by omega)]
      exact ih h.2 hx

/-- A canonical table lists the records that its keys read. -/
theorem Tab.mem_list_iff_get {v : α} (h : Cells.wf none t = true) : (k, v) ∈ Tab.list t ↔ Tab.get t k = some v :=
  Tab.mem_list.trans ⟨fun hm => Cells.get_of_mem h hm, Tab.mem_of_get⟩

theorem Cells.keys_nodup {d : α} {m : Cells α} {lo : Nat} (h : Cells.wfFrom d lo m = true) : (m.map Prod.fst).Nodup := by
  induction m generalizing lo with
  | nil => exact List.nodup_nil
  | cons x m ih =>
    simp only [Cells.wfFrom, Bool.and_eq_true, decide_eq_true_eq] at h
    refine List.nodup_cons.mpr ⟨fun hx => ?_, ih h.2⟩
    obtain ⟨e, he, hk⟩ := List.mem_map.mp hx
    have := Cells.lo_le_of_mem h.2 he
    omega

/-- A canonical table lists each key once. -/
theorem Tab.list_keys_nodup (h : Cells.wf none t = true) : ((Tab.list t).map Prod.fst).Nodup := by
  refine (Cells.keys_nodup h).sublist ?_
  unfold Tab.list
  clear h
  induction t with
  | nil => exact .slnil
  | cons e t ih =>
    obtain ⟨k, v⟩ := e
    cases v with
    | none => exact ih.cons k
    | some v => exact ih.cons_cons k

end

end Sys2Proof.Machine
end

section
/-! Strands that come to a rendezvous (R129): those of the issue set wait there, every other strand is as it was. -/

namespace Sys2Proof.Machine

/-! ### Live strands -/

theorem Skein.liveOf_eq (sk : Skein) (w : Nat) :
    sk.liveOf w = (sk.members w).filter (fun j => ((Tab.get sk.strands j).map Strand.live).getD false) := by
  unfold Skein.liveOf
  congr 1
  funext j
  cases Tab.get sk.strands j <;> rfl

theorem Skein.mem_liveOf {sk : Skein} {w j : Nat} :
    j ∈ sk.liveOf w ↔ j ∈ sk.members w ∧ ∃ x, Tab.get sk.strands j = some x ∧ x.live = true := by
  rw [Skein.liveOf_eq, List.mem_filter]
  cases Tab.get sk.strands j <;> simp

theorem Skein.liveOf_nodup (sk : Skein) (w : Nat) : (sk.liveOf w).Nodup := (sk.members_nodup w).filter _

/-- The live strands of a skein by their numbers. -/
theorem Skein.live_eq (sk : Skein) : sk.live = ((Tab.list sk.strands).filter (fun e => e.2.live)).map Prod.fst := by
  unfold Skein.live
  induction Tab.list sk.strands with
  | nil => rfl
  | cons e l ih => cases he : e.2.live <;> simp [he, ih]

theorem Skein.mem_live {sk : Skein} (h : Cells.wf none sk.strands = true) {j : Nat} :
    j ∈ sk.live ↔ ∃ x, Tab.get sk.strands j = some x ∧ x.live = true := by
  rw [Skein.live_eq]
  simp only [List.mem_map, List.mem_filter, Prod.exists, Tab.mem_list_iff_get h]
  constructor
  · rintro ⟨i, x, hx, rfl⟩
    exact ⟨x, hx⟩
  · rintro ⟨x, hx⟩
    exact ⟨j, x, hx, rfl⟩

theorem Skein.live_nodup {sk : Skein} (h : Cells.wf none sk.strands = true) : sk.live.Nodup :=
  sk.live_eq ▸ (Tab.list_keys_nodup h).sublist (List.filter_sublist.map _)

/-! ### What an issue gives -/

section
variable {s : State} {sk : Skein}

theorem State.Issuing.not_denied (h : s.Issuing sk) : s.cur.denied = [] := h.2.1
theorem State.Issuing.strands_wf (h : s.Issuing sk) : Cells.wf none sk.strands = true := h.2.2.1
theorem State.Issuing.nodup (h : s.Issuing sk) : s.cur.strands.Nodup := h.2.2.2.2.1

/-- No LDGA of the skein is in flight, so none is to a register that the word names. -/
theorem State.CanRun.ldgaOn_eq_false {i : Instr} (h : s.CanRun sk i) {e : Nat × Req} (he : e ∈ Tab.list s.reqs)
    (act regs : List Nat) : ldgaOn s.cur.skein act regs e.2 = false := ldgaOn_of_ne (h.2.2.1 e he) act regs

end

/-! ### Arriving -/

/-- A strand at a rendezvous. -/
def Strand.awaiting (r : Rendez) (x : Strand) : Strand := { x with status := .rendezvous r }

@[simp] theorem Strand.live_awaiting (r : Rendez) (x : Strand) : (x.awaiting r).live = true := rfl

/-- A strand whose wait is over: READY past the word. -/
def Strand.resumed (x : Strand) : Strand := { x.advance with status := .ready }

/-- A skein of which some strands have come to a rendezvous. -/
def Skein.arrived (sk : Skein) (is : List Nat) (r : Rendez) : Skein :=
  { sk with strands := is.foldl (fun t i => Tab.upd t i (Strand.awaiting r)) sk.strands }

/-- The strands of the issue set have come to a rendezvous. -/
def State.arrived (s : State) (r : Rendez) : State :=
  s.modStrands s.cur.skein s.cur.strands (fun _ => Strand.awaiting r)

@[simp] theorem State.arrived_cur (s : State) (r : Rendez) : (s.arrived r).cur = s.cur := rfl

theorem State.arrived_only (s : State) (r : Rendez) : s.OnlyStrands (s.arrived r) := s.onlyStrands_modStrands _ _

section
variable {s : State} {sk : Skein} (h : s.Issuing sk) (r : Rendez)
include h

theorem State.Issuing.skein?_arrived : (s.arrived r).skein? s.cur.skein = some (sk.arrived s.cur.strands r) := by
  rw [State.arrived, State.modStrands, State.skein?_modSkein, if_pos rfl, h.1]
  rfl

theorem State.Issuing.get_arrived (j : Nat) : Tab.get (sk.arrived s.cur.strands r).strands j =
    if j ∈ s.cur.strands then (Tab.get sk.strands j).map (Strand.awaiting r) else Tab.get sk.strands j :=
  Tab.get_foldl_upd (fun _ => Strand.awaiting r) h.nodup sk.strands j

theorem State.Issuing.wf_arrived : Cells.wf none (sk.arrived s.cur.strands r).strands = true :=
  Tab.wf_foldl_upd (fun _ => Strand.awaiting r) _ h.strands_wf

/-- A strand that has not come is as it was. -/
theorem State.Issuing.get_arrived_other {m : Nat} (hm : m ∉ s.cur.strands) :
    Tab.get (sk.arrived s.cur.strands r).strands m = Tab.get sk.strands m := by
  rw [h.get_arrived, if_neg hm]

theorem State.Issuing.strand?_arrived (k j : Nat) : (s.arrived r).strand? k j =
    if k = s.cur.skein ∧ j ∈ s.cur.strands then (s.strand? k j).map (Strand.awaiting r)
    else s.strand? k j :=
  s.strand?_modStrands _ h.nodup _ k j

theorem State.Issuing.mem_liveOf_arrived {m w : Nat} (hm : m ∉ s.cur.strands) :
    m ∈ (sk.arrived s.cur.strands r).liveOf w ↔ m ∈ sk.liveOf w := by
  rw [Skein.mem_liveOf, Skein.mem_liveOf, h.get_arrived_other r hm]
  rfl

theorem State.Issuing.mem_live_arrived {m : Nat} (hm : m ∉ s.cur.strands) :
    m ∈ (sk.arrived s.cur.strands r).live ↔ m ∈ sk.live := by
  rw [Skein.mem_live (h.wf_arrived r), Skein.mem_live h.strands_wf, h.get_arrived_other r hm]

end

/-! ### A word whose strands wait -/

/-- Strands that have come to a rendezvous keep every register. -/
theorem State.Issuing.registersKept_arrived {s t : State} {sk : Skein} (h : s.Issuing sk) {r : Rendez}
    (ht : ∀ k j, t.strand? k j = (s.arrived r).strand? k j) : s.RegistersKept t := by
  intro k j x hx
  rw [ht, h.strand?_arrived, hx]
  split_ifs
  all_goals exact ⟨_, rfl, rfl, rfl, rfl, rfl, rfl, rfl, rfl, rfl, rfl, rfl, rfl, rfl, rfl, rfl⟩

/-- The strands of the issue set wait at a rendezvous; every other strand, every register and every byte of memory is as it
was. -/
def State.WaitsAt (s t : State) (r : Rendez) : Prop :=
  t.homes = s.homes ∧ s.RegistersKept t ∧ ∀ k j, t.strand? k j =
    if k = s.cur.skein ∧ j ∈ s.cur.strands then (s.strand? k j).map (Strand.awaiting r) else s.strand? k j

/-- A word that can run, and leaves its strands at a rendezvous. -/
theorem State.word_waitsAt {s u : State} {sk : Skein} {i : Instr} (h : s.CanRun sk i) {body : Skein → State → Attempt}
    {r : Rendez} (hb : body sk s = (true, u)) (hcur : u.cur = s.cur) (hhomes : u.homes = s.homes)
    (hu : ∀ k j, u.strand? k j = (s.arrived r).strand? k j) : goesTo (s.word i body) (fun t => s.WaitsAt t r) := by
  refine ⟨_, State.word_of_body h hb, ?_⟩
  rw [State.reportDenied_nil (hcur ▸ h.1.not_denied)]
  have hs (k j : Nat) : (u.count s.cur.skein 0 1).strand? k j = (s.arrived r).strand? k j :=
    (State.strand?_count ..).trans (hu k j)
  exact ⟨hhomes, h.1.registersKept_arrived hs, fun k j => (hs k j).trans (h.1.strand?_arrived r k j)⟩

/-! ### The whole issue set goes on at once -/

theorem State.modSkein_modSkein (s : State) (k : Nat) (f g : Skein → Skein) :
    (s.modSkein k f).modSkein k g = s.modSkein k (fun x => g (f x)) := by
  simp only [State.modSkein, Tab.upd_upd]

theorem State.modSkein_congr {s : State} {k : Nat} {sk : Skein} {f g : Skein → Skein} (h : s.skein? k = some sk)
    (hfg : f sk = g sk) : s.modSkein k f = s.modSkein k g := by
  rw [State.skein?] at h
  simp only [State.modSkein, Tab.upd, h, hfg]

theorem State.modSkein_self {s : State} {k : Nat} {sk : Skein} {f : Skein → Skein} (h : s.skein? k = some sk) (hf : f sk = sk) :
    s.modSkein k f = s := by
  rw [State.modSkein, Tab.upd_of_get h hf]

/-- The strands of the issue set have gone on. -/
def State.goneOn (s : State) : State := s.modStrands s.cur.skein s.cur.strands (fun _ => Strand.advance)

/-- A skein of which some strands have gone on. -/
def Skein.goneOn (sk : Skein) (is : List Nat) : Skein :=
  { sk with strands := is.foldl (fun t i => Tab.upd t i Strand.advance) sk.strands }

theorem State.Issuing.skein?_goneOn {s : State} {sk : Skein} (h : s.Issuing sk) :
    s.goneOn.skein? s.cur.skein = some (sk.goneOn s.cur.strands) := by
  rw [State.goneOn, State.modStrands, State.skein?_modSkein, if_pos rfl, h.1]
  rfl

section
variable {s : State} {sk : Skein} (h : s.Issuing sk) (r : Rendez)
include h

/-- A change of the strands that have come to a rendezvous, by what it makes of them from where they were. -/
theorem State.Issuing.arrived_modStrands {is : List Nat} {f f' : Strand → Strand} (hn : is.Nodup)
    (hm : ∀ j, j ∈ is ↔ j ∈ s.cur.strands)
    (hf : ∀ j ∈ s.cur.strands, ∀ x, s.strand? s.cur.skein j = some x → f (x.awaiting r) = f' x) :
    (s.arrived r).modStrands s.cur.skein is (fun _ => f) = s.modStrands s.cur.skein s.cur.strands (fun _ => f') := by
  have hstr : is.foldl (fun t i => Tab.upd t i f) (sk.arrived s.cur.strands r).strands =
      s.cur.strands.foldl (fun t i => Tab.upd t i f') sk.strands := by
    refine Tab.ext (Tab.wf_foldl_upd (fun _ => f) _ (h.wf_arrived r)) (Tab.wf_foldl_upd (fun _ => f') _ h.strands_wf) fun j => ?_
    rw [Tab.get_foldl_upd (fun _ => f) hn, h.get_arrived, Tab.get_foldl_upd (fun _ => f') h.nodup]
    by_cases hj : j ∈ s.cur.strands
    · obtain ⟨x, hx⟩ := h.exists_strand hj
      rw [if_pos ((hm j).mpr hj), if_pos hj, if_pos hj, ← h.strand? j, hx, Option.map_some, Option.map_some, Option.map_some,
        hf j hj x hx]
    · rw [if_neg (fun hi => hj ((hm j).mp hi)), if_neg hj, if_neg hj]
  rw [State.arrived, State.modStrands, State.modStrands, State.modSkein_modSkein]
  exact State.modSkein_congr h.1 (congrArg (fun t => { sk with strands := t }) hstr)

/-- Strands that were READY, come to a rendezvous and are READY again are as they were. -/
theorem State.Issuing.arrived_ready
    (hr : ∀ j ∈ s.cur.strands, ∀ x, s.strand? s.cur.skein j = some x → x.status = .ready) :
    (s.arrived r).modStrands s.cur.skein s.cur.strands (fun _ t => { t with status := .ready }) = s := by
  rw [h.arrived_modStrands r (f' := id) h.nodup (fun _ => Iff.rfl) fun j hj x hx => by
    rw [Strand.awaiting, ← hr j hj x hx]
    rfl]
  refine State.modSkein_self h.1 ?_
  have hstr : s.cur.strands.foldl (fun t i => Tab.upd t i id) sk.strands = sk.strands := by
    refine Tab.ext (Tab.wf_foldl_upd (fun _ => id) _ h.strands_wf) h.strands_wf fun j => ?_
    rw [Tab.get_foldl_upd (fun _ => id) h.nodup, Option.map_id, id, ite_self]
  exact congrArg (fun t => { sk with strands := t }) hstr

/-- Strands that were READY, come to a rendezvous and leave it have gone on. -/
theorem State.Issuing.arrived_resumed {is : List Nat} (hn : is.Nodup) (hm : ∀ j, j ∈ is ↔ j ∈ s.cur.strands)
    (hr : ∀ j ∈ s.cur.strands, ∀ x, s.strand? s.cur.skein j = some x → x.status = .ready) :
    (s.arrived r).modStrands s.cur.skein is (fun _ => Strand.resumed) =
      s.goneOn :=
  h.arrived_modStrands r hn hm fun j hj x hx => by
    rw [Strand.resumed, Strand.advance, Strand.advance, ← hr j hj x hx]
    rfl

theorem State.Issuing.strandsDone_goneOn {t : State}
    (ht : ∀ k j, t.strand? k j = s.goneOn.strand? k j) :
    s.StrandsDone t 7 (fun _ x => x.advance) := by
  intro k j
  rw [ht, State.goneOn, State.strand?_modStrands _ _ h.nodup]
  simp only [ite_self]

end

/-! ### Live strands that wait -/

theorem Skein.liveOf_congr {sk sk' : Skein} {w : Nat} (hm : sk'.members w = sk.members w)
    (hl : ∀ j, (Tab.get sk'.strands j).map Strand.live = (Tab.get sk.strands j).map Strand.live) :
    sk'.liveOf w = sk.liveOf w := by
  simp only [Skein.liveOf_eq, hm, hl]

section
variable {s : State} {sk : Skein} (h : s.Issuing sk) (r : Rendez)
  (hr : ∀ j ∈ s.cur.strands, ∀ x, s.strand? s.cur.skein j = some x → x.status = .ready)
include h hr

/-- Strands that were READY are live at a rendezvous too. -/
theorem State.Issuing.map_live_arrived (j : Nat) : (Tab.get (sk.arrived s.cur.strands r).strands j).map Strand.live =
    (Tab.get sk.strands j).map Strand.live := by
  rw [h.get_arrived]
  split_ifs with hj
  · obtain ⟨x, hx⟩ := h.exists_strand hj
    rw [← h.strand? j, hx, Option.map_some, Option.map_some, Option.map_some, Strand.live_awaiting, Strand.live, hr j hj x hx]
    rfl
  · rfl

theorem State.Issuing.mem_live_arrived_iff (j : Nat) : j ∈ (sk.arrived s.cur.strands r).live ↔ j ∈ sk.live := by
  have := h.map_live_arrived r hr j
  rw [Skein.mem_live (h.wf_arrived r), Skein.mem_live h.strands_wf]
  simpa [Option.map_eq_some_iff] using congrArg (· = some true) this

theorem State.Issuing.liveOf_arrived (w : Nat) : (sk.arrived s.cur.strands r).liveOf w = sk.liveOf w :=
  Skein.liveOf_congr rfl (h.map_live_arrived r hr)

end

theorem State.weft?_modStrands (s : State) (k a w : Nat) (is : List Nat) (f : Nat → Strand → Strand) :
    (s.modStrands k is f).weft? a w = s.weft? a w :=
  s.weft?_modSkein k a w (f := fun sk => { sk with strands := is.foldl (fun t i => Tab.upd t i (f i)) sk.strands }) (fun _ => rfl)

/-- Strands that go on stay live. -/
theorem State.Issuing.liveOf_goneOn {s : State} {sk : Skein} (h : s.Issuing sk) (w : Nat) :
    (sk.goneOn s.cur.strands).liveOf w = sk.liveOf w := by
  refine Skein.liveOf_congr rfl fun j => ?_
  rw [Skein.goneOn, Tab.get_foldl_upd (fun _ => Strand.advance) h.nodup]
  split_ifs
  · cases Tab.get sk.strands j <;> rfl
  · rfl

/-- Strands at the issue's PC wait there. -/
theorem State.Issuing.waiting_arrived {s : State} {sk : Skein} (h : s.Issuing sk) (r : Rendez) {all : List Nat}
    (hm : ∀ j, j ∈ s.cur.strands ↔ j ∈ all)
    (hp : ∀ j ∈ s.cur.strands, ∀ x, s.strand? s.cur.skein j = some x → x.pc = s.cur.pc) {j : Nat} (hj : j ∈ all) :
    ∃ x, Tab.get (sk.arrived s.cur.strands r).strands j = some x ∧ x.status = .rendezvous r ∧ x.pc = s.cur.pc := by
  have hj := (hm j).mpr hj
  obtain ⟨x, hx⟩ := h.exists_strand hj
  exact ⟨x.awaiting r, by rw [h.get_arrived, if_pos hj, ← h.strand? j, hx]; rfl, rfl, hp j hj x hx⟩

end Sys2Proof.Machine
end

section
/-! Cross-lane words (R121, R122): one that acts at an issue is a per-lane word over the participants; one that some live
strand has not reached waits. -/

namespace Sys2Proof.Machine

/-! ### The .all rendezvous (R121) -/

/-- The .all word that a strand waits at, with its K and PC. -/
def Strand.xlaneAt (t : Strand) : Option (Instr × Word × Word) :=
  match t.status with
  | .rendezvous (.xlane i k) => some (i, k, t.pc)
  | _ => none

theorem Strand.xlaneAt_of_ready {t : Strand} (h : t.status = .ready) : t.xlaneAt = none := by
  rw [Strand.xlaneAt, h]

theorem Strand.xlaneAt_of_waiting {t : Strand} {i : Instr} {k : Word} (h : t.status = .rendezvous (.xlane i k)) :
    t.xlaneAt = some (i, k, t.pc) := by
  rw [Strand.xlaneAt, h]

theorem Skein.xlaneReady_eq (sk : Skein) (w : Nat) : sk.xlaneReady w =
    match (sk.liveOf w).map (fun j => (Tab.get sk.strands j).bind Strand.xlaneAt) with
    | some x :: rest => if rest.all (fun y => y.map (fun e => e.2.2) == some x.2.2) then some x else none
    | _ => none := rfl

/-- While a live strand of the weft is READY, no .all word of it completes. -/
theorem Skein.xlaneReady_eq_none {sk : Skein} {w m : Nat} {y : Strand} (hm : m ∈ sk.liveOf w) (hy : Tab.get sk.strands m = some y)
    (hr : y.status = .ready) : sk.xlaneReady w = none := by
  have hnone : none ∈ (sk.liveOf w).map (fun j => (Tab.get sk.strands j).bind Strand.xlaneAt) :=
    List.mem_map.mpr ⟨m, hm, by rw [hy]; exact Strand.xlaneAt_of_ready hr⟩
  rw [Skein.xlaneReady_eq]
  split
  · next x rest heq =>
    rw [heq] at hnone
    have hrest := (List.mem_cons.mp hnone).resolve_left (by simp)
    rw [if_neg fun hall => by simpa using List.all_eq_true.mp hall none hrest]
  · rfl

/-- The word at which every live strand of a weft waits. -/
theorem Skein.xlaneReady_eq_some {sk : Skein} {w : Nat} {i : Instr} {k pc : Word} (hne : sk.liveOf w ≠ [])
    (hall : ∀ j ∈ sk.liveOf w, ∃ x, Tab.get sk.strands j = some x ∧ x.status = .rendezvous (.xlane i k) ∧ x.pc = pc) :
    sk.xlaneReady w = some (i, k, pc) := by
  have hmap : (sk.liveOf w).map (fun j => (Tab.get sk.strands j).bind Strand.xlaneAt) =
      (sk.liveOf w).map (fun _ => some (i, k, pc)) := by
    refine List.map_congr_left fun j hj => ?_
    obtain ⟨x, hx, hs, hp⟩ := hall j hj
    rw [hx, Option.bind_some, Strand.xlaneAt_of_waiting hs, hp]
  rw [Skein.xlaneReady_eq, hmap]
  cases hl : sk.liveOf w with
  | nil => exact absurd hl hne
  | cons j l => simp

/-! ### An .all word at its last arrival -/

/-- The last arrival at an .all word: the weft's strands act, as at an .any word. -/
theorem State.settleXlane_arrived {s : State} {sk : Skein} (h : s.Issuing sk) (hn : s.NoAsync) (i : Instr)
    (hl : s.cur.strands = sk.liveOf s.cur.weft) (hne : s.cur.strands ≠ [])
    (hr : ∀ j ∈ s.cur.strands, ∀ x, s.strand? s.cur.skein j = some x → x.status = .ready ∧ x.pc = s.cur.pc) :
    (s.arrived (.xlane i s.cur.k)).settleXlane s.cur.skein s.cur.weft = { s.cross sk i with cur := s.cur } := by
  have hready := fun j hj x hx => (hr j hj x hx).1
  have hlive := h.liveOf_arrived (.xlane i s.cur.k) hready s.cur.weft
  have hx : (sk.arrived s.cur.strands (.xlane i s.cur.k)).xlaneReady s.cur.weft = some (i, s.cur.k, s.cur.pc) := by
    refine Skein.xlaneReady_eq_some (hlive ▸ hl ▸ hne) fun j hj => ?_
    exact h.waiting_arrived _ (fun _ => hl ▸ Iff.rfl) (fun j hj x hx => (hr j hj x hx).2) (hlive ▸ hj)
  have hany (act regs : List Nat) : (Tab.list (s.arrived (.xlane i s.cur.k)).reqs).any
      (fun e => ldgaOn s.cur.skein act regs e.2 && !e.2.refused) = false := by
    rw [List.any_eq_false]
    intro e he
    simp [ldgaOn_of_ne (hn e he)]
  unfold State.settleXlane
  simp only [h.skein?_arrived, Option.bind_some, hx, Option.map_some, hany, Bool.false_eq_true, if_false, hlive, ← hl,
    h.arrived_ready _ hready, h.1, State.arrived_cur]

/-! ### The frame of a cross-lane word (R121, R122) -/

section
variable {s : State} {sk : Skein} {i : Instr} (h : s.CanRun sk i)
include h

/-- No source register of the weft's lanes is still to be written. -/
theorem State.crossWord_eq (any : Bool) : s.crossWord i any = .next ((if any then s.cross sk i else
    (s.arrived (.xlane i s.cur.k)).settleXlane s.cur.skein s.cur.weft).reportDenied.count s.cur.skein 0 1) := by
  refine State.word_of_body h ?_
  simp only [State.waiting_clear _ _ _ _ (fun e he => h.ldgaOn_eq_false he _ _)]
  cases any with
  | true => simp
  | false => rfl

/-- A live strand of the weft that has not come keeps an .all word waiting. -/
theorem State.crossWord_waits {m : Nat} {x : Strand} (hm : m ∈ sk.liveOf s.cur.weft) (hs : m ∉ s.cur.strands)
    (hx : s.strand? s.cur.skein m = some x) (hr : x.status = .ready) :
    s.crossWord i false = .next ((s.arrived (.xlane i s.cur.k)).count s.cur.skein 0 1) := by
  have hnone : (sk.arrived s.cur.strands (.xlane i s.cur.k)).xlaneReady s.cur.weft = none :=
    Skein.xlaneReady_eq_none ((h.1.mem_liveOf_arrived _ hs).mpr hm)
      ((h.1.get_arrived_other _ hs).trans ((h.1.strand? m).symm.trans hx)) hr
  have hsettle : (s.arrived (.xlane i s.cur.k)).settleXlane s.cur.skein s.cur.weft = s.arrived (.xlane i s.cur.k) := by
    simp only [State.settleXlane, h.1.skein?_arrived, Option.bind_some, hnone, Option.map_none]
  rw [State.crossWord_eq h, if_neg Bool.false_ne_true, hsettle, State.reportDenied_nil (by exact h.1.not_denied)]

end

/-! ### What a cross-lane word makes of its participants -/

/-- A cross-lane word that traps in no participant: each takes its outcome, the other strands of the issue set go on. -/
theorem State.cross_done {s : State} {sk : Skein} (h : s.Issuing sk) {i : Instr} {g : BitVec 3} {f : Cross}
    (hc : crossOf i = some f) (hg : (Instr.use i).g = g.toNat)
    (hf : ∀ j ∈ s.acting g, ∀ x, s.strand? s.cur.skein j = some x →
      (f sk s.cur.weft (s.acting g) s.cur.k j x).trap? j = none) :
    s.OnlyStrands (s.cross sk i) ∧
    s.StrandsDone (s.cross sk i) g.toNat (fun j x => (f sk s.cur.weft (s.acting g) s.cur.k j x).strand) := by
  have hcross : s.cross sk i = s.retire sk i (Instr.use i).dst (s.laneOuts (fun j =>
      guarded g (f sk s.cur.weft (s.acting g) s.cur.k j))) := by
    simp only [State.cross, hc, hg]
    rfl
  obtain ⟨ho, hs⟩ := State.putLanes_ok h (fun j => guarded g (f sk s.cur.weft (s.acting g) s.cur.k j)) fun j hj x hx => by
    cases hx7 : x.rpr g.toNat with
    | true => exact (guarded_act hx7).symm ▸ hf j ((s.mem_acting g j).mpr ⟨hj, x, hx, hx7⟩) x hx
    | false => exact (guarded_skip hx7).symm ▸ rfl
  obtain ⟨ho, hrs⟩ := s.retire_only sk i (Instr.use i).dst _ ho
  rw [hcross]
  refine ⟨ho, fun k j => (hrs k j).trans ((hs k j).trans ?_)⟩
  refine if_congr Iff.rfl (congrArg (Option.map · (s.strand? k j)) (funext fun x => ?_)) rfl
  cases hx : x.rpr g.toNat with
  | true => rw [guarded_act hx, if_pos rfl]
  | false => rw [guarded_skip hx, if_neg Bool.false_ne_true, LaneOut.strand]

/-- With no live strand in the weft, no .all word completes. -/
theorem State.settleXlane_nil {s : State} {sk : Skein} (h : s.Issuing sk) (r : Rendez) (hs : s.cur.strands = [])
    (hl : sk.liveOf s.cur.weft = []) : (s.arrived r).settleXlane s.cur.skein s.cur.weft = s := by
  have hself : s.arrived r = s := State.modSkein_self h.1 (by rw [hs]; rfl)
  have hnone : sk.xlaneReady s.cur.weft = none := by rw [Skein.xlaneReady_eq, hl]; rfl
  simp only [hself, State.settleXlane, h.1, Option.bind_some, hnone, Option.map_none]

/-- A cross-lane word that acts at this issue does so at once; an .all word of no strand does nothing. -/
theorem State.crossWord_acts {s : State} {sk : Skein} {i : Instr} (h : s.CanRun sk i) {y : BitVec 1} (hy : s.ActsAcross sk y)
    (hcur : (s.cross sk i).cur = s.cur) :
    s.crossWord i (y == 1) = .next ((s.cross sk i).count s.cur.skein 0 1) ∨
    s.cur.strands = [] ∧ s.crossWord i (y == 1) = .next (s.count s.cur.skein 0 1) := by
  rw [State.crossWord_eq h]
  by_cases h1 : (y == 1) = true
  · rw [if_pos h1, State.reportDenied_nil (hcur ▸ h.1.not_denied)]
    exact .inl rfl
  · obtain ⟨hl, hr⟩ := hy.resolve_left (fun e => h1 (beq_iff_eq.mpr e))
    rw [if_neg h1]
    by_cases hne : s.cur.strands = []
    · rw [State.settleXlane_nil h.1 _ hne (hl ▸ hne), State.reportDenied_nil h.1.not_denied]
      exact .inr ⟨hne, rfl⟩
    · rw [State.settleXlane_arrived h.1 h.2.2.1 i hl hne hr, ← hcur, State.reportDenied_nil (hcur ▸ h.1.not_denied)]
      exact .inl rfl

/-- A cross-lane arm, by what it makes of each participant. -/
theorem RunsAcross.of_arm {i : Instr} {g : BitVec 3} {y : BitVec 1} {f : Skein → Nat → List Nat → Word → Nat → Strand → Strand}
    {fl : Skein → Nat → List Nat → Nat → Strand → FpFlags} (o : Cross)
    (hi : ∀ s, exec i s = s.crossWord i (y == 1)) (hc : crossOf i = some o) (hg : (Instr.use i).g = g.toNat)
    (hf : ∀ sk w parts k, ∀ j ∈ parts, ∀ x, x.fpTraps (fl sk w parts j x) = false →
      (o sk w parts k j x).trap? j = none ∧ (o sk w parts k j x).strand = (f sk w parts k j x).advance) :
    RunsAcross i g y f fl := by
  intro s sk h hy hno
  have hout := fun j hj x hx => hf sk s.cur.weft (s.acting g) s.cur.k j hj x (hno j hj x hx)
  obtain ⟨ho, hs⟩ := State.cross_done h.1 hc hg (fun j hj x hx => (hout j hj x hx).1)
  rw [hi]
  rcases State.crossWord_acts h hy ho.cur with heq | ⟨hnil, heq⟩
  · refine ⟨_, heq, fun k j => ?_, ho.trans (ho.cur ▸ State.onlyStrands_count _ 0 1)⟩
    rw [State.strand?_count, hs]
    split_ifs with hk
    · obtain ⟨rfl, hj⟩ := hk
      obtain ⟨x, hx⟩ := h.1.exists_strand hj
      rw [hx, Option.map_some, Option.map_some]
      cases hx7 : x.rpr g.toNat with
      | true => exact congrArg some (hout j ((s.mem_acting g j).mpr ⟨hj, x, hx, hx7⟩) x hx).2
      | false => rfl
    · rfl
  · refine ⟨_, heq, fun k j => ?_, s.onlyStrands_count 0 1⟩
    rw [State.strand?_count, if_neg (by simp [hnil])]

end Sys2Proof.Machine
end

section
/-! XLANE, REDI and REDF (R122 to R128): each is a cross-lane arm, with what it makes of a participant. -/

namespace Sys2Proof.Machine

variable {i : Instr} {g p : BitVec 3} {y : BitVec 1} {d a b : VReg}

/-! ### Words that raise no flag (R123) -/

theorem RunsAcrossPlain.of_arm {f : Skein → Nat → List Nat → Word → Nat → Strand → Strand} (o : Cross)
    (hi : ∀ s, exec i s = s.crossWord i (y == 1)) (hc : crossOf i = some o) (hg : (Instr.use i).g = g.toNat)
    (ho : ∀ sk w parts k j x, o sk w parts k j x = .ok (f sk w parts k j x)) : RunsAcrossPlain i g y f :=
  RunsAcross.of_arm o hi hc hg fun sk w parts k j _ x _ => by
    rw [ho]
    exact ⟨rfl, rfl⟩

/-- Settles O12: each word is its arm; BCAST's source lane is B of the first participant. -/
theorem crossLane : Obligations.CrossLane := by
  unfold Obligations.CrossLane
  intro c y g p u d a b shuffle count
  refine ⟨?shfl, ?shflx, ?shflu, ?shfld, ?bcast, ?all, ?any, ?one, ?count, ?rank⟩
  case shfl | shflx | shflu | shfld => exact .of_arm (xShuffle d a b _) (fun _ => rfl) rfl rfl (fun _ _ _ _ _ _ => rfl)
  case bcast =>
    refine .of_arm (xBcast d a b) (fun _ => rfl) rfl rfl fun sk w parts k j x => ?_
    cases parts with
    | nil => rfl
    | cons q l => cases hq : Tab.get sk.strands q <;> simp only [xBcast, hq, List.head?_cons, Option.bind_some] <;> rfl
  case all => exact .of_arm (xVote p 0 u) (fun _ => rfl) rfl rfl (fun _ _ _ _ _ _ => rfl)
  case any => exact .of_arm (xVote p 1 u) (fun _ => rfl) rfl rfl (fun _ _ _ _ _ _ => rfl)
  case one => exact .of_arm (xVote p 2 u) (fun _ => rfl) rfl rfl (fun _ _ _ _ _ _ => rfl)
  case count => exact .of_arm (xCount d u) (fun _ => rfl) rfl rfl (fun _ _ _ _ _ _ => rfl)
  case rank => exact .of_arm (xRank d u) (fun _ => rfl) rfl rfl (fun _ _ _ _ _ _ => rfl)

/-- REDI by its function, which the model may compute in another form. -/
theorem xRedi_eq {f f' : Word → Word → Word} (hf : ∀ v w, f' v w = f v w) (sk : Skein) (w : Nat) (parts : List Nat) (k : Word)
    (j : Nat) (x : Strand) : xRedi d a f' sk w parts k j x = .ok (match partVals sk a.toNat parts with
      | [] => x
      | v :: vs => x.wv d.toNat (vs.foldl f v)) := by
  obtain rfl : f' = f := funext₂ hf
  unfold xRedi
  cases partVals sk a.toNat parts <;> rfl

/-- Settles O13: each word is its arm, and the operation of its rule. -/
theorem integerReductions : Obligations.IntegerReductions := by
  unfold Obligations.IntegerReductions
  intro c y g d a runs
  refine ⟨?iadd, ?imin, ?imax, ?umin, ?umax, ?and, ?or, ?xor⟩
  case iadd | and | or | xor => exact .of_arm (xRedi d a _) (fun _ => rfl) rfl rfl (xRedi_eq fun _ _ => rfl)
  case imin => exact .of_arm (xRedi d a intMin) (fun _ => rfl) rfl rfl (xRedi_eq intMin_eq)
  case imax => exact .of_arm (xRedi d a intMax) (fun _ => rfl) rfl rfl (xRedi_eq intMax_eq)
  case umin => exact .of_arm (xRedi d a intMinu) (fun _ => rfl) rfl rfl (xRedi_eq min_toNat_eq)
  case umax => exact .of_arm (xRedi d a intMaxu) (fun _ => rfl) rfl rfl (xRedi_eq max_toNat_eq)

/-! ### Floating reductions (R127, R128) -/

/-- A reduction whose arm gives each participant the value and flags of `v`. -/
theorem RunsReduction.of_arm {flush : Bool} {v : Skein → Nat → List Nat → Nat → Word × FpFlags} (o : Cross)
    (hi : ∀ s, exec i s = s.crossWord i (y == 1)) (hc : crossOf i = some o) (hg : (Instr.use i).g = g.toNat)
    (ho : ∀ sk w parts k, ∀ j ∈ parts, ∀ x, o sk w parts k j x = redfDone sk flush d (v sk w parts j) x) :
    RunsReduction i g y d flush v := by
  unfold RunsReduction
  intro out
  refine RunsAcross.of_arm o hi hc hg fun sk w parts k j hj x hx => ?_
  rw [ho sk w parts k j hj x]
  exact fpDone_ok 0 d.toNat _ _ x (fun _ => hx) (Strand.fpflags_wv ..) j

/-- Settles O14: each word is its arm; FMIN and FMAX have a participant to start from. -/
theorem floatReductions : Obligations.FloatReductions := by
  unfold Obligations.FloatReductions
  intro c y g d a lvl upTo below ends
  refine ⟨?faddt, ?fadds, ?fmin, ?fmax, ?scanf, ?scani, ?scanx⟩
  case faddt =>
    refine .of_arm (xFaddt d a) (fun _ => rfl) rfl rfl fun sk w parts k j _ x => ?_
    unfold xFaddt
    cases Tab.get sk.wefts w <;> rfl
  case fadds => exact .of_arm (xFadds d a) (fun _ => rfl) rfl rfl (fun _ _ _ _ _ _ _ => rfl)
  case fmin | fmax =>
    refine .of_arm (xFminmax _ d a) (fun _ => rfl) rfl rfl fun sk w parts k j hj x => ?_
    cases parts with
    | nil => exact absurd hj List.not_mem_nil
    | cons q l => rfl
  case scanf => exact .of_arm (xScanf d a) (fun _ => rfl) rfl rfl (fun _ _ _ _ _ _ _ => rfl)
  case scani => exact .of_arm (xScani false d a) (fun _ => rfl) rfl rfl (fun _ _ _ _ _ _ => rfl)
  case scanx => exact .of_arm (xScani true d a) (fun _ => rfl) rfl rfl (fun _ _ _ _ _ _ => rfl)

end Sys2Proof.Machine
end

section
/-! The .all and .any forms of the cross-lane words (R121): bit 3 of the word says which. -/

namespace Sys2Proof.Machine

theorem beq_one_eq_getLsbD {n : Nat} {y : BitVec 1} (h : n / 8 % 2 = y.toNat) : (y == 1) = (BitVec.ofNat 32 n).getLsbD 3 := by
  rw [BitVec.getLsbD_ofNat, Nat.testBit_eq_decide_div_mod_eq, h]
  exact (by decide : ∀ y : BitVec 1, (y == 1) = (decide (3 < 32) && decide (y.toNat = 1))) y

/-- A cross-lane word acts as an .any word where bit 3 of its word is set, and else as an .all word. -/
theorem exec_eq_crossWord {i : Instr} {w : Word} (hc : (crossOf i).isSome = true) (hw : encode i = some w) (s : State) :
    exec i s = s.crossWord i (w.getLsbD 3) := by
  cases i
  all_goals try exact absurd hc Bool.false_ne_true
  all_goals
    obtain rfl := Option.some.inj hw
    refine congrArg (s.crossWord _) (beq_one_eq_getLsbD ?_)
    simp only [wd]
    omega

/-- Settles O15: no .all word completes while a live strand is READY elsewhere. -/
theorem crossLaneWaits : Obligations.CrossLaneWaits := by
  unfold Obligations.CrossLaneWaits
  rintro i s sk m x hc ⟨w, hw, -, h3⟩ h hm hs hx hr
  refine ⟨_, (exec_eq_crossWord hc hw s).trans (h3 ▸ State.crossWord_waits h hm hs hx hr), ?_, fun k j => ?_⟩
  · exact (s.arrived_only _).trans (State.onlyStrands_count _ 0 1)
  · exact (State.strand?_count ..).trans (h.1.strand?_arrived _ k j)

end Sys2Proof.Machine
end

section
/-! SETW and WSYNC (R115 to R117, R120): they wait for the live strands of the skein and of the weft, and end with the last. -/

namespace Sys2Proof.Machine

/-! ### One answer of every strand -/

section
variable {α : Type} {f : Nat → Option α} {l : List Nat}

theorem mapM_eq_none {j : Nat} (hj : j ∈ l) (hf : f j = none) : l.mapM f = none := by
  induction l with
  | nil => exact absurd hj List.not_mem_nil
  | cons i l ih =>
    rw [List.mapM_cons]
    rcases List.mem_cons.mp hj with rfl | hj
    · rw [hf]; rfl
    · rw [ih hj]; cases f i <;> rfl

theorem mapM_eq_replicate {q : α} (hf : ∀ j ∈ l, f j = some q) : l.mapM f = some (List.replicate l.length q) := by
  induction l with
  | nil => rfl
  | cons i l ih =>
    rw [List.mapM_cons, hf i (List.mem_cons_self ..), ih fun j hj => hf j (List.mem_cons_of_mem _ hj)]
    rfl

end

/-! ### SETW's rendezvous (R116) -/

/-- The SETW that a strand waits at, with its PC. -/
def Strand.setwAt (t : Strand) : Option (Word × Nat × Nat × Bool) :=
  match t.status with
  | .rendezvous (.setw a b l) => some (t.pc, a, b, l)
  | _ => none

theorem Strand.setwAt_of_ready {t : Strand} (h : t.status = .ready) : t.setwAt = none := by
  rw [Strand.setwAt, h]

theorem Strand.setwAt_of_waiting {t : Strand} {a b : Nat} {l : Bool} (h : t.status = .rendezvous (.setw a b l)) :
    t.setwAt = some (t.pc, a, b, l) := by
  rw [Strand.setwAt, h]

theorem Skein.setwWaits_eq (sk : Skein) : sk.setwWaits = sk.live.mapM (fun j => (Tab.get sk.strands j).bind Strand.setwAt) := rfl

theorem lowestSetw_replicate {n : Nat} (hn : n ≠ 0) (q : Word × Nat × Nat × Bool) :
    lowestSetw (List.replicate n q) = some q := by
  obtain ⟨n, rfl⟩ := Nat.exists_eq_succ_of_ne_zero hn
  rw [List.replicate_succ, lowestSetw]
  clear hn
  congr 1
  induction n with
  | zero => rfl
  | succ n ih => rwa [List.replicate_succ, List.foldl_cons, ite_self]

/-- While a live strand of the skein is READY, no SETW of it completes. -/
theorem State.settleSetw_of_ready {s : State} {k m : Nat} {sk : Skein} {y : Strand} (hk : s.skein? k = some sk)
    (hm : m ∈ sk.live) (hy : Tab.get sk.strands m = some y) (hr : y.status = .ready) : s.settleSetw k = s := by
  have hnone : sk.setwWaits = none := sk.setwWaits_eq.trans (mapM_eq_none hm (by rw [hy]; exact Strand.setwAt_of_ready hr))
  simp only [State.settleSetw, hk, hnone, Option.bind_none]

/-- The skein with its wefts formed anew under a grant (R111, R117). -/
def Skein.regrouped (sk : Skein) (g : Nat) : Skein :=
  { sk with wefts := (weftBases g 0 sk.nstrand).foldl (fun t b => Tab.set t b (some (Weft.fresh g))) [] }

/-- Every live strand of the skein at one SETW: it is regrouped, and they go on. -/
theorem State.settleSetw_of_waiting {s : State} {k a b : Nat} {l : Bool} {pc : Word} {sk : Skein} (hk : s.skein? k = some sk)
    (hne : sk.live ≠ [])
    (hall : ∀ j ∈ sk.live, ∃ x, Tab.get sk.strands j = some x ∧ x.status = .rendezvous (.setw a b l) ∧ x.pc = pc)
    (hg : setGrant (s.eligibleFor sk) (widthOf a) (widthOf b) l ≠ 0) :
    s.settleSetw k = ((s.modStrands k sk.live (fun _ => Strand.resumed)).modSkein k
      (fun x => x.regrouped (setGrant (s.eligibleFor sk) (widthOf a) (widthOf b) l))).killLoads k
        ((Tab.list sk.wefts).map (fun e => e.2.g)) := by
  have hwaits : sk.setwWaits = some (List.replicate sk.live.length (pc, a, b, l)) := by
    refine sk.setwWaits_eq.trans (mapM_eq_replicate fun j hj => ?_)
    obtain ⟨x, hx, hs, hp⟩ := hall j hj
    rw [hx, Option.bind_some, Strand.setwAt_of_waiting hs, hp]
  have hlow : lowestSetw (List.replicate sk.live.length (pc, a, b, l)) = some (pc, a, b, l) :=
    lowestSetw_replicate (fun h => hne (List.length_eq_zero_iff.mp h)) _
  simp only [State.settleSetw, hk, hwaits, Option.bind_some, hlow, if_neg hg]
  refine congrArg (State.killLoads · k _) ?_
  simp only [State.modStrands, State.modSkein_modSkein]
  rfl

/-! ### The wefts that a SETW forms (R111, R117) -/

theorem Tab.get_foldl_set_const {α : Type} [DecidableEq α] (v : α) (l : List Nat) (t : Tab α) (a : Nat) :
    Tab.get (l.foldl (fun t b => Tab.set t b (some v)) t) a = if a ∈ l then some v else Tab.get t a := by
  induction l generalizing t with
  | nil => simp
  | cons b l ih =>
    rw [List.foldl_cons, ih, Tab.get_set]
    by_cases hb : a = b <;> simp [hb]

theorem mem_weftBases {g lo hi w : Nat} (hg : g ≠ 0) : w ∈ weftBases g lo hi ↔ w % g = 0 ∧ lo ≤ w ∧ w < hi := by
  rw [weftBases, if_neg hg, List.mem_filterMap]
  constructor
  · rintro ⟨j, hj, h⟩
    split_ifs at h with hm
    cases h
    rw [List.mem_range] at hj
    exact ⟨hm, by omega, by omega⟩
  · rintro ⟨hm, hlo, hhi⟩
    refine ⟨w - lo, List.mem_range.mpr (by omega), ?_⟩
    rw [Nat.add_sub_cancel' hlo, if_pos hm]

theorem Skein.get_regrouped (sk : Skein) {g : Nat} (hg : g ≠ 0) (w : Nat) :
    Tab.get (sk.regrouped g).wefts w = if w % g = 0 ∧ w < sk.nstrand then some (Weft.fresh g) else none := by
  rw [Skein.regrouped, Tab.get_foldl_set_const]
  exact if_congr ((mem_weftBases hg).trans (by simp)) rfl rfl

/-- Killing load entries touches cores alone (R72). -/
theorem State.killLoads_eq (s : State) (k : Nat) (gs : List Nat) :
    s.killLoads k gs = { s with cores := (s.killLoads k gs).cores } := by
  unfold State.killLoads
  split
  · rfl
  · split <;> rfl

@[simp] theorem State.killLoads_cur (s : State) (k : Nat) (gs : List Nat) : (s.killLoads k gs).cur = s.cur := by
  rw [State.killLoads_eq]

@[simp] theorem State.killLoads_homes (s : State) (k : Nat) (gs : List Nat) : (s.killLoads k gs).homes = s.homes := by
  rw [State.killLoads_eq]

@[simp] theorem State.strand?_killLoads (s : State) (k : Nat) (gs : List Nat) (a j : Nat) :
    (s.killLoads k gs).strand? a j = s.strand? a j := by
  rw [State.killLoads_eq]
  rfl

@[simp] theorem State.weft?_killLoads (s : State) (k : Nat) (gs : List Nat) (a w : Nat) :
    (s.killLoads k gs).weft? a w = s.weft? a w := by
  rw [State.killLoads_eq]
  rfl

theorem State.strand?_regrouped (s : State) (k g a j : Nat) :
    (s.modSkein k (fun x => x.regrouped g)).strand? a j = s.strand? a j := by
  rw [State.strand?_modSkein]
  split_ifs <;> rfl

theorem State.weft?_regrouped {s : State} {k g : Nat} {sk : Skein} (hk : s.skein? k = some sk) (hg : g ≠ 0) (w : Nat) :
    (s.modSkein k (fun x => x.regrouped g)).weft? k w =
      if w % g = 0 ∧ w < sk.nstrand then some (Weft.fresh g) else none := by
  rw [State.weft?, State.skein?_modSkein, if_pos rfl, hk]
  exact sk.get_regrouped hg w

/-! ### WSYNC's rendezvous (R120) -/

/-- While a live strand of the weft is READY, no WSYNC of it completes. -/
theorem State.settleWsync_of_ready {s : State} {k w m : Nat} {sk : Skein} {y : Strand} (hk : s.skein? k = some sk)
    (hm : m ∈ sk.liveOf w) (hy : Tab.get sk.strands m = some y) (hr : y.status = .ready) : s.settleWsync k w = s := by
  have hnone : none ∈ (sk.liveOf w).map (fun i => (Tab.get sk.strands i).bind (fun t =>
      if t.status = .rendezvous .wsync then some t.pc else none)) := List.mem_map.mpr ⟨m, hm, by simp [hy, hr]⟩
  simp only [State.settleWsync, hk]
  split
  · next p rest heq =>
    rw [heq] at hnone
    have hrest := (List.mem_cons.mp hnone).resolve_left (by simp)
    rw [if_neg fun hall => by simpa using List.all_eq_true.mp hall none hrest]
  · rfl

/-- Every live strand of the weft at one WSYNC: they go on. -/
theorem State.settleWsync_of_waiting {s : State} {k w : Nat} {pc : Word} {sk : Skein} (hk : s.skein? k = some sk)
    (hne : sk.liveOf w ≠ [])
    (hall : ∀ j ∈ sk.liveOf w, ∃ x, Tab.get sk.strands j = some x ∧ x.status = .rendezvous .wsync ∧ x.pc = pc) :
    s.settleWsync k w = s.modStrands k (sk.liveOf w) (fun _ => Strand.resumed) := by
  have hmap : (sk.liveOf w).map (fun i => (Tab.get sk.strands i).bind (fun t =>
      if t.status = .rendezvous .wsync then some t.pc else none)) = (sk.liveOf w).map (fun _ => some pc) := by
    refine List.map_congr_left fun j hj => ?_
    obtain ⟨x, hx, hs, hp⟩ := hall j hj
    simp [hx, hs, hp]
  simp only [State.settleWsync, hk, hmap]
  cases hl : sk.liveOf w with
  | nil => exact absurd hl hne
  | cons j l =>
    simp only [List.map_cons]
    rw [if_pos (by simp)]
    rfl

end Sys2Proof.Machine
end

section
/-! SLICE (R119): its rendezvous lasts until every live strand of the weft is there, or until JTIMEOUT; a weft that the core
has the lanes for keeps its grant. -/

namespace Sys2Proof.Machine

/-! ### The strands at a SLICE -/

theorem Skein.mem_sliceAt {sk : Skein} {w j : Nat} {pc : Word} : j ∈ sk.sliceAt w pc ↔
    j ∈ sk.liveOf w ∧ ∃ x, Tab.get sk.strands j = some x ∧ x.status = .rendezvous .slice ∧ x.pc = pc := by
  rw [Skein.sliceAt, List.mem_filter]
  cases Tab.get sk.strands j <;> simp

/-- No live strand of a weft waits at a SLICE. -/
def Skein.NoSlice (sk : Skein) (w : Nat) : Prop :=
  ∀ j ∈ sk.liveOf w, ∀ x, Tab.get sk.strands j = some x → x.status ≠ .rendezvous .slice

/-- Every live strand of a weft waits at the SLICE at one PC, and there are some. -/
def Skein.AllSlice (sk : Skein) (w : Nat) (pc : Word) : Prop :=
  sk.liveOf w ≠ [] ∧ ∀ j ∈ sk.liveOf w, ∃ x, Tab.get sk.strands j = some x ∧ x.status = .rendezvous .slice ∧ x.pc = pc

theorem Skein.NoSlice.sliceAt {sk : Skein} {w : Nat} (h : sk.NoSlice w) (pc : Word) : sk.sliceAt w pc = [] := by
  refine List.eq_nil_iff_forall_not_mem.mpr fun j hj => ?_
  obtain ⟨hl, x, hx, hs, -⟩ := Skein.mem_sliceAt.mp hj
  exact h j hl x hx hs

theorem Skein.AllSlice.sliceAt_self {sk : Skein} {w : Nat} {pc : Word} (h : sk.AllSlice w pc) : sk.sliceAt w pc = sk.liveOf w :=
  List.filter_eq_self.mpr fun j hj => (List.mem_filter.mp (Skein.mem_sliceAt.mpr ⟨hj, h.2 j hj⟩)).2

theorem Skein.AllSlice.sliceAt_other {sk : Skein} {w : Nat} {pc p : Word} (h : sk.AllSlice w pc) (hp : p ≠ pc) :
    sk.sliceAt w p = [] := by
  refine List.eq_nil_iff_forall_not_mem.mpr fun j hj => ?_
  obtain ⟨hl, x, hx, -, hxp⟩ := Skein.mem_sliceAt.mp hj
  obtain ⟨y, hy, -, hyp⟩ := h.2 j hl
  obtain rfl := Option.some.inj (hx.symm.trans hy)
  exact hp (hxp.symm.trans hyp)

/-- While a live strand of the weft waits at no SLICE, none is complete. -/
theorem Skein.sliceReady_eq_none {sk : Skein} {w m : Nat} {y : Strand} (hm : m ∈ sk.liveOf w) (hy : Tab.get sk.strands m = some y)
    (hr : y.status ≠ .rendezvous .slice) : sk.sliceReady w = none := by
  have hshort (pc : Word) : (sk.sliceAt w pc).length ≠ (sk.liveOf w).length := fun he => by
    have hall := List.length_filter_eq_length_iff.mp he
    obtain ⟨-, x, hx, hs, -⟩ := Skein.mem_sliceAt.mp (List.mem_filter.mpr ⟨hm, hall m hm⟩)
    exact hr (Option.some.inj (hy.symm.trans hx) ▸ hs)
  unfold Skein.sliceReady
  split
  · rfl
  · next i rest hl =>
    split
    · next t _ => rw [if_neg fun he => hshort t.pc (by rw [he, hl]; rfl)]
    · rfl

theorem Skein.AllSlice.sliceReady {sk : Skein} {w : Nat} {pc : Word} (h : sk.AllSlice w pc) : sk.sliceReady w = some pc := by
  have hlen := congrArg List.length h.sliceAt_self
  unfold Skein.sliceReady
  split
  · next hl => exact absurd hl h.1
  · next i rest hl =>
    obtain ⟨x, hx, -, rfl⟩ := h.2 i (hl ▸ List.mem_cons_self ..)
    rw [hl] at hlen
    simp only [hx]
    exact if_pos hlen

/-! ### A weft changed but for its grant -/

theorem Tab.upd_id {α : Type} [DecidableEq α] (t : Tab α) (k : Nat) : Tab.upd t k id = t := by
  cases h : Tab.get t k with
  | none => simp only [Tab.upd, h]
  | some v => exact Tab.upd_of_get h rfl

theorem State.modStrands_nil (s : State) (k : Nat) (f : Nat → Strand → Strand) : s.modStrands k [] f = s := by
  have h : s.skeins.upd k id = s.skeins := Tab.upd_id ..
  exact congrArg (fun x => { s with skeins := x }) h

theorem State.modWeft_id (s : State) (k w : Nat) : s.modWeft k w id = s := by
  have h : (fun sk : Skein => { sk with wefts := Tab.upd sk.wefts w id }) = id := funext fun sk => by rw [Tab.upd_id]; rfl
  rw [State.modWeft, State.modSkein, h, Tab.upd_id]

theorem State.modWeft_modWeft (s : State) (k w : Nat) (f g : Weft → Weft) :
    (s.modWeft k w f).modWeft k w g = s.modWeft k w (fun x => g (f x)) := by
  simp only [State.modWeft, State.modSkein_modSkein, Tab.upd_upd]

theorem State.modWeft_modStrands (s : State) (k w : Nat) (f : Weft → Weft) (is : List Nat) (g : Nat → Strand → Strand) :
    (s.modWeft k w f).modStrands k is g = (s.modStrands k is g).modWeft k w f := by
  simp only [State.modWeft, State.modStrands, State.modSkein_modSkein]

/-- A state that differs in one weft alone, whose grant stays. -/
def State.WeftKept (s t : State) (k w : Nat) : Prop := ∃ f : Weft → Weft, (∀ x, (f x).g = x.g) ∧ t = s.modWeft k w f

section
variable {s t : State} {k w : Nat}

theorem State.WeftKept.refl (s : State) (k w : Nat) : s.WeftKept s k w := ⟨id, fun _ => rfl, (s.modWeft_id k w).symm⟩

theorem State.WeftKept.modWeft (h : s.WeftKept t k w) {g : Weft → Weft} (hg : ∀ x, (g x).g = x.g) :
    s.WeftKept (t.modWeft k w g) k w := by
  obtain ⟨f, hf, rfl⟩ := h
  exact ⟨fun x => g (f x), fun x => (hg _).trans (hf x), s.modWeft_modWeft k w f g⟩

theorem State.WeftKept.modStrands (h : s.WeftKept t k w) (is : List Nat) (g : Nat → Strand → Strand) :
    (s.modStrands k is g).WeftKept (t.modStrands k is g) k w := by
  obtain ⟨f, hf, rfl⟩ := h
  exact ⟨f, hf, s.modWeft_modStrands k w f is g⟩

/-- The skein there has its strands, its core, its JTIMEOUT, and its live strands of each weft. -/
theorem State.WeftKept.skein (h : s.WeftKept t k w) {sk : Skein} (hk : s.skein? k = some sk) :
    ∃ sk', t.skein? k = some sk' ∧ sk'.strands = sk.strands ∧ (sk'.core = sk.core ∧ sk'.jtimeout = sk.jtimeout) ∧
      ∀ a, sk'.liveOf a = sk.liveOf a := by
  obtain ⟨f, hf, rfl⟩ := h
  refine ⟨{ sk with wefts := Tab.upd sk.wefts w f }, ?_, rfl, ⟨rfl, rfl⟩, fun a =>
    Skein.liveOf_congr (sk.members_upd w a hf) (fun _ => rfl)⟩
  rw [State.modWeft, State.skein?_modSkein, if_pos rfl, hk, Option.map_some]

theorem State.WeftKept.strand? (h : s.WeftKept t k w) (a j : Nat) : t.strand? a j = s.strand? a j := by
  obtain ⟨f, -, rfl⟩ := h
  exact s.strand?_modWeft k w a j f

theorem State.WeftKept.weft? (h : s.WeftKept t k w) : (t.weft? k w).map Weft.g = (s.weft? k w).map Weft.g := by
  obtain ⟨f, hf, rfl⟩ := h
  rw [State.weft?_modWeft, if_pos ⟨rfl, rfl⟩, Option.map_map]
  exact congrArg (Option.map · _) (funext hf)

theorem State.WeftKept.clock (h : s.WeftKept t k w) : t.clock = s.clock := by
  obtain ⟨f, -, rfl⟩ := h
  rfl

theorem State.WeftKept.cur (h : s.WeftKept t k w) : t.cur = s.cur := by
  obtain ⟨f, -, rfl⟩ := h
  rfl

theorem State.WeftKept.homes (h : s.WeftKept t k w) : t.homes = s.homes := by
  obtain ⟨f, -, rfl⟩ := h
  rfl

theorem State.WeftKept.core (h : s.WeftKept t k w) (c : Nat) : t.core c = s.core c := by
  obtain ⟨f, -, rfl⟩ := h
  rfl

end

/-! ### Ends of SLICE waits -/

theorem Skein.sliceAt_congr {sk sk' : Skein} {w : Nat} (hs : sk'.strands = sk.strands) (hl : sk'.liveOf w = sk.liveOf w)
    (pc : Word) : sk'.sliceAt w pc = sk.sliceAt w pc := by
  rw [Skein.sliceAt, Skein.sliceAt, hs, hl]

theorem Skein.sliceReady_congr {sk sk' : Skein} {w : Nat} (hs : sk'.strands = sk.strands) (hl : sk'.liveOf w = sk.liveOf w) :
    sk'.sliceReady w = sk.sliceReady w := by
  simp only [Skein.sliceReady, Skein.sliceAt_congr hs hl, hs, hl]

/-- A SLICE wait that ends by JTIMEOUT: the strands there go on. -/
theorem State.endSlice_eq {s : State} {k : Nat} {sk : Skein} (hk : s.skein? k = some sk) (w : Nat) (pc : Word) :
    s.endSlice k w pc false = (s.modStrands k (sk.sliceAt w pc) (fun _ => Strand.resumed)).modWeft k w
      (fun x => { x with sliceSince := x.sliceSince.filter (fun e => e.1 != pc) }) := by
  simp only [State.endSlice, hk, Bool.false_eq_true, if_false]
  rfl

section
variable {s t : State} {k w : Nat} {sk : Skein} {pc : Word}

/-- The end of a wait, by the strands that wait in the state before the weft changed. -/
theorem State.WeftKept.endSlice (h : s.WeftKept t k w) (hk : s.skein? k = some sk) (pc : Word) :
    (s.modStrands k (sk.sliceAt w pc) (fun _ => Strand.resumed)).WeftKept (t.endSlice k w pc false) k w := by
  obtain ⟨sk', hk', hs, -, hl⟩ := h.skein hk
  rw [State.endSlice_eq hk', Skein.sliceAt_congr hs (hl w)]
  exact (h.modStrands _ _).modWeft fun _ => rfl

/-- Where no strand waits at a SLICE, timeouts change the weft's records alone. -/
theorem State.WeftKept.foldl_endSlice (h : s.WeftKept t k w) (hk : s.skein? k = some sk) (hno : sk.NoSlice w)
    (p : Word × Nat → Prop) [DecidablePred p] (l : List (Word × Nat)) :
    s.WeftKept (l.foldl (fun t e => if p e then t.endSlice k w e.1 false else t) t) k w := by
  induction l generalizing t with
  | nil => exact h
  | cons e l ih =>
    rw [List.foldl_cons]
    split_ifs
    · have he := h.endSlice hk e.1
      rw [hno.sliceAt, State.modStrands_nil] at he
      exact ih he
    · exact ih h

/-- Where every live strand waits at one SLICE, timeouts leave them there, or end their wait. -/
theorem State.WeftKept.foldl_endSlice_waiting (h : s.WeftKept t k w) (hk : s.skein? k = some sk) (hall : sk.AllSlice w pc)
    {sk' : Skein} (hk' : (s.modStrands k (sk.liveOf w) (fun _ => Strand.resumed)).skein? k = some sk') (hno : sk'.NoSlice w)
    (p : Word × Nat → Prop) [DecidablePred p] (l : List (Word × Nat)) :
    s.WeftKept (l.foldl (fun t e => if p e then t.endSlice k w e.1 false else t) t) k w ∨
    (s.modStrands k (sk.liveOf w) (fun _ => Strand.resumed)).WeftKept
      (l.foldl (fun t e => if p e then t.endSlice k w e.1 false else t) t) k w := by
  induction l generalizing t with
  | nil => exact .inl h
  | cons e l ih =>
    rw [List.foldl_cons]
    split_ifs
    · have he := h.endSlice hk e.1
      by_cases hp : e.1 = pc
      · rw [hp, hall.sliceAt_self] at he
        exact .inr (hp ▸ he.foldl_endSlice hk' hno p l)
      · rw [hall.sliceAt_other hp, State.modStrands_nil] at he
        exact ih he
    · exact ih h

theorem State.expireSlices_eq_foldl (s : State) (k w : Nat) : ∃ (n : Nat) (l : List (Word × Nat)),
    s.expireSlices k w = l.foldl (fun t e => if e.2 + n ≤ s.clock then t.endSlice k w e.1 false else t) s := by
  unfold State.expireSlices
  split
  · exact ⟨_, _, rfl⟩
  · exact ⟨0, [], rfl⟩

/-- A weft that the core has the lanes for is not cut (R112, R119). -/
theorem State.reslice_of_fits (hk : s.skein? k = some sk)
    (hg : ∀ wf, s.weft? k w = some wf → wf.g ≤ 4 * (s.core (sk.core.getD 0)).lanes) : s.reslice k w = s := by
  unfold State.reslice
  split
  · next x wf hx hwf =>
    obtain rfl := Option.some.inj (hx.symm.trans hk)
    rw [if_neg fun hc => absurd hc.1 (hg wf hwf).not_gt]
  · rfl

theorem State.WeftKept.reslice (h : s.WeftKept t k w) (hk : s.skein? k = some sk)
    (hg : ∀ wf, s.weft? k w = some wf → wf.g ≤ 4 * (s.core (sk.core.getD 0)).lanes) : t.reslice k w = t := by
  obtain ⟨sk', hk', -, ⟨hcore, -⟩, -⟩ := h.skein hk
  refine State.reslice_of_fits hk' fun wf hwf => ?_
  have hw := h.weft?
  rw [hwf, Option.map_some, eq_comm, Option.map_eq_some_iff] at hw
  obtain ⟨wf0, hwf0, hg0⟩ := hw
  rw [h.core, hcore, ← hg0]
  exact hg wf0 hwf0

/-- Every live strand of the weft at one SLICE: they go on, and a weft that the core has the lanes for keeps its grant. -/
theorem State.WeftKept.settleSlice (h : s.WeftKept t k w) (hk : s.skein? k = some sk) (hall : sk.AllSlice w pc)
    {sk' : Skein} (hk' : (s.modStrands k (sk.liveOf w) (fun _ => Strand.resumed)).skein? k = some sk')
    (hno : sk'.NoSlice w) (hne : sk'.liveOf w ≠ [])
    (hg : ∀ wf, (s.modStrands k (sk.liveOf w) (fun _ => Strand.resumed)).weft? k w = some wf →
      wf.g ≤ 4 * (s.core (sk'.core.getD 0)).lanes) :
    (s.modStrands k (sk.liveOf w) (fun _ => Strand.resumed)).WeftKept (t.settleSlice k w) k w := by
  obtain ⟨n, l, hexp⟩ := t.expireSlices_eq_foldl k w
  have hfold := h.foldl_endSlice_waiting hk hall hk' hno (fun e => e.2 + n ≤ t.clock) l
  rw [← hexp] at hfold
  unfold State.settleSlice
  rcases hfold with hu | hu
  · obtain ⟨u, hsk, hs, -, hl⟩ := hu.skein hk
    have hend := hu.endSlice hk pc
    rw [hall.sliceAt_self] at hend
    have htrue : (t.expireSlices k w).endSlice k w pc true = ((t.expireSlices k w).endSlice k w pc false).reslice k w := by
      simp only [State.endSlice, hsk, if_true, Bool.false_eq_true, if_false]
    simp only [hsk, Option.bind_some, Skein.sliceReady_congr hs (hl w), hall.sliceReady, htrue, hend.reslice hk' hg]
    exact hend
  · obtain ⟨u, hsk, hs, -, hl⟩ := hu.skein hk'
    obtain ⟨m, hm⟩ := List.exists_mem_of_ne_nil _ hne
    obtain ⟨x, hx, -⟩ := (Skein.mem_liveOf.mp hm).2
    simp only [hsk, Option.bind_some, Skein.sliceReady_congr hs (hl w), Skein.sliceReady_eq_none hm hx (hno m hm x hx)]
    exact hu

/-- No SLICE wait of the weft has lasted JTIMEOUT. -/
theorem State.expireSlices_of_lt (hk : s.skein? k = some sk)
    (hlt : ∀ wf, s.weft? k w = some wf → ∀ e ∈ wf.sliceSince, s.clock < e.2 + sk.jtimeout) : s.expireSlices k w = s := by
  unfold State.expireSlices
  split
  · next x wf hx hwf =>
    obtain rfl := Option.some.inj (hx.symm.trans hk)
    have hlt := hlt wf hwf
    generalize wf.sliceSince = l at hlt
    induction l with
    | nil => rfl
    | cons e l ih =>
      rw [List.foldl_cons, if_neg (hlt e (List.mem_cons_self ..)).not_ge]
      exact ih fun e he => hlt e (List.mem_cons_of_mem _ he)
  · rfl

end

end Sys2Proof.Machine
end

section
/-! SETW, SLICE and WSYNC at an issue (R115 to R120). -/

namespace Sys2Proof.Machine

section
variable {s : State} {sk : Skein}

/-! ### While a live strand has not come -/

section
variable (m : Nat) {y : Strand} (hs : m ∉ s.cur.strands) (hy : s.strand? s.cur.skein m = some y) (hr : y.status = .ready)
include hs hy hr

theorem State.CanRun.setw_waits {c l : BitVec 1} {n x : BitVec 3} (h : s.CanRun sk (.setw c n x l)) (hm : m ∈ sk.live) :
    goesTo (exec (.setw c n x l) s) (fun t => s.WaitsAt t (.setw n.toNat x.toNat (l == 1))) := by
  have hget := (h.1.get_arrived_other (.setw n.toNat x.toNat (l == 1)) hs).trans ((h.1.strand? m).symm.trans hy)
  have hsettle := State.settleSetw_of_ready (h.1.skein?_arrived _) ((h.1.mem_live_arrived _ hs).mpr hm) hget hr
  exact State.word_waitsAt h (congrArg (Prod.mk true) hsettle) rfl rfl (fun _ _ => rfl)

theorem State.CanRun.wsync_waits {c : BitVec 1} {g : BitVec 3} (h : s.CanRun sk (.wsync c g)) (hm : m ∈ sk.liveOf s.cur.weft) :
    goesTo (exec (.wsync c g) s) (fun t => s.WaitsAt t .wsync) := by
  have hget := (h.1.get_arrived_other .wsync hs).trans ((h.1.strand? m).symm.trans hy)
  have hsettle := State.settleWsync_of_ready (h.1.skein?_arrived _) ((h.1.mem_liveOf_arrived _ hs).mpr hm) hget hr
  exact State.word_waitsAt h (congrArg (Prod.mk true) hsettle) rfl rfl (fun _ _ => rfl)

end

/-- The first arrival at a SLICE starts its timer (R119). -/
def Weft.sliceFrom (pc : Word) (clock : Nat) (wf : Weft) : Weft :=
  if wf.sliceSince.any (fun e => e.1 == pc) then wf else { wf with sliceSince := wf.sliceSince ++ [(pc, clock)] }

theorem Weft.g_sliceFrom (pc : Word) (clock : Nat) (wf : Weft) : (wf.sliceFrom pc clock).g = wf.g := by
  unfold Weft.sliceFrom
  split_ifs <;> rfl

theorem Weft.mem_sliceSince_sliceFrom {pc : Word} {clock : Nat} {wf : Weft} {e : Word × Nat}
    (he : e ∈ (wf.sliceFrom pc clock).sliceSince) : e ∈ wf.sliceSince ∨ e = (pc, clock) := by
  unfold Weft.sliceFrom at he
  split_ifs at he
  · exact .inl he
  · simpa using he

/-- The strands of the issue set have come to a SLICE, once the waits that JTIMEOUT ends are over. -/
def State.atSlice (s : State) : State :=
  ((s.expireSlices s.cur.skein s.cur.weft).modStrands s.cur.skein s.cur.strands (fun _ => Strand.awaiting .slice)).modWeft
    s.cur.skein s.cur.weft (Weft.sliceFrom s.cur.pc s.clock)

theorem exec_slice (c : BitVec 1) (s : State) :
    exec (.slice c) s = s.word (.slice c) (fun _ t => (true, t.atSlice.settleSlice t.cur.skein t.cur.weft)) := rfl

/-- Where no wait has lasted JTIMEOUT, the weft's timer is all that changes but for the strands that come. -/
theorem State.Issuing.atSlice_of_lt (h : s.Issuing sk)
    (hlt : ∀ wf, s.weft? s.cur.skein s.cur.weft = some wf → ∀ e ∈ wf.sliceSince, s.clock < e.2 + sk.jtimeout) :
    s.atSlice = (s.arrived .slice).modWeft s.cur.skein s.cur.weft (Weft.sliceFrom s.cur.pc s.clock) := by
  rw [State.atSlice, State.expireSlices_of_lt h.1 hlt]
  rfl

/-- With a live strand still READY and no wait that has lasted JTIMEOUT, the SLICE is not over. -/
theorem State.Issuing.settleSlice_atSlice_waits (h : s.Issuing sk) (hj : 0 < sk.jtimeout)
    (hlt : ∀ wf, s.weft? s.cur.skein s.cur.weft = some wf → ∀ e ∈ wf.sliceSince, s.clock < e.2 + sk.jtimeout)
    {m : Nat} {y : Strand} (hs : m ∉ s.cur.strands) (hy : s.strand? s.cur.skein m = some y) (hr : y.status = .ready)
    (hm : m ∈ sk.liveOf s.cur.weft) : s.atSlice.settleSlice s.cur.skein s.cur.weft = s.atSlice := by
  have hkept : (s.arrived .slice).WeftKept s.atSlice s.cur.skein s.cur.weft :=
    h.atSlice_of_lt hlt ▸ (State.WeftKept.refl ..).modWeft (Weft.g_sliceFrom _ _)
  obtain ⟨sk', hk', hstr, ⟨-, hjt⟩, hl⟩ := hkept.skein (h.skein?_arrived .slice)
  have hexp : s.atSlice.expireSlices s.cur.skein s.cur.weft = s.atSlice := by
    refine State.expireSlices_of_lt hk' fun wf hwf e he => ?_
    rw [h.atSlice_of_lt hlt, State.weft?_modWeft, if_pos ⟨rfl, rfl⟩, State.arrived, State.weft?_modStrands] at hwf
    obtain ⟨wf0, hwf0, rfl⟩ := Option.map_eq_some_iff.mp hwf
    have hclock : s.atSlice.clock = s.clock := hkept.clock
    rw [hclock, hjt]
    rcases Weft.mem_sliceSince_sliceFrom he with he | rfl
    · exact hlt wf0 hwf0 e he
    · exact Nat.lt_add_of_pos_right hj
  have hnone : sk'.sliceReady s.cur.weft = none := by
    rw [Skein.sliceReady_congr hstr (hl _)]
    exact Skein.sliceReady_eq_none ((h.mem_liveOf_arrived _ hs).mpr hm)
      ((h.get_arrived_other _ hs).trans ((h.strand? m).symm.trans hy)) (by rw [hr]; exact Status.noConfusion)
  simp only [State.settleSlice, hexp, hk', Option.bind_some, hnone]

theorem State.CanRun.slice_waits {c : BitVec 1} (h : s.CanRun sk (.slice c)) (hj : 0 < sk.jtimeout)
    (hlt : ∀ wf, s.weft? s.cur.skein s.cur.weft = some wf → ∀ e ∈ wf.sliceSince, s.clock < e.2 + sk.jtimeout)
    {m : Nat} {y : Strand} (hs : m ∉ s.cur.strands) (hy : s.strand? s.cur.skein m = some y) (hr : y.status = .ready)
    (hm : m ∈ sk.liveOf s.cur.weft) : goesTo (exec (.slice c) s) (fun t => s.WaitsAt t .slice) := by
  have hsettle := (h.1.settleSlice_atSlice_waits hj hlt hs hy hr hm).trans (h.1.atSlice_of_lt hlt)
  rw [exec_slice]
  exact State.word_waitsAt h (congrArg (Prod.mk true) hsettle) rfl rfl (fun a j => State.strand?_modWeft ..)

/-! ### When the issue set is every live strand -/

/-- The issue set is every live strand that a rendezvous waits for, READY at one PC. -/
def State.OneSet (s : State) (all : List Nat) : Prop := s.cur.strands ≠ [] ∧ (∀ j, j ∈ s.cur.strands ↔ j ∈ all) ∧
  ∀ j ∈ s.cur.strands, ∀ y, s.strand? s.cur.skein j = some y → y.status = .ready ∧ y.pc = s.cur.pc

theorem State.OneSet.ne_nil {all : List Nat} (h : s.OneSet all) : all ≠ [] := by
  obtain ⟨j, hj⟩ := List.exists_mem_of_ne_nil _ h.1
  exact List.ne_nil_of_mem ((h.2.1 j).mp hj)

theorem State.OneSet.mem {all : List Nat} (h : s.OneSet all) (j : Nat) : j ∈ s.cur.strands ↔ j ∈ all := h.2.1 j

theorem State.OneSet.ready {all : List Nat} (h : s.OneSet all) :
    ∀ j ∈ s.cur.strands, ∀ y, s.strand? s.cur.skein j = some y → y.status = .ready := fun j hj y hy => (h.2.2 j hj y hy).1

theorem State.OneSet.at_pc {all : List Nat} (h : s.OneSet all) :
    ∀ j ∈ s.cur.strands, ∀ y, s.strand? s.cur.skein j = some y → y.pc = s.cur.pc := fun j hj y hy => (h.2.2 j hj y hy).2

theorem State.CanRun.wsync_goes {c : BitVec 1} {g : BitVec 3} (h : s.CanRun sk (.wsync c g))
    (ho : s.OneSet (sk.liveOf s.cur.weft)) :
    goesTo (exec (.wsync c g) s) (fun t => s.StrandsDone t 7 (fun _ y => y.advance) ∧ s.OnlyStrands t) := by
  have hlive := h.1.liveOf_arrived .wsync ho.ready s.cur.weft
  have hsettle : (s.arrived .wsync).settleWsync s.cur.skein s.cur.weft = s.goneOn := by
    rw [State.settleWsync_of_waiting (h.1.skein?_arrived .wsync) (hlive ▸ ho.ne_nil)
      (fun j hj => h.1.waiting_arrived .wsync ho.mem ho.at_pc (hlive ▸ hj)), hlive]
    exact h.1.arrived_resumed _ (sk.liveOf_nodup _) (fun j => (ho.mem j).symm) ho.ready
  refine ⟨_, State.word_of_body h (congrArg (Prod.mk true) hsettle), ?_⟩
  rw [State.reportDenied_nil (by exact h.1.not_denied)]
  exact ⟨h.1.strandsDone_goneOn fun _ _ => State.strand?_count ..,
    (s.onlyStrands_modStrands _ _).trans (State.onlyStrands_count _ 0 1)⟩

theorem State.CanRun.setw_goes {c l : BitVec 1} {n x : BitVec 3} (h : s.CanRun sk (.setw c n x l)) (ho : s.OneSet sk.live)
    {grant : Nat} (hg : setGrant (s.eligibleFor sk) (8 * 2 ^ n.toNat) (8 * 2 ^ x.toNat) (l == 1) = grant) (hne : grant ≠ 0) :
    goesTo (exec (.setw c n x l) s) (fun t => s.StrandsDone t 7 (fun _ y => y.advance) ∧ t.homes = s.homes ∧
      ∀ w, t.weft? s.cur.skein w = if w % grant = 0 ∧ w < sk.nstrand then some (Weft.fresh grant) else none) := by
  have hmem := h.1.mem_live_arrived_iff (.setw n.toNat x.toNat (l == 1)) ho.ready
  have hsettle := State.settleSetw_of_waiting (a := n.toNat) (b := x.toNat) (l := l == 1) (pc := s.cur.pc)
    (h.1.skein?_arrived (.setw n.toNat x.toNat (l == 1)))
    (fun he => by
      obtain ⟨j, hj⟩ := List.exists_mem_of_ne_nil _ ho.ne_nil
      exact absurd ((hmem j).mpr hj) (he ▸ List.not_mem_nil))
    (fun j hj => h.1.waiting_arrived _ ho.mem ho.at_pc ((hmem j).mp hj)) (hg ▸ hne)
  rw [h.1.arrived_resumed _ (Skein.live_nodup (h.1.wf_arrived _)) (fun j => (hmem j).trans (ho.mem j).symm) ho.ready] at hsettle
  refine ⟨_, State.word_of_body h (congrArg (Prod.mk true) hsettle), ?_⟩
  rw [State.reportDenied_nil ((State.killLoads_cur ..).symm ▸ h.1.not_denied)]
  refine ⟨h.1.strandsDone_goneOn fun a j => ?_, State.killLoads_homes .., fun w => ?_⟩
  · rw [State.strand?_count, State.strand?_killLoads, State.strand?_regrouped]
  · rw [State.weft?_count, State.weft?_killLoads]
    exact hg ▸ State.weft?_regrouped h.1.skein?_goneOn (hg ▸ hne) w

/-- Where the issue set is every live strand of the weft, and those are READY, none waits at a SLICE. -/
theorem State.OneSet.noSlice (ho : s.OneSet (sk.liveOf s.cur.weft)) (h : s.Issuing sk) : sk.NoSlice s.cur.weft := by
  intro j hj x hx
  rw [ho.ready j ((ho.mem j).mpr hj) x ((h.strand? j).trans hx)]
  exact Status.noConfusion

theorem State.OneSet.noSlice_goneOn (ho : s.OneSet (sk.liveOf s.cur.weft)) (h : s.Issuing sk) :
    (sk.goneOn s.cur.strands).NoSlice s.cur.weft := by
  intro j hj x hx
  rw [h.liveOf_goneOn] at hj
  rw [Skein.goneOn, Tab.get_foldl_upd (fun _ => Strand.advance) h.nodup, if_pos ((ho.mem j).mpr hj), Option.map_eq_some_iff] at hx
  obtain ⟨y, hy, rfl⟩ := hx
  exact ho.noSlice h j hj y hy

/-- The last arrival at a SLICE: the strands go on, and the weft keeps its grant where the core has the lanes for it. -/
theorem State.OneSet.settleSlice_atSlice (ho : s.OneSet (sk.liveOf s.cur.weft)) (h : s.Issuing sk) {wf : Weft}
    (hwf : s.weft? s.cur.skein s.cur.weft = some wf) (hg : wf.g ≤ 4 * (s.core (sk.core.getD 0)).lanes) :
    s.goneOn.WeftKept (s.atSlice.settleSlice s.cur.skein s.cur.weft) s.cur.skein s.cur.weft := by
  have hlive := h.liveOf_arrived .slice ho.ready s.cur.weft
  have hall : (sk.arrived s.cur.strands .slice).AllSlice s.cur.weft s.cur.pc :=
    ⟨hlive ▸ ho.ne_nil, fun j hj => h.waiting_arrived .slice ho.mem ho.at_pc (hlive ▸ hj)⟩
  have hgone : (s.arrived .slice).modStrands s.cur.skein ((sk.arrived s.cur.strands .slice).liveOf s.cur.weft)
      (fun _ => Strand.resumed) = s.goneOn :=
    h.arrived_resumed .slice (Skein.liveOf_nodup ..) (fun j => hlive ▸ (ho.mem j).symm) ho.ready
  obtain ⟨n, es, hexp⟩ := s.expireSlices_eq_foldl s.cur.skein s.cur.weft
  have hbefore : s.WeftKept (s.expireSlices s.cur.skein s.cur.weft) s.cur.skein s.cur.weft :=
    hexp ▸ (State.WeftKept.refl ..).foldl_endSlice h.1 (ho.noSlice h) (fun e => e.2 + n ≤ s.clock) es
  have hkept : (s.arrived .slice).WeftKept s.atSlice s.cur.skein s.cur.weft :=
    (hbefore.modStrands _ _).modWeft (Weft.g_sliceFrom _ _)
  rw [← hgone]
  refine hkept.settleSlice (h.skein?_arrived .slice) hall (hgone ▸ h.skein?_goneOn) (ho.noSlice_goneOn h)
    (h.liveOf_goneOn s.cur.weft ▸ ho.ne_nil) fun x hx => ?_
  rw [hgone, State.goneOn, State.weft?_modStrands, hwf] at hx
  exact Option.some.inj hx ▸ hg

theorem State.CanRun.slice_goes {c : BitVec 1} (h : s.CanRun sk (.slice c)) (ho : s.OneSet (sk.liveOf s.cur.weft)) {wf : Weft}
    (hwf : s.weft? s.cur.skein s.cur.weft = some wf) (hg : wf.g ≤ 64 * (s.core (sk.core.getD 0)).quads) :
    goesTo (exec (.slice c) s) (fun t => s.StrandsDone t 7 (fun _ y => y.advance) ∧ t.homes = s.homes ∧
      ∃ wf', t.weft? s.cur.skein s.cur.weft = some wf' ∧ wf'.g = wf.g) := by
  have hend := ho.settleSlice_atSlice h.1 hwf (by rw [CoreSt.lanes]; omega)
  refine ⟨_, (exec_slice c s).trans (State.word_of_body h rfl), ?_⟩
  rw [State.reportDenied_nil ((congrArg Issue.denied hend.cur).trans h.1.not_denied)]
  refine ⟨h.1.strandsDone_goneOn fun a j => (State.strand?_count ..).trans (hend.strand? a j), hend.homes, ?_⟩
  have hw := hend.weft?
  rw [State.goneOn, State.weft?_modStrands, hwf, Option.map_some, Option.map_eq_some_iff] at hw
  obtain ⟨wf', hwf', hg'⟩ := hw
  exact ⟨wf', (State.weft?_count ..).trans hwf', hg'⟩

end

/-- Settles O23: each word waits for the strands that are not there, and ends with the last of them. -/
theorem widthWords : Obligations.WidthWords := by
  unfold Obligations.WidthWords
  intro c l n x g s sk waits oneSet grant
  refine ⟨?setwWaits, ?sliceWaits, ?wsyncWaits, ?setw, ?wsync, ?slice⟩
  case setwWaits => exact fun m hm h hs ⟨y, hy, hr⟩ => h.setw_waits m hs hy hr hm
  case sliceWaits => exact fun hj hlt m hm h hs ⟨y, hy, hr⟩ => h.slice_waits hj hlt hs hy hr hm
  case wsyncWaits => exact fun m hm h hs ⟨y, hy, hr⟩ => h.wsync_waits m hs hy hr hm
  case setw => exact fun h ho hne => h.setw_goes ho rfl hne
  case wsync => exact fun h ho => h.wsync_goes ho
  case slice => exact fun wf h ho hwf hg => h.slice_goes ho hwf hg

end Sys2Proof.Machine
end

section
/-! What leaves the skeins as they are. A step changes the skeins through few operations (`State.modSkein` and what is made
of it, starting and freeing a skein, restart); every other operation of the model keeps the field. Here each of those says
so once, as a rule `simp` uses, in the order in which the model composes them. -/

namespace Sys2Proof.Machine

@[simp] theorem foldl_skeins {β : Type} (f : State → β → State) (hf : ∀ s b, (f s b).skeins = s.skeins) (l : List β)
    (s : State) : (l.foldl f s).skeins = s.skeins := by
  induction l generalizing s with
  | nil => rfl
  | cons b l ih => exact (ih (f s b)).trans (hf s b)

@[simp] theorem elim_skeins {α : Type} (o : Option α) (f : α → State) (s : State) (hf : ∀ a, (f a).skeins = s.skeins) :
    (o.elim s f).skeins = s.skeins := by
  cases o with
  | none => rfl
  | some a => exact hf a

@[simp] theorem elim_addMeter_skeins (s : State) (o : Option Nat) (i n : Nat) :
    (o.elim s fun p => s.addMeter p i n).skeins = s.skeins := by
  cases o <;> rfl

@[simp] theorem ite_skeins {p : Prop} [Decidable p] (t u : State) :
    (if p then t else u).skeins = if p then t.skeins else u.skeins := apply_ite State.skeins p t u

theorem foldl_pair_skeins {α β : Type} (f : α × State → β → α × State) (hf : ∀ a b, (f a b).2.skeins = a.2.skeins) (l : List β)
    (a : α × State) : (l.foldl f a).2.skeins = a.2.skeins := by
  induction l generalizing a with
  | nil => rfl
  | cons b l ih => exact (ih (f a b)).trans (hf a b)

theorem foldr_pair_skeins {α β : Type} (f : β → State × α → State × α) (hf : ∀ b a, (f b a).1.skeins = a.1.skeins)
    (l : List β) (a : State × α) : (l.foldr f a).1.skeins = a.1.skeins := by
  induction l with
  | nil => rfl
  | cons b l ih => exact (hf b _).trans ih

/-- Steps that may fail, one after another: where they end, they began, and each kept the skeins. -/
theorem foldl_bind_skeins {β : Type} {f : State → β → Option State}
    (hf : ∀ s b t, f s b = some t → t.skeins = s.skeins) (l : List β) {o : Option State} {t : State}
    (h : l.foldl (fun o b => o.bind (fun s => f s b)) o = some t) : ∃ s, o = some s ∧ t.skeins = s.skeins := by
  induction l generalizing o with
  | nil => exact ⟨t, h, rfl⟩
  | cons b l ih =>
    obtain ⟨u, hu, e⟩ := ih h
    obtain ⟨s, rfl, hs⟩ := Option.bind_eq_some_iff.mp hu
    exact ⟨s, rfl, e.trans (hf s b u hs)⟩

/-! ### Meters, the fabric, records and rings -/

@[simp] theorem State.addMeter_skeins (s : State) (part i n : Nat) : (s.addMeter part i n).skeins = s.skeins := rfl

@[simp] theorem State.fabricBytes_skeins (s : State) (ctx n : Nat) : (s.fabricBytes ctx n).skeins = s.skeins := by
  unfold State.fabricBytes
  split <;> rfl

@[simp] theorem State.tell_skeins (s : State) (m : FabricMsg) : (s.tell m).skeins = s.skeins := rfl

@[simp] theorem State.tellFor_skeins (s : State) (part : Option Nat) (m : FabricMsg) :
    (s.tellFor part m).skeins = s.skeins := by
  unfold State.tellFor
  simp

@[simp] theorem State.sendFar_skeins (s : State) (station va : Nat) (p : Payload) :
    (s.sendFar station va p).skeins = s.skeins := by
  unfold State.sendFar
  simp

@[simp] theorem State.spent_skeins (s : State) (va n : Nat) : (s.spent va n).skeins = s.skeins := by
  unfold State.spent
  simp

@[simp] theorem State.unitSent_skeins (s : State) (station domain va n : Nat) :
    (s.unitSent station domain va n).skeins = s.skeins := by
  unfold State.unitSent
  simp

@[simp] theorem State.fetched_skeins (s : State) (station domain va n : Nat) :
    (s.fetched station domain va n).skeins = s.skeins := by
  unfold State.fetched
  simp

theorem State.modWrite_skeins {s t : State} {domain gen wr core seq va : Nat} {data : List Byte}
    (h : s.modWrite domain gen wr core seq va data = .ok t) : t.skeins = s.skeins := by
  unfold State.modWrite at h
  (repeat' split at h) <;> cases h <;> simp

@[simp] theorem State.modWriteAll_skeins (s : State) (domain gen wr va fuel : Nat) (data : List Byte) :
    (s.modWriteAll domain gen wr va fuel data).1.skeins = s.skeins := by
  induction fuel generalizing s va data with
  | zero => rfl
  | succ n ih =>
    unfold State.modWriteAll
    split
    · rfl
    · dsimp only
      split
      · simp
      · next hw => rw [ih, State.modWrite_skeins hw]

theorem State.openRecord_skeins {s : State} {a : FaultAsk} {r : Nat × State} (h : s.openRecord a = some r) :
    r.2.skeins = s.skeins := by
  unfold State.openRecord at h
  dsimp only at h
  (repeat' split at h) <;> cases h <;> simp

theorem State.unitNack_skeins {s t : State} {ctx domain va code flags : Nat}
    (h : s.unitNack ctx domain va code flags = some t) : t.skeins = s.skeins := by
  unfold State.unitNack at h
  split at h
  · cases h
  · split at h
    · cases h; rfl
    · obtain ⟨r, hr, rfl⟩ := Option.map_eq_some_iff.mp h
      exact State.openRecord_skeins hr

@[simp] theorem State.writeOwed_skeins (s : State) (w : OwedWrite) : (s.writeOwed w).skeins = s.skeins := by
  unfold State.writeOwed
  dsimp only
  split
  · rfl
  · split
    · next hw => exact State.modWrite_skeins hw
    · cases hn : s.unitNack _ _ _ _ _ with
      | none => rfl
      | some t => exact State.unitNack_skeins hn

@[simp] theorem State.settleOwed_skeins (s : State) : (s.settleOwed).skeins = s.skeins := by
  unfold State.settleOwed
  simp

@[simp] theorem State.owe_skeins (s : State) (ctx part : Nat) (ps : List (Nat × List Byte)) :
    (s.owe ctx part ps).skeins = s.skeins := by
  unfold State.owe
  simp

theorem State.ringWrite_skeins {s t : State} {qn : Nat} {record : List Byte} (h : s.ringWrite qn record = some t) :
    t.skeins = s.skeins := by
  unfold State.ringWrite at h
  dsimp only at h
  split at h
  · cases h; rfl
  · split at h
    · next hw =>
      cases h
      simpa using State.modWrite_skeins hw
    · obtain ⟨r, hr, rfl⟩ := Option.map_eq_some_iff.mp h
      simpa using State.unitNack_skeins hr

@[simp] theorem State.drainEvents_skeins (n : Nat) (s : State) (qn : Nat) : (State.drainEvents n s qn).skeins = s.skeins := by
  induction n generalizing s with
  | zero => rfl
  | succ n ih =>
    unfold State.drainEvents
    split
    · rfl
    · split
      · rfl
      · split
        · split
          · rfl
          · next hw => rw [ih, State.ringWrite_skeins hw]
        · rfl

@[simp] theorem State.toEventQueue_skeins (s : State) (qn : Nat) (record : List Byte) :
    (s.toEventQueue qn record).skeins = s.skeins := by
  unfold State.toEventQueue
  dsimp only
  (repeat' split) <;> simp

@[simp] theorem State.raise_skeins (s : State) (host : Bool) (code sev src : Nat) (part ctx : Option Nat) (dest : List Nat)
    (body : List Byte) : (s.raise host code sev src part ctx dest body).skeins = s.skeins := by
  unfold State.raise
  dsimp only
  rw [foldl_skeins _ (fun t p => by split <;> simp)]
  split <;> rfl

@[simp] theorem State.freeBlocks_skeins (s : State) (b : Nat) : (s.freeBlocks b).skeins = s.skeins := by
  unfold State.freeBlocks
  split <;> rfl

@[simp] theorem State.raiseFault_skeins (s : State) (ctx cause src strand pc boltIx skeinIx relaunches info : Nat) (relaunched faulted : Bool) :
    (s.raiseFault ctx cause src strand pc boltIx skeinIx relaunches info relaunched faulted).skeins = s.skeins := by
  unfold State.raiseFault
  simp

@[simp] theorem State.reuseEnter_skeins (s : State) (core : Nat) (e : ReuseEntry) :
    (s.reuseEnter core e).skeins = s.skeins := rfl

@[simp] theorem State.killLoads_skeins (s : State) (k : Nat) (gs : List Nat) : (s.killLoads k gs).skeins = s.skeins := by
  unfold State.killLoads
  (repeat' split) <;> simp

@[simp] theorem State.deliverFault_skeins (s : State) (id : Nat) : (s.deliverFault id).skeins = s.skeins := by
  unfold State.deliverFault
  dsimp only
  split
  · rfl
  · split_ifs
    · rfl
    · rfl
    · split
      · rfl
      · split
        · rfl
        · split_ifs
          · split
            · next hw => rw [State.modHomes_skeins, State.ringWrite_skeins hw]
            · rfl
          · rfl

theorem State.openFault_skeins {s : State} {a : FaultAsk} {r : Nat × State} (h : s.openFault a = some r) :
    r.2.skeins = s.skeins := by
  obtain ⟨q, hq, rfl⟩ := Option.map_eq_some_iff.mp h
  exact (State.deliverFault_skeins _ _).trans (State.openRecord_skeins hq)

@[simp] theorem State.raiseFrozen_skeins (s : State) (kind cause ctx va id weft : Nat) :
    (s.raiseFrozen kind cause ctx va id weft).skeins = s.skeins := by
  unfold State.raiseFrozen
  simp

/-! ### Requests, write-combining and the first-level caches -/

@[simp] theorem State.nextSeq_skeins (s : State) (c : Nat) : (s.nextSeq c).skeins = s.skeins := rfl

@[simp] theorem State.stageAll_skeins (s : State) (id : Nat) (st : ReqStage) : (s.stageAll id st).skeins = s.skeins := rfl

@[simp] theorem State.send_skeins (s : State) (id : Nat) : (s.send id).skeins = s.skeins := by
  unfold State.send
  split <;> simp

@[simp] theorem State.releasePorts_skeins (s : State) : (s.releasePorts).skeins = s.skeins := by
  unfold State.releasePorts
  simp

@[simp] theorem State.farReply_skeins (s : State) (r : Req) : (s.farReply r).skeins = s.skeins := by
  unfold State.farReply
  split <;> rfl

@[simp] theorem State.endReq_skeins (s : State) (id : Nat) : (s.endReq id).skeins = s.skeins := by
  unfold State.endReq
  (repeat' split) <;> simp

@[simp] theorem State.noFillLine_skeins (s : State) (g domain va : Nat) :
    (s.noFillLine g domain va).skeins = s.skeins := rfl

@[simp] theorem State.dropL1_skeins (s : State) (g domain va : Nat) : (s.dropL1 g domain va).skeins = s.skeins := rfl

@[simp] theorem State.l1Write_skeins (s : State) (g domain va : Nat) (data : List Byte) :
    (s.l1Write g domain va data).skeins = s.skeins := rfl

@[simp] theorem State.l1Store_skeins (s : State) (g domain va : Nat) (data : List Byte) :
    (s.l1Store g domain va data).skeins = s.skeins := rfl

@[simp] theorem State.setReached_skeins (s : State) (id t : Nat) : (s.setReached id t).skeins = s.skeins := by
  unfold State.setReached
  split <;> simp

@[simp] theorem State.reachAll_skeins (s : State) (k : Nat) (ms : List Nat) : (s.reachAll k ms).skeins = s.skeins := by
  unfold State.reachAll
  simp

@[simp] theorem State.reachNow_skeins (s : State) (id : Nat) : (s.reachNow id).skeins = s.skeins := by
  unfold State.reachNow
  split <;> simp

@[simp] theorem State.sendEntry_skeins (s : State) (e : WcEntry) : (s.sendEntry e).skeins = s.skeins := by
  unfold State.sendEntry
  split <;> simp

@[simp] theorem State.sendWc_skeins (s : State) (c : Nat) (p : WcEntry → Bool) : (s.sendWc c p).skeins = s.skeins := by
  unfold State.sendWc
  simp

@[simp] theorem State.sendWcLine_skeins (s : State) (c domain va : Nat) :
    (s.sendWcLine c domain va).skeins = s.skeins := by
  unfold State.sendWcLine
  simp

@[simp] theorem State.intoWc_skeins (s : State) (id : Nat) : (s.intoWc id).skeins = s.skeins := by
  unfold State.intoWc
  dsimp only
  (repeat' split) <;> simp

@[simp] theorem State.killGlobal_skeins (s : State) (c domain va n : Nat) :
    (s.killGlobal c domain va n).skeins = s.skeins := rfl

@[simp] theorem State.killScratch_skeins (s : State) (c p n : Nat) : (s.killScratch c p n).skeins = s.skeins := rfl

@[simp] theorem State.killContext_skeins (s : State) (c ctx : Nat) : (s.killContext c ctx).skeins = s.skeins := rfl

theorem State.takeTokens_skeins {s t : State} {part point bytes : Nat} (h : s.takeTokens part point bytes = some t) :
    t.skeins = s.skeins := by
  unfold State.takeTokens at h
  dsimp only at h
  (repeat' split at h) <;> cases h <;> simp

theorem State.poolTokens_skeins {s t : State} {ctx domain va n bytes : Nat} {s2 : Stage2}
    (h : s.poolTokens ctx domain va n bytes s2 = some t) : t.skeins = s.skeins := by
  unfold State.poolTokens at h
  dsimp only at h
  split at h
  · cases h; rfl
  · exact State.takeTokens_skeins h

@[simp] theorem State.settleStore_skeins (s : State) (id p : Nat) : (s.settleStore id p).skeins = s.skeins := by
  unfold State.settleStore
  (repeat' split) <;> simp

@[simp] theorem State.settleStores_skeins (s : State) (k c domain va p : Nat) :
    (s.settleStores k c domain va p).skeins = s.skeins := by
  unfold State.settleStores
  simp

@[simp] theorem State.noteLoad_skeins (s : State) (c dom va n m : Nat) : (s.noteLoad c dom va n m).skeins = s.skeins := rfl

@[simp] theorem State.loadValue_skeins (s : State) (k c i seq dom va n lo hi p : Nat) (vol : Bool) (want : Option Nat) :
    (s.loadValue k c i seq dom va n lo hi p vol want).2.skeins = s.skeins := by
  unfold State.loadValue
  simp

@[simp] theorem State.putL1_skeins (s : State) (g : Nat) (l : L1Line) : (s.putL1 g l).skeins = s.skeins := by
  unfold State.putL1
  dsimp only
  (repeat' split) <;> simp

@[simp] theorem State.farSeen_skeins (s : State) (g domain va : Nat) (bytes : List Byte) :
    (s.farSeen g domain va bytes).skeins = s.skeins := by
  unfold State.farSeen
  split <;> simp

@[simp] theorem State.fillL1_skeins (s : State) (r : Req) (key : Nat) (bytes : List Byte) :
    (s.fillL1 r key bytes).skeins = s.skeins := by
  unfold State.fillL1
  simp

@[simp] theorem State.l1Bytes_skeins (s : State) (g dom va n : Nat) (l : L1Line) :
    (s.l1Bytes g dom va n l).2.skeins = s.skeins := rfl

@[simp] theorem State.hitValue_skeins (s : State) (k c i seq dom va n : Nat) (l : L1Line) (want : Option Nat) :
    (s.hitValue k c i seq dom va n l want).2.skeins = s.skeins := by
  unfold State.hitValue
  split <;> simp

/-! ### Launches, watches, captures -/

@[simp] theorem State.modLaunch_skeins (s : State) (l : Nat) (f : Launch → Launch) :
    (s.modLaunch l f).skeins = s.skeins := rfl

@[simp] theorem State.admitRecord_skeins (s : State) (l : Nat) : (s.admitRecord l).skeins = s.skeins := by
  unfold State.admitRecord
  (repeat' split) <;> simp

@[simp] theorem State.testStored_skeins (s : State) (ctx : Nat) : (s.testStored ctx).skeins = s.skeins := by
  unfold State.testStored
  simp

@[simp] theorem State.submit_skeins (s : State) (ctx : Nat) (device : Bool) (r : LaunchRec) (kern : Kernel) (bytes : List Byte) :
    (s.submit ctx device r kern bytes).2.2.skeins = s.skeins := by
  unfold State.submit
  dsimp only
  (repeat' split) <;> simp

@[simp] theorem State.trigger_skeins (s : State) (k : Nat) : (s.trigger k).skeins = s.skeins := by
  unfold State.trigger
  (repeat' split) <;> simp

@[simp] theorem State.setDirty_skeins (s : State) (k : Nat) : (s.setDirty k).skeins = s.skeins := by
  unfold State.setDirty
  split <;> rfl

@[simp] theorem issuedDirty_skeins (k : Nat) (r : Attempt) : (issuedDirty k r).2.skeins = r.2.skeins := by
  unfold issuedDirty
  split
  · exact State.setDirty_skeins _ _
  · rfl

@[simp] theorem State.farWake_skeins (s : State) (core : Nat) (w : Watch) : (s.farWake core w).skeins = s.skeins := by
  unfold State.farWake
  simp

theorem State.cancelWatch_skeins {s : State} {core : Nat} {w : Watch} {r : (Nat × Nat × Word) × State}
    (h : s.cancelWatch core w = some r) : r.2.skeins = s.skeins := by
  unfold State.cancelWatch at h
  split at h
  · cases h; rfl
  · split at h
    · cases h; rfl
    · obtain ⟨q, hq, rfl⟩ := Option.map_eq_some_iff.mp h
      exact State.openFault_skeins hq
  · cases h; rfl
  · cases h

@[simp] theorem State.capture_skeins (s : State) (quad source target v : Nat) :
    (s.capture quad source target v).skeins = s.skeins := by
  unfold State.capture
  simp

/-! ### Health, preemption, banks -/

@[simp] theorem State.checkHealth_skeins (s : State) (channelFault : Bool) :
    (s.checkHealth channelFault).skeins = s.skeins := by
  unfold State.checkHealth
  simp

@[simp] theorem State.settleMeters_skeins (s : State) : (s.settleMeters).skeins = s.skeins := by
  unfold State.settleMeters
  exact foldl_skeins _ (fun _ _ => by split <;> simp) _ _

@[simp] theorem State.askPreempt_skeins (s : State) (part : Nat) (ctxs : List Nat) (after : Bool) :
    (s.askPreempt part ctxs after).skeins = s.skeins := by
  unfold State.askPreempt
  dsimp only
  split
  · rfl
  · rw [State.modPart_skeins, foldl_skeins]
    intro t c
    rw [foldl_skeins _ fun _ _ => State.modBolt_skeins .., State.modCtx_skeins]

@[simp] theorem State.settleOffline_skeins (s : State) : (s.settleOffline).skeins = s.skeins := by
  unfold State.settleOffline
  simp

@[simp] theorem State.modScratch_skeins (s : State) (c : Nat) (f : Scratch → Scratch) :
    (s.modScratch c f).skeins = s.skeins := rfl

@[simp] theorem State.raiseDegraded_skeins (s : State) (c g : Nat) (ctx : Option Nat) (off : Bool) :
    (s.raiseDegraded c g ctx off).skeins = s.skeins := by
  unfold State.raiseDegraded
  simp

@[simp] theorem State.raiseRetired_skeins (s : State) (c bank cause : Nat) (ctx : Option Nat) :
    (s.raiseRetired c bank cause ctx).skeins = s.skeins := by
  unfold State.raiseRetired
  simp

@[simp] theorem State.noteEvent_skeins (s : State) (c bank : Nat) : (s.noteEvent c bank).skeins = s.skeins := rfl

@[simp] theorem State.dueRetire_skeins (s : State) (c bank cause : Nat) (ctx : Option Nat) :
    (s.dueRetire c bank cause ctx).skeins = s.skeins := rfl

@[simp] theorem State.bankEvent_skeins (s : State) (c bank : Nat) (hard : Bool) (ctx : Option Nat) :
    (s.bankEvent c bank hard ctx).skeins = s.skeins := by
  unfold State.bankEvent
  simp

@[simp] theorem State.occupy_skeins (s : State) (c n : Nat) : (s.occupy c n).skeins = s.skeins := rfl

@[simp] theorem State.startEntry_skeins (s : State) (sk : Skein) (i : Instr) (key : List (List Nat)) (scratch : Bool) (addrs : List Nat) :
    (s.startEntry sk i key scratch addrs).skeins = s.skeins := by
  unfold State.startEntry
  split <;> simp

@[simp] theorem State.entryWords_skeins (s : State) (c seq lane : Nat) (ws : List Word) :
    (s.entryWords c seq lane ws).skeins = s.skeins := rfl

@[simp] theorem State.entryDrop_skeins (s : State) (c seq : Nat) : (s.entryDrop c seq).skeins = s.skeins := rfl

@[simp] theorem State.markWrote_skeins (s : State) (c seq : Nat) : (s.markWrote c seq).skeins = s.skeins := rfl

/-! ### Posting, replies -/

@[simp] theorem State.postPlain_skeins (s : State) (r : Req) : (s.postPlain r).skeins = s.skeins := by
  unfold State.postPlain
  simp

@[simp] theorem State.post_skeins (s : State) (r : Req) : (s.post r).skeins = s.skeins := by
  unfold State.post
  simp

@[simp] theorem State.replyBytes_skeins (s : State) (r : Req) (hi moment : Nat) (ans : RemoteAns) :
    (s.replyBytes r hi moment ans).2.skeins = s.skeins := by
  unfold State.replyBytes
  (repeat' split) <;> simp

@[simp] theorem State.endStore_skeins (s : State) (id : Nat) : (s.endStore id).skeins = s.skeins := by
  unfold State.endStore
  split <;> simp

@[simp] theorem State.dropL1Line_skeins (s : State) (k domain va : Nat) :
    (s.dropL1Line k domain va).skeins = s.skeins := rfl

@[simp] theorem State.replyWith_skeins (s : State) (id code result key : Nat) :
    (s.replyWith id code result key).skeins = s.skeins := by
  unfold State.replyWith
  split <;> rfl

@[simp] theorem State.refuseReq_skeins (s : State) (id code : Nat) : (s.refuseReq id code).skeins = s.skeins := by
  unfold State.refuseReq
  split
  · rfl
  · split
    · simp
    · split
      · next hf => simp [State.openFault_skeins hf]
      · rfl

/-! ### Shadows -/

@[simp] theorem State.setShadow_skeins (s : State) (ctx slot : Nat) (sh : Option Shadow) :
    (s.setShadow ctx slot sh).skeins = s.skeins := rfl

@[simp] theorem State.modShadow_skeins (s : State) (ctx slot : Nat) (f : Shadow → Shadow) :
    (s.modShadow ctx slot f).skeins = s.skeins := by
  unfold State.modShadow
  simp

@[simp] theorem State.firstContent_skeins (s : State) (dom va : Nat) (zero : Bool) :
    (s.firstContent dom va zero).2.2.skeins = s.skeins := by
  unfold State.firstContent
  split
  · rfl
  · split <;> rfl

theorem State.shGranule_skeins {s t : State} {ctx dom slot dest va : Nat} (h : s.shGranule ctx dom slot dest va = some t) :
    t.skeins = s.skeins := by
  unfold State.shGranule at h
  dsimp only at h
  (repeat' split at h) <;> cases h <;> simp

@[simp] theorem State.tellPeers_skeins (s : State) (ctx : Nat) (sh : Shadow) (m : Nat → FabricMsg) :
    (s.tellPeers ctx sh m).skeins = s.skeins := by
  unfold State.tellPeers
  simp

@[simp] theorem State.forward_skeins (s : State) (ctx slot va : Nat) (sh : Shadow) (w : ShadowWrite) :
    (s.forward ctx slot va sh w).skeins = s.skeins := by
  unfold State.forward
  simp

theorem State.shadowStep_skeins {s : State} {ctx dom slot va n : Nat} {w : ShadowWrite} {r : State × FpFlags}
    (h : s.shadowStep ctx dom slot va n w = some r) : r.1.skeins = s.skeins := by
  unfold State.shadowStep at h
  dsimp only at h
  split at h
  · cases h
  · obtain ⟨u, hu, rfl⟩ := Option.map_eq_some_iff.mp h
    obtain ⟨t, ht, rfl⟩ := Option.map_eq_some_iff.mp hu
    trans t.skeins
    · rw [foldr_pair_skeins _ fun d acc => by split <;> rfl, State.forward_skeins]
    · obtain ⟨u, hu, e⟩ := foldl_bind_skeins (fun _ _ _ h => State.shGranule_skeins h) _ ht
      cases hu
      exact e

@[simp] theorem State.poisonShadow_skeins (s : State) (ctx dom slot va : Nat) :
    (s.poisonShadow ctx dom slot va).skeins = s.skeins := by
  unfold State.poisonShadow
  split
  · rfl
  · exact foldl_skeins _ (fun t d => elim_skeins _ _ t fun _ => State.modHomes_skeins ..) _ _

@[simp] theorem State.discard_skeins (s : State) (ctx dom slot : Nat) : (s.discard ctx dom slot).skeins = s.skeins := by
  unfold State.discard
  split
  · rfl
  · dsimp only
    rw [State.tellPeers_skeins, State.modShadow_skeins, foldl_skeins]
    intro t p
    split <;> rfl

@[simp] theorem State.writeBlock_skeins (s : State) (ctx : Nat) (sh : Shadow) (status : Nat) (refusals : Option (List (Nat × Nat × Nat × Nat))) :
    (s.writeBlock ctx sh status refusals).skeins = s.skeins := by
  unfold State.writeBlock
  simp

@[simp] theorem State.answerShd_skeins (s : State) (op : Nat) (o : ShdOp) (home va : Nat) :
    (s.answerShd op o home va).skeins = s.skeins := by
  unfold State.answerShd
  simp

@[simp] theorem State.freeSlotSh_skeins (s : State) (ctx slot : Nat) : (s.freeSlotSh ctx slot).skeins = s.skeins := by
  unfold State.freeSlotSh
  simp

@[simp] theorem State.abortAt_skeins (s : State) (op : Nat) (o : ShdOp) : (s.abortAt op o).skeins = s.skeins := by
  unfold State.abortAt
  dsimp only
  (repeat' split) <;> simp

@[simp] theorem State.serveShd_skeins (s : State) (op : Nat) : (s.serveShd op).skeins = s.skeins := by
  unfold State.serveShd
  split <;> simp

@[simp] theorem State.endAborts_skeins (s : State) (ctx slot : Nat) (sh : Shadow) :
    (s.endAborts ctx slot sh).skeins = s.skeins := by
  unfold State.endAborts
  simp

@[simp] theorem State.votePeer_skeins (s : State) (ctx slot : Nat) : (s.votePeer ctx slot).skeins = s.skeins := by
  unfold State.votePeer
  split <;> simp

@[simp] theorem State.releaseHeldGrans_skeins (s : State) (ctx dom slot : Nat) (sh : Shadow) :
    (s.releaseHeldGrans ctx dom slot sh).skeins = s.skeins := rfl

@[simp] theorem State.commitGranule_skeins (s : State) (dom dest va moment : Nat) (sh : Shadow) :
    (s.commitGranule dom dest va moment sh).skeins = s.skeins := by
  unfold State.commitGranule
  dsimp only
  split
  · rfl
  · split
    · rfl
    · split
      · rw [State.wakeWatches_skeins, State.modHomes_skeins]
      · split
        · rw [State.wakeWatches_skeins, State.modHomes_skeins]
        · rfl

@[simp] theorem State.commitShadow_skeins (s : State) (ctx dom slot : Nat) (sh : Shadow) :
    (s.commitShadow ctx dom slot sh).skeins = s.skeins := by
  unfold State.commitShadow
  simp

theorem State.rstApply_skeins {s : State} {q : Req} {r : State × FpFlags} (h : s.rstApply q = some r) :
    r.1.skeins = s.skeins := State.shadowStep_skeins h

/-! ### Copies -/

@[simp] theorem State.startCopy_skeins (s : State) (sk : Skein) (cp : Copy) : (s.startCopy sk cp).skeins = s.skeins := by
  unfold State.startCopy
  (repeat' split) <;> simp

@[simp] theorem State.noteOrig_skeins (s : State) (id : Nat) (cp : Copy) (glob : Bool) (addr : Nat) (old : List Byte) :
    (s.noteOrig id cp glob addr old).skeins = s.skeins := by
  unfold State.noteOrig
  simp

@[simp] theorem State.poisonPiece_skeins (cp : Copy) (s : State) (p : Piece) : (s.poisonPiece cp p).skeins = s.skeins := by
  unfold State.poisonPiece
  dsimp only
  split
  · simp
  · split
    · rfl
    · exact elim_skeins _ _ s fun _ => State.modHomes_skeins ..

@[simp] theorem State.kickBolt_skeins (s : State) (k : Nat) : (s.kickBolt k).skeins = s.skeins := by
  unfold State.kickBolt
  split <;> rfl

theorem State.sideTokens_skeins {s t : State} {cp : Copy} {glob write : Bool} {ps : List (Nat × Nat)}
    (h : s.sideTokens cp glob write ps = some t) : t.skeins = s.skeins := by
  unfold State.sideTokens at h
  dsimp only at h
  split at h
  · cases h; rfl
  · split at h
    · cases h; rfl
    · obtain ⟨u, hu, e⟩ := foldl_bind_skeins (fun u p v hv => by
        split at hv
        · cases hv; rfl
        · split at hv
          · exact State.poolTokens_skeins hv
          · cases hv; rfl) _ h
      obtain ⟨v, hv, rfl⟩ := Option.map_eq_some_iff.mp hu
      rw [e, ite_skeins, State.addMeter_skeins, ite_self, State.takeTokens_skeins hv]

theorem State.copyTokens_skeins {s t : State} {cp : Copy} {ps : List Piece} (h : s.copyTokens cp ps = some t) :
    t.skeins = s.skeins := by
  obtain ⟨u, hu, ht⟩ := Option.bind_eq_some_iff.mp h
  exact (State.sideTokens_skeins ht).trans (State.sideTokens_skeins hu)

@[simp] theorem State.sendSide_skeins (s : State) (id : Nat) (cp : Copy) (phase : Nat) (side : List (Nat × Nat × Nat)) (expect : Nat) :
    (s.sendSide id cp phase side expect).skeins = s.skeins := by
  unfold State.sendSide
  simp

@[simp] theorem State.stepCopy_skeins (s : State) (id : Nat) : (s.stepCopy id).skeins = s.skeins := by
  unfold State.stepCopy
  split
  · rfl
  · split
    · rfl
    · split
      · rfl
      · split
        · rfl
        · split
          · split
            · rfl
            · next ht => rw [State.sendSide_skeins, State.copyTokens_skeins ht]
          · rw [State.sendSide_skeins]

@[simp] theorem State.settleCopies_skeins (s : State) : (s.settleCopies).skeins = s.skeins := by
  unfold State.settleCopies
  simp

@[simp] theorem State.ackChunk_skeins (s : State) (id : Nat) (cp : Copy) (ps : List Piece) :
    (s.ackChunk id cp ps).skeins = s.skeins := by
  unfold State.ackChunk
  dsimp only
  split
  · rw [foldl_skeins _ fun _ _ => State.enqueue_skeins .., State.fresh_skeins]
  · rfl

/-! ### Blocks, contexts, queues -/

theorem State.giveBlock_skeins {s : State} {ctx owner n : Nat} {r : Option Nat × State}
    (h : s.giveBlock ctx owner n = some r) : r.2.skeins = s.skeins := by
  unfold State.giveBlock at h
  dsimp only at h
  (repeat' split at h) <;> cases h <;> simp

@[simp] theorem State.fillSlot_skeins (s : State) (core slot k : Nat) : (s.fillSlot core slot k).skeins = s.skeins := rfl

@[simp] theorem State.resend_skeins (s : State) (id : Nat) : (s.resend id).skeins = s.skeins := by
  unfold State.resend
  (repeat' split) <;> simp

@[simp] theorem State.ctxRuns_skeins (s : State) (ctx : Nat) : (s.ctxRuns ctx).skeins = s.skeins := rfl

@[simp] theorem State.ctxIdles_skeins (s : State) (ctx : Nat) : (s.ctxIdles ctx).skeins = s.skeins := by
  unfold State.ctxIdles
  split <;> simp

@[simp] theorem State.modQueue_skeins (s : State) (qn : Nat) (f : Queue → Queue) :
    (s.modQueue qn f).skeins = s.skeins := rfl

@[simp] theorem State.settleQueue_skeins (s : State) (qn : Nat) : (s.settleQueue qn).skeins = s.skeins := by
  unfold State.settleQueue
  (repeat' split) <;> simp

@[simp] theorem State.queueError_skeins (s : State) (qn err : Nat) : (s.queueError qn err).skeins = s.skeins := rfl

theorem State.writeCompletion_skeins {s t : State} {qn tag caddr status result : Nat}
    (h : s.writeCompletion qn tag caddr status result = some t) : t.skeins = s.skeins := by
  unfold State.writeCompletion at h
  dsimp only at h
  split at h
  · cases h; rfl
  · split_ifs at h
    · cases h; rfl
    · split at h
      · next hw =>
        cases h
        simpa using State.modWrite_skeins hw
      · obtain ⟨r, hr, rfl⟩ := Option.map_eq_some_iff.mp h
        simpa using State.unitNack_skeins hr

@[simp] theorem State.answer_skeins (s : State) (port : Bool) (status : Nat) (data : List Byte) :
    (s.answer port status data).skeins = s.skeins := rfl

@[simp] theorem State.finish_skeins (s : State) (qn tag caddr status result : Nat) :
    (s.finish qn tag caddr status result).skeins = s.skeins := by
  unfold State.finish
  split_ifs
  · simp
  · simp
  · split
    · next hw => simpa using State.writeCompletion_skeins hw
    · rfl

@[simp] theorem State.endPend_skeins (s : State) (id status result : Nat) :
    (s.endPend id status result).skeins = s.skeins := by
  unfold State.endPend
  split <;> simp

@[simp] theorem State.endPendOf_skeins (s : State) (opcode subject status result : Nat) :
    (s.endPendOf opcode subject status result).skeins = s.skeins := by
  unfold State.endPendOf
  simp

@[simp] theorem State.retryPend_skeins (s : State) : s.retryPend.skeins = s.skeins := by
  unfold State.retryPend
  refine foldl_skeins _ (fun t e => ?_) _ _
  split
  · split
    · next hw => simp [State.writeCompletion_skeins hw]
    · rfl
  · rfl

@[simp] theorem State.taken_skeins (s : State) (qn : Nat) (q : Queue) : (s.taken qn q).skeins = s.skeins := rfl

@[simp] theorem State.holdCmd_skeins (s : State) (qn tag caddr opcode subject : Nat) (ws : List Payload) :
    (s.holdCmd qn tag caddr opcode subject ws).skeins = s.skeins := rfl

@[simp] theorem State.dropRecords_skeins (qn n : Nat) (s : State) : (State.dropRecords qn n s).skeins = s.skeins := by
  induction n generalizing s with
  | zero => rfl
  | succ n ih =>
    unfold State.dropRecords
    split
    · rfl
    · split
      · rfl
      · dsimp only
        split_ifs
        · rfl
        · split
          · simp [ih]
          · cases hn : State.unitNack _ _ _ _ _ _ with
            | none => rfl
            | some u => simpa [ih] using State.unitNack_skeins hn

@[simp] theorem State.dropUntaken_skeins (s : State) (qn : Nat) : (s.dropUntaken qn).skeins = s.skeins := by
  unfold State.dropUntaken
  split <;> simp

@[simp] theorem State.closeQueue_skeins (s : State) (qn : Nat) : (s.closeQueue qn).skeins = s.skeins := by
  unfold State.closeQueue
  split <;> simp

@[simp] theorem State.resumeWrites_skeins (s : State) (qn : Nat) : (s.resumeWrites qn).skeins = s.skeins := by
  unfold State.resumeWrites
  split
  · rfl
  · dsimp only
    split
    · rfl
    · next hu =>
      rw [ite_skeins, State.drainEvents_skeins, ite_self]
      split at hu
      · cases hu; rfl
      · split_ifs at hu
        rw [State.ringWrite_skeins hu, State.modQueue_skeins]

@[simp] theorem State.settleQueues_skeins (s : State) : (s.settleQueues).skeins = s.skeins := by
  unfold State.settleQueues
  simp

/-! ### Keys and contexts -/

@[simp] theorem State.writeKey_skeins (s : State) (c ctx key v : Nat) : (s.writeKey c ctx key v).skeins = s.skeins := rfl

@[simp] theorem State.buildContext_skeins (s : State) (n part domain : Nat) (priv : Bool) (keys : List Nat) :
    (s.buildContext n part domain priv keys).skeins = s.skeins := rfl

@[simp] theorem State.setRoot_skeins (s : State) (domain module dfn : Nat) :
    (s.setRoot domain module dfn).skeins = s.skeins := rfl

@[simp] theorem State.applyKey_skeins (s : State) (ctx : Nat) (e : Nat × Nat × Nat × Nat) :
    (s.applyKey ctx e).skeins = s.skeins := by
  unfold State.applyKey
  simp

@[simp] theorem State.settleKeys_skeins (s : State) : (s.settleKeys).skeins = s.skeins := by
  unfold State.settleKeys
  simp

@[simp] theorem State.closeQueues_skeins (s : State) (ctx : Nat) : (s.closeQueues ctx).skeins = s.skeins := by
  unfold State.closeQueues
  simp

@[simp] theorem State.clearSlots_skeins (s : State) (ctx : Nat) : (s.clearSlots ctx).skeins = s.skeins := rfl

@[simp] theorem State.endDrain_skeins (s : State) (ctx : Nat) (c : Context) : (s.endDrain ctx c).skeins = s.skeins := by
  unfold State.endDrain
  simp

@[simp] theorem State.freeContext_skeins (s : State) (ctx : Nat) : (s.freeContext ctx).skeins = s.skeins := by
  unfold State.freeContext
  simp

theorem State.hostRead_skeins {s : State} {ctx va n : Nat} {r : List Byte × State} (h : s.hostRead ctx va n = .ok r) :
    r.2.skeins = s.skeins := by
  unfold State.hostRead at h
  split at h <;> cases h
  simp

/-! ### Homes: lines, walks, what is served -/

@[simp] theorem State.chargeLoss_skeins (s : State) (place : Nat) (l : L2Line) :
    (s.chargeLoss place l).skeins = s.skeins := by
  unfold State.chargeLoss
  split <;> simp

@[simp] theorem State.dropLine_skeins (s : State) (place : Nat) (l : L2Line) :
    (s.dropLine place l).skeins = s.skeins := by
  unfold State.dropLine
  simp

@[simp] theorem State.dropLines_skeins (s : State) (place : Nat) (p : L2Line → Bool) :
    (s.dropLines place p).skeins = s.skeins := by
  unfold State.dropLines
  simp

@[simp] theorem State.dropAttr_skeins (s : State) (key : Nat) : (s.dropAttr key).skeins = s.skeins := rfl

@[simp] theorem State.trimSet_skeins (s : State) (l : L2Line) : (s.trimSet l).skeins = s.skeins := by
  unfold State.trimSet
  dsimp only
  (repeat' split) <;> simp

@[simp] theorem State.trimAttrs_skeins (s : State) (home : Nat) : (s.trimAttrs home).skeins = s.skeins := by
  unfold State.trimAttrs
  dsimp only
  (repeat' split) <;> simp

@[simp] theorem State.trimHomes_skeins (s : State) : s.trimHomes.skeins = s.skeins := by
  unfold State.trimHomes
  dsimp only
  rw [foldl_skeins _ State.trimAttrs_skeins, foldl_skeins _ State.trimSet_skeins, State.modHomes_skeins]

theorem State.startWalk_skeins {s t : State} {home domain va : Nat} {p : Payload}
    (h : s.startWalk home domain va p = some t) : t.skeins = s.skeins := by
  unfold State.startWalk at h
  split at h <;> cases h
  rfl

theorem State.walkTokens_skeins {s t : State} {w : Walk} (h : s.walkTokens w = some t) : t.skeins = s.skeins := by
  unfold State.walkTokens at h
  dsimp only at h
  split at h
  · split at h
    · cases h; rfl
    · exact State.takeTokens_skeins h
  · cases h; rfl

@[simp] theorem State.walkBytes_skeins (s : State) (w : Walk) : (s.walkBytes w).skeins = s.skeins := by
  unfold State.walkBytes
  simp

@[simp] theorem State.endWalk_skeins (s : State) (p : Payload) : (s.endWalk p).skeins = s.skeins := rfl

@[simp] theorem State.poisonSent_skeins (s : State) (bad : Bool) (s2 : Stage2) (va : Nat) :
    (s.poisonSent bad s2 va).skeins = s.skeins := by
  unfold State.poisonSent
  simp

@[simp] theorem State.performReq_skeins (s : State) (id : Nat) (r : Req) (a : Attr) (s2 : Stage2) :
    (s.performReq id r a s2).skeins = s.skeins := by
  unfold State.performReq
  split <;> simp

@[simp] theorem State.serveReq_skeins (s : State) (id : Nat) (walked : Bool) : (s.serveReq id walked).skeins = s.skeins := by
  unfold State.serveReq
  split
  · rfl
  · dsimp only
    split
    · simp
    · split
      · next hw => simpa using State.startWalk_skeins hw
      · rfl
    · simp
    · split <;> simp
    · split
      · simp
      · split
        · next ht => simpa using State.poolTokens_skeins ht
        · simp

@[simp] theorem State.modFetch_skeins (s : State) (id : Nat) (f : Fetch → Fetch) :
    (s.modFetch id f).skeins = s.skeins := rfl

@[simp] theorem State.answerFetch_skeins (s : State) (id : Nat) (f : Fetch) (code rec : Nat) (data : List Byte) :
    (s.answerFetch id f code rec data).skeins = s.skeins := rfl

@[simp] theorem State.serveFetch_skeins (s : State) (id : Nat) (f : Fetch) (walked : Bool) :
    (s.serveFetch id f walked).skeins = s.skeins := by
  unfold State.serveFetch
  dsimp only
  split
  · simp
  · simp
  · split
    · next hw => simpa using State.startWalk_skeins hw
    · rfl
  · split
    · simp
    · split
      · next ho => simpa using State.openFault_skeins ho
      · simp
  · simp

@[simp] theorem State.answerWatch_skeins (s : State) (c e : Nat) (w : Watch) (code rec : Nat) (val : Word) :
    (s.answerWatch c e w code rec val).skeins = s.skeins := rfl

@[simp] theorem State.serveWatch_skeins (s : State) (c e : Nat) (w : Watch) (walked : Bool) :
    (s.serveWatch c e w walked).skeins = s.skeins := by
  unfold State.serveWatch
  dsimp only
  split
  · rfl
  · cases hw : State.startWalk _ _ _ _ _ with
    | none => rfl
    | some t => exact State.startWalk_skeins hw
  · simp
  · split
    · simp
    · split
      · next ho => simpa using State.openFault_skeins ho
      · rfl
  · split
    · simp
    · split
      · rfl
      · next ht =>
        have := State.poolTokens_skeins ht
        split <;> simpa using this

/-! ### Links -/

@[simp] theorem State.fillCode_skeins (s : State) (cluster : Nat) (cores : List Nat) (l : ILine) :
    (s.fillCode cluster cores l).skeins = s.skeins := by
  unfold State.fillCode
  exact foldl_skeins _ (fun _ _ => by simp) _ _

@[simp] theorem State.modLinkAt_skeins (s : State) (channel station : Nat) (f : Link → Link) :
    (s.modLinkAt channel station f).skeins = s.skeins := rfl

@[simp] theorem State.raiseLight_skeins (s : State) (cause src die channel station striped resent delay : Nat) (dest : List Nat) :
    (s.raiseLight cause src die channel station striped resent delay dest).skeins = s.skeins := by
  unfold State.raiseLight
  simp

@[simp] theorem State.channelFault_skeins (s : State) (channel station : Nat) :
    (s.channelFault channel station).skeins = s.skeins := by
  unfold State.channelFault
  simp

@[simp] theorem State.settleShadow_skeins (s : State) (channel station : Nat) :
    (s.settleShadow channel station).skeins = s.skeins := by
  unfold State.settleShadow
  dsimp only
  (repeat' split) <;> simp

@[simp] theorem State.waveDark_skeins (s : State) (channel station wave : Nat) :
    (s.waveDark channel station wave).skeins = s.skeins := by
  unfold State.waveDark
  simp

@[simp] theorem State.foundWeak_skeins (s : State) (channel station : Nat) (w : Nat × Nat × Nat) :
    (s.foundWeak channel station w).skeins = s.skeins := by
  unfold State.foundWeak
  dsimp only
  (repeat' split) <;> simp

@[simp] theorem State.moveLanes_skeins (s : State) (channel station : Nat) :
    (s.moveLanes channel station).skeins = s.skeins := by
  unfold State.moveLanes
  dsimp only
  (repeat' split) <;> simp

theorem State.mayLeave_skeins {s t : State} {channel station type : Nat} {p : Payload}
    (h : s.mayLeave channel station type p = some t) : t.skeins = s.skeins := by
  unfold State.mayLeave at h
  split at h
  · cases h; rfl
  · split at h
    · exact State.takeTokens_skeins h
    · cases h; rfl

@[simp] theorem State.resendFlits_skeins (s : State) (channel station n : Nat) :
    (s.resendFlits channel station n).1.skeins = s.skeins := rfl

theorem State.firstOf_skeins {s : State} {channel station type : Nat} {r : Nat × Payload × State}
    (h : s.firstOf channel station type = some r) : r.2.2.skeins = s.skeins := by
  obtain ⟨e, -, he⟩ := List.exists_of_findSome?_eq_some h
  split at he
  · obtain ⟨t, ht, rfl⟩ := Option.map_eq_some_iff.mp he
    exact State.mayLeave_skeins ht
  · cases he

@[simp] theorem State.sendNew_skeins (channel station n : Nat) (s : State) :
    (State.sendNew channel station n s).skeins = s.skeins := by
  induction n generalizing s with
  | zero => rfl
  | succ n ih =>
    unfold State.sendNew
    dsimp only
    split
    · rfl
    · split
      · rfl
      · next hf =>
        obtain ⟨ty, -, hty⟩ := List.exists_of_findSome?_eq_some hf
        obtain ⟨x, hx, e⟩ := Option.map_eq_some_iff.mp hty
        cases e
        simpa [ih] using State.firstOf_skeins hx

@[simp] theorem State.readToken_skeins (s : State) (channel station : Nat) :
    (s.readToken channel station).skeins = s.skeins := by
  unfold State.readToken
  simp

@[simp] theorem State.holdToken_skeins (s : State) (channel station : Nat) :
    (s.holdToken channel station).skeins = s.skeins := rfl

@[simp] theorem State.settleTokens_skeins (s : State) : (s.settleTokens).skeins = s.skeins := rfl

@[simp] theorem State.sendControl_skeins (s : State) (channel station : Nat) (p : Payload) :
    (s.sendControl channel station p).skeins = s.skeins := by
  unfold State.sendControl
  split <;> rfl

@[simp] theorem State.sendAck_skeins (s : State) (channel station : Nat) :
    (s.sendAck channel station).skeins = s.skeins := by
  unfold State.sendAck
  split <;> rfl

@[simp] theorem State.answerPeer_skeins (s : State) (id : Nat) : (s.answerPeer id).skeins = s.skeins := by
  unfold State.answerPeer
  (repeat' split) <;> simp

@[simp] theorem State.wakePeer_skeins (s : State) (c e : Nat) : (s.wakePeer c e).skeins = s.skeins := by
  unfold State.wakePeer
  split <;> simp

@[simp] theorem State.copyFlit_skeins (s : State) (channel id packet va len : Nat) :
    (s.copyFlit channel id packet va len).skeins = s.skeins := by
  unfold State.copyFlit
  dsimp only
  split
  · rfl
  · split_ifs
    · rfl
    · rfl
    · exact foldl_skeins _ (fun _ _ => State.enqueue_skeins ..) _ _
    · exact foldl_skeins _ (fun _ _ => State.enqueue_skeins ..) _ _

@[simp] theorem State.deliver_skeins (s : State) (channel station : Nat) (p : Payload) :
    (s.deliver channel station p).skeins = s.skeins := by
  unfold State.deliver
  split <;> simp

@[simp] theorem State.flitFailed_skeins (s : State) (channel station : Nat) (f : Flit) :
    (s.flitFailed channel station f).skeins = s.skeins := by
  unfold State.flitFailed
  simp

@[simp] theorem State.reportWeak_skeins (s : State) (channel station wave cause fixed : Nat) :
    (s.reportWeak channel station wave cause fixed).skeins = s.skeins := by
  unfold State.reportWeak
  split <;> rfl

@[simp] theorem State.measure_skeins (s : State) (channel station : Nat) (m : LaneMap) (fixed : List (Nat × Nat)) :
    (s.measure channel station m fixed).skeins = s.skeins := by
  unfold State.measure
  dsimp only
  rw [foldl_skeins _ fun t w => by split <;> [split <;> simp; simp], State.modLinkAt_skeins]

@[simp] theorem State.loomBytes_skeins (s : State) (p : Payload) : (s.loomBytes p).skeins = s.skeins := by
  unfold State.loomBytes
  simp

@[simp] theorem State.acceptFlit_skeins (s : State) (channel station word : Nat) (f : Flit) :
    (s.acceptFlit channel station word f).skeins = s.skeins := by
  unfold State.acceptFlit
  split <;> simp

@[simp] theorem State.raiseReturned_skeins (s : State) (channel station wave outcome tries : Nat) :
    (s.raiseReturned channel station wave outcome tries).skeins = s.skeins := rfl

/-! ### Operator commands, partitions, granules -/

@[simp] theorem State.operator_skeins (s : State) (a : Auth) (request : List Byte) (busy : Bool) (body : State → State)
    (hb : ∀ t, (body t).skeins = t.skeins) : (s.operator a request busy body).skeins = s.skeins := by
  unfold State.operator
  split
  · rfl
  · split
    · exact State.answer_skeins ..
    · split
      · rfl
      · rw [hb]

@[simp] theorem State.fromSource_skeins (s : State) (src : Source) (request : List Byte) (busy : Bool)
    (body : Nat → State → State) (hb : ∀ q t, (body q t).skeins = t.skeins) :
    (s.fromSource src request busy body).skeins = s.skeins := by
  unfold State.fromSource
  split
  · simp [hb]
  · split
    · rfl
    · exact hb _ _

@[simp] theorem State.await_skeins (s : State) (qn opcode subject : Nat) :
    (s.await qn opcode subject).skeins = s.skeins := rfl

@[simp] theorem State.noteShares_skeins (s : State) : (s.noteShares).skeins = s.skeins := by
  unfold State.noteShares
  simp

@[simp] theorem State.sizeImages_skeins (s : State) (left : Cells Nat) (quads : List Nat) :
    (s.sizeImages left quads).2.skeins = s.skeins := by
  unfold State.sizeImages
  exact (foldl_pair_skeins _ (by intro a b; rfl) _ _).trans rfl

@[simp] theorem State.chooseRestore_skeins (s : State) (ctxs : List Nat) : (s.chooseRestore ctxs).skeins = s.skeins := by
  unfold State.chooseRestore
  exact foldl_skeins _ (fun _ _ => by simp) _ _

@[simp] theorem State.endPreempt_skeins (s : State) (part : Nat) : (s.endPreempt part).skeins = s.skeins := by
  unfold State.endPreempt
  split <;> simp

@[simp] theorem State.settleRestores_skeins (s : State) : (s.settleRestores).skeins = s.skeins := by
  unfold State.settleRestores
  simp

@[simp] theorem State.setGran_skeins (s : State) (gk : Nat) (g : GranState) : (s.setGran gk g).skeins = s.skeins := rfl

@[simp] theorem State.dropRights_skeins (s : State) (p : Nat → Bool) : (s.dropRights p).skeins = s.skeins := by
  unfold State.dropRights
  simp

@[simp] theorem State.startRevoke_skeins (s : State) (gk : Nat) : (s.startRevoke gk).skeins = s.skeins := by
  unfold State.startRevoke
  split <;> simp

@[simp] theorem State.granOver_skeins (s : State) (gk : Nat) (c : GranCmd) (ok : Bool) :
    (s.granOver gk c ok).skeins = s.skeins := rfl

@[simp] theorem State.giveFrame_skeins (s : State) (f : Nat) : (s.giveFrame f).skeins = s.skeins := by
  unfold State.giveFrame
  simp

@[simp] theorem State.startMove_skeins (s : State) (gk f : Nat) (tier : Option Nat) (e : Attr × Stage2) :
    (s.startMove gk f tier e).skeins = s.skeins := by
  unfold State.startMove
  simp

@[simp] theorem State.startGran_skeins (s : State) (gk : Nat) (c : GranCmd) : (s.startGran gk c).skeins = s.skeins := by
  unfold State.startGran
  split <;> simp

@[simp] theorem State.granCommand_skeins (s : State) (gk : Nat) (c : GranCmd) :
    (s.granCommand gk c).skeins = s.skeins := by
  unfold State.granCommand
  simp

@[simp] theorem State.settleGrans_skeins (s : State) : (s.settleGrans).skeins = s.skeins := by
  unfold State.settleGrans
  exact foldl_skeins _ (fun _ _ => by split <;> simp) _ _

@[simp] theorem State.moveGran_skeins (s : State) (domain granule frame : Nat) (tier : Option Nat) :
    (s.moveGran domain granule frame tier).skeins = s.skeins := by
  unfold State.moveGran
  simp

@[simp] theorem State.settleProtects_skeins (s : State) : (s.settleProtects).skeins = s.skeins := by
  unfold State.settleProtects
  simp

@[simp] theorem State.settleTinvals_skeins (s : State) : (s.settleTinvals).skeins = s.skeins := by
  unfold State.settleTinvals
  simp

@[simp] theorem State.applyBump_skeins (s : State) (domain : Nat) : (s.applyBump domain).skeins = s.skeins := by
  unfold State.applyBump
  dsimp only
  rw [foldl_skeins _ fun t _ => foldl_skeins _ (fun _ _ => State.killContext_skeins ..) _ t,
    foldl_skeins _ fun _ _ => State.modCtx_skeins ..]
  simp

@[simp] theorem State.settleBumps_skeins (s : State) : s.settleBumps.skeins = s.skeins := by
  unfold State.settleBumps
  refine foldl_skeins _ (fun t e => ?_) _ _
  dsimp only
  split
  · rfl
  · split
    · simp
    · split
      · split <;> simp
      · rfl

@[simp] theorem State.stopMoves_skeins (s : State) (keys : List Nat) (inside : Nat → Bool) :
    (s.stopMoves keys inside).skeins = s.skeins := by
  unfold State.stopMoves
  exact foldl_skeins _ (fun _ _ => by split <;> simp) _ _

/-! ### Ports, carving, boot -/

@[simp] theorem State.modPort_skeins (s : State) (p : Nat) (f : Port → Port) : (s.modPort p f).skeins = s.skeins := rfl

@[simp] theorem State.raiseLane_skeins (s : State) (port lane cause poisoned : Nat) (dest : List Nat) :
    (s.raiseLane port lane cause poisoned dest).skeins = s.skeins := by
  unfold State.raiseLane
  simp

@[simp] theorem State.setEntry_skeins (s : State) (e p : Nat) : (s.setEntry e p).skeins = s.skeins := rfl

@[simp] theorem State.downPort_skeins (s : State) (port lane : Nat) : (s.downPort port lane).skeins = s.skeins := by
  unfold State.downPort
  simp

@[simp] theorem State.swapLane_skeins (s : State) (port lane : Nat) : (s.swapLane port lane).skeins = s.skeins := rfl

@[simp] theorem State.settleLanes_skeins (s : State) : s.settleLanes.skeins = s.skeins := by
  unfold State.settleLanes
  refine foldl_skeins _ (fun t e => ?_) _ _
  dsimp only
  split
  · rfl
  · split <;> simp

@[simp] theorem State.settlePorts_skeins (s : State) : (s.settlePorts).skeins = s.skeins := by
  unfold State.settlePorts
  simp

@[simp] theorem State.loseLane_skeins (s : State) (port lane : Nat) : (s.loseLane port lane).skeins = s.skeins := by
  unfold State.loseLane
  simp

@[simp] theorem State.scrubQuads_skeins (s : State) (quads : List Nat) (domain : Nat) :
    (s.scrubQuads quads domain).skeins = s.skeins := rfl

@[simp] theorem State.carve_skeins (s : State) (part ctx : Nat) (a : CarveArgs) : (s.carve part ctx a).skeins = s.skeins := by
  unfold State.carve
  dsimp only
  rw [foldl_skeins _ fun _ _ => State.setRoot_skeins .., State.buildContext_skeins]
  exact State.scrubQuads_skeins s (carveQuads a) a.domain

@[simp] theorem State.closeInterval_skeins (s : State) (part : Nat) : (s.closeInterval part).skeins = s.skeins := by
  unfold State.closeInterval
  split <;> simp

@[simp] theorem State.dissolve_skeins (s : State) (part : Nat) (p : Partition) :
    (s.dissolve part p).skeins = s.skeins := by
  unfold State.dissolve
  simp

@[simp] theorem State.applyPending_skeins (s : State) (part : Nat) (p : Partition) :
    (s.applyPending part p).skeins = s.skeins := by
  unfold State.applyPending
  split <;> simp

@[simp] theorem State.settlePartset_skeins (s : State) : (s.settlePartset).skeins = s.skeins := by
  unfold State.settlePartset
  simp

@[simp] theorem State.newUsageKey_skeins (s : State) : (s.newUsageKey).skeins = s.skeins := rfl

@[simp] theorem State.bootTests_skeins (s : State) (boot : BootArgs) (step : Nat) :
    (s.bootTests boot step).skeins = s.skeins := by
  unfold State.bootTests
  split_ifs
  · exact foldl_skeins _ (fun _ _ => State.channelFault_skeins ..) _ _
  · dsimp only
    rw [foldl_skeins _ fun _ _ => by split <;> simp, foldl_skeins _ fun _ _ => State.modCore_skeins ..]
  · rfl

@[simp] theorem State.bootDone_skeins (s : State) : (s.bootDone).skeins = s.skeins := by
  unfold State.bootDone
  simp

@[simp] theorem State.bootOn_skeins (s : State) : (s.bootOn).skeins = s.skeins := by
  unfold State.bootOn
  dsimp only
  (repeat' split) <;> simp

@[simp] theorem State.settleBoot_skeins (s : State) : (s.settleBoot).skeins = s.skeins := by
  unfold State.settleBoot
  simp

/-! ### The engine, errors, peers, time -/

@[simp] theorem State.raiseTile_skeins (s : State) (sk : Skein) (code sev : Nat) (body : List Byte) :
    (s.raiseTile sk code sev body).skeins = s.skeins := by
  unfold State.raiseTile
  simp

@[simp] theorem State.beginReads_skeins (s : State) (x : Span) (first : Nat) :
    (s.beginReads x first).skeins = s.skeins := rfl

@[simp] theorem State.meterMac_skeins (s : State) (o : EngineOp) : (s.meterMac o).skeins = s.skeins := by
  unfold State.meterMac
  split <;> simp

@[simp] theorem State.scratchError_skeins (s : State) (core word damage : Nat) :
    (s.scratchError core word damage).skeins = s.skeins := by
  unfold State.scratchError
  simp

@[simp] theorem State.selvageError_skeins (s : State) (core ix damage : Nat) :
    (s.selvageError core ix damage).skeins = s.skeins := by
  unfold State.selvageError
  simp

@[simp] theorem State.lineError_skeins (s : State) (frame line : Nat) : (s.lineError frame line).skeins = s.skeins := by
  unfold State.lineError
  simp

@[simp] theorem State.l2Error_skeins (s : State) (domain line : Nat) : (s.l2Error domain line).skeins = s.skeins := by
  unfold State.l2Error
  split <;> rfl

@[simp] theorem State.attrError_skeins (s : State) (key : Nat) : (s.attrError key).skeins = s.skeins := rfl

@[simp] theorem State.watchError_skeins (s : State) (core entry : Nat) : (s.watchError core entry).skeins = s.skeins := by
  unfold State.watchError
  split <;> simp

@[simp] theorem State.sentError_skeins (s : State) (req : Nat) : (s.sentError req).skeins = s.skeins := by
  unfold State.sentError
  (repeat' split) <;> simp

@[simp] theorem State.copyError_skeins (s : State) (copy : Nat) : (s.copyError copy).skeins = s.skeins := rfl

@[simp] theorem State.frameError_skeins (s : State) (domain dfn : Nat) : (s.frameError domain dfn).skeins = s.skeins := by
  unfold State.frameError
  split <;> rfl

@[simp] theorem State.mapFrame_skeins (s : State) (domain dfn : Nat) (e : Stage2) :
    (s.mapFrame domain dfn e).skeins = s.skeins := by
  unfold State.mapFrame
  simp

@[simp] theorem State.poolExtent_skeins (s : State) (id frame count : Nat) :
    (s.poolExtent id frame count).skeins = s.skeins := by
  unfold State.poolExtent
  simp

@[simp] theorem State.freshFrame_skeins (s : State) (domain granule frame tier : Nat) :
    (s.freshFrame domain granule frame tier).skeins = s.skeins := by
  unfold State.freshFrame
  dsimp only
  split
  · rfl
  · split
    · rfl
    · rw [foldl_skeins _ fun _ _ => State.effectWrite_skeins .., State.modHomes_skeins]

@[simp] theorem State.tableWrite_skeins (s : State) (domain slot home : Nat) :
    (s.tableWrite domain slot home).skeins = s.skeins := by
  unfold State.tableWrite
  split <;> simp

@[simp] theorem State.groupWrite_skeins (s : State) (group : Nat) (g : Option ShareGroup) :
    (s.groupWrite group g).skeins = s.skeins := by
  unfold State.groupWrite
  simp

@[simp] theorem State.ingress_skeins (s : State) (domain va : Nat) (p : Payload) :
    (s.ingress domain va p).skeins = s.skeins := rfl

@[simp] theorem State.associate_skeins (s : State) (module assoc : Nat) (domain : Option Nat) :
    (s.associate module assoc domain).skeins = s.skeins := by
  unfold State.associate
  simp

@[simp] theorem State.portBytes_skeins (s : State) (domain n : Nat) : (s.portBytes domain n).skeins = s.skeins := by
  unfold State.portBytes
  simp

@[simp] theorem State.peerAsk_skeins (s : State) (a : PeerAsk) : (s.peerAsk a).skeins = s.skeins := by
  unfold State.peerAsk
  split <;> simp

@[simp] theorem State.peerWatch_skeins (s : State) (a : PeerWatch) : (s.peerWatch a).skeins = s.skeins := by
  unfold State.peerWatch
  split <;> simp

@[simp] theorem State.peerCancel_skeins (s : State) (module tag : Nat) : (s.peerCancel module tag).skeins = s.skeins := by
  unfold State.peerCancel
  dsimp only
  split
  · rfl
  · split
    · next hr => simpa using State.cancelWatch_skeins hr
    · rfl

@[simp] theorem State.peerOpen_skeins (s : State) (o : PeerOpen) : (s.peerOpen o).skeins = s.skeins := by
  unfold State.peerOpen
  split <;> simp

@[simp] theorem State.peerStep_skeins (s : State) (module ctx slot : Nat) (x : PeerStep) :
    (s.peerStep module ctx slot x).skeins = s.skeins := by
  unfold State.peerStep
  dsimp only
  split
  · rfl
  · split
    · split_ifs
      · simp
      · simp
      · split
        · next ht => simp [State.shadowStep_skeins ht]
        · simp
    · split_ifs <;> simp
    · split_ifs <;> simp
    · simp

@[simp] theorem State.retireQuad_skeins (s : State) (core : Nat) : (s.retireQuad core).skeins = s.skeins := by
  unfold State.retireQuad
  simp

@[simp] theorem State.tick_skeins (s : State) (n : Nat) : (s.tick n).skeins = s.skeins := by
  unfold State.tick
  dsimp only
  split
  · rfl
  · dsimp only
    rw [foldl_skeins _ fun _ _ => State.addMeter_skeins .., foldl_skeins _ fun _ _ => by split <;> rfl]

theorem State.packetAt_skeins {s : State} {sk : Skein} {c : Nat} {pc : Word} {r : List Byte × State}
    (h : s.packetAt sk c pc = some r) : r.2.skeins = s.skeins := by
  unfold State.packetAt at h
  dsimp only at h
  split at h
  · cases h; rfl
  · obtain ⟨l, -, rfl⟩ := Option.map_eq_some_iff.mp h
    rfl

@[simp] theorem State.askLine_skeins (s : State) (k : Nat) (sk : Skein) (c : Nat) (is : List Nat) (pc : Word) :
    (s.askLine k sk c is pc).skeins = s.skeins := by
  unfold State.askLine
  dsimp only
  split <;> simp

@[simp] theorem Turned.ofIssue_fst (r : State × Option Instr) : (Turned.ofIssue r).1 = r.1 := by
  unfold Turned.ofIssue
  split <;> rfl

end Sys2Proof.Machine
end

section
/-! The tables of strands and wefts in canonical form (R111, R117): what each operation that changes skeins does to
`State.TablesWf`, from the changes of one record up to barriers, traps and the frame of a word (R54, R146). -/

namespace Sys2Proof.Machine

/-! ### Tables and their records -/

theorem Tab.wfFrom_mapVal {α β : Type} [DecidableEq α] [DecidableEq β] (f : Nat → α → β) (t : Tab α) (lo : Nat)
    (h : Cells.wfFrom none lo t = true) :
    Cells.wfFrom none lo (t.map (fun e => (e.1, e.2.map (f e.1)))) = true := by
  induction t generalizing lo with
  | nil => rfl
  | cons e t ih =>
    obtain ⟨k, v⟩ := e
    simp only [Cells.wfFrom, List.map_cons, Bool.and_eq_true, decide_eq_true_eq] at h ⊢
    obtain ⟨⟨hlo, hv⟩, ht⟩ := h
    exact ⟨⟨hlo, by simpa using hv⟩, ih _ ht⟩

/-- Changing every record keeps a table's canonical form. -/
theorem Tab.wf_mapVal {α β : Type} [DecidableEq α] [DecidableEq β] (f : Nat → α → β) {t : Tab α}
    (h : Cells.wf none t = true) : Cells.wf none (t.map (fun e => (e.1, e.2.map (f e.1)))) = true :=
  Tab.wfFrom_mapVal f t 0 h

theorem Tab.wf_set {α : Type} [DecidableEq α] {t : Tab α} (h : Cells.wf none t = true) (k : Nat) (v : Option α) :
    Cells.wf none (Tab.set t k v) = true := Cells.wfFrom_set _ _ _ _ _ (Nat.zero_le _) h

theorem Tab.wf_foldl_set {α β : Type} [DecidableEq α] (key : β → Nat) (val : β → Option α) (l : List β) {t : Tab α}
    (h : Cells.wf none t = true) : Cells.wf none (l.foldl (fun t b => Tab.set t (key b) (val b)) t) = true := by
  induction l generalizing t with
  | nil => exact h
  | cons b l ih => exact ih (Tab.wf_set h _ _)

theorem wfFrom_map_range' {α : Type} [DecidableEq α] (key : Nat → Nat) (hkey : ∀ j, key j < key (j + 1)) (v : α) (n a : Nat) :
    Cells.wfFrom none (key a) ((List.range' a n).map (fun j => (key j, some v))) = true := by
  induction n generalizing a with
  | zero => rfl
  | succ n ih =>
    simp only [List.range'_succ, List.map_cons, Cells.wfFrom, Bool.and_eq_true, decide_eq_true_eq]
    exact ⟨⟨le_rfl, Option.some_ne_none v⟩, Cells.wfFrom_mono _ _ _ _ (hkey a) (ih (a + 1))⟩

theorem freshStrands_wf (n : Nat) (entry : Word) : Cells.wf none (freshStrands n entry) = true := by
  rw [freshStrands, List.range_eq_range']
  exact wfFrom_map_range' id Nat.lt_succ_self _ n 0

theorem freshWefts_wf (n g : Nat) : Cells.wf none (freshWefts n g) = true := by
  rw [freshWefts, List.range_eq_range']
  rcases Nat.eq_zero_or_pos g with rfl | hg
  · simp [Cells.wf, Cells.wfFrom]
  · refine Cells.wfFrom_mono _ _ _ _ (Nat.zero_le _) (wfFrom_map_range' (· * g) (fun j => ?_) _ _ 0)
    exact Nat.mul_lt_mul_of_pos_right (Nat.lt_succ_self j) hg

/-! ### States that share the tables of skeins, or change some of them -/

/-- What leaves the skeins as they are keeps their tables. -/
theorem State.TablesWf.frame {s t : State} (h : s.TablesWf) (e : t.skeins = s.skeins) : t.TablesWf := by
  intro k sk hk
  exact h k sk (e ▸ hk)

theorem State.TablesWf.ite {s t : State} {p : Prop} [Decidable p] (hs : s.TablesWf) (ht : t.TablesWf) :
    (if p then s else t).TablesWf := by
  split
  · exact hs
  · exact ht

theorem State.TablesWf.set {s t : State} (h : s.TablesWf) {k : Nat} {v : Option Skein} (hv : ∀ sk, v = some sk → sk.TablesWf)
    (e : t.skeins = Tab.set s.skeins k v) : t.TablesWf := by
  intro j sk hj
  rw [e] at hj
  rcases Cells.mem_set hj with hj | hj
  · exact h j sk hj
  · cases hj
    exact hv sk rfl

theorem State.TablesWf.mapSkeins {s t : State} (h : s.TablesWf) (f : Skein → Skein) (hf : ∀ sk, sk.TablesWf → (f sk).TablesWf)
    (e : t.skeins = s.skeins.map (fun x => (x.1, x.2.map f))) : t.TablesWf := by
  intro k sk hk
  rw [e] at hk
  obtain ⟨⟨j, v⟩, hx, hxe⟩ := List.mem_map.mp hk
  obtain ⟨rfl, hv⟩ := Prod.mk.inj hxe
  obtain ⟨y, rfl, rfl⟩ := Option.map_eq_some_iff.mp hv
  exact hf y (h j y hx)

theorem Skein.TablesWf.mapStrands {sk : Skein} (h : sk.TablesWf) (f : Nat → Strand → Strand) :
    ({ sk with strands := sk.strands.map (fun e => (e.1, e.2.map (f e.1))) } : Skein).TablesWf :=
  ⟨Tab.wf_mapVal f h.1, h.2⟩

/-- A change of one skein that leaves its tables as they are. -/
theorem State.TablesWf.modSkein_frame {s : State} (h : s.TablesWf) (k : Nat) (f : Skein → Skein)
    (hs : ∀ sk, (f sk).strands = sk.strands) (hw : ∀ sk, (f sk).wefts = sk.wefts) : (s.modSkein k f).TablesWf :=
  h.modSkein k f fun sk ⟨hstr, hwft⟩ => ⟨(hs sk).symm ▸ hstr, (hw sk).symm ▸ hwft⟩

theorem State.TablesWf.modStrand {s : State} (h : s.TablesWf) {k i : Nat} {f : Strand → Strand} :
    (s.modStrand k i f).TablesWf :=
  h.modSkein k _ fun _ hx => ⟨Tab.wf_upd hx.1 i f, hx.2⟩

theorem State.TablesWf.count {s : State} (h : s.TablesWf) {k p n : Nat} : (s.count k p n).TablesWf :=
  h.modSkein_frame k _ (fun _ => rfl) (fun _ => rfl)

theorem foldl_fst_tablesWf {α β : Type} (f : State × α → β → State × α) (hf : ∀ a b, a.1.TablesWf → (f a b).1.TablesWf)
    (l : List β) {a : State × α} (h : a.1.TablesWf) : (l.foldl f a).1.TablesWf := by
  induction l generalizing a with
  | nil => exact h
  | cons b l ih => exact ih (hf a b h)

/-- Steps that may fail, one after another: where they end, the tables are canonical if each step keeps them so. -/
theorem foldl_bind_tablesWf {β : Type} {f : State → β → Option State}
    (hf : ∀ s b t, s.TablesWf → f s b = some t → t.TablesWf) (l : List β) {o : Option State} {t : State}
    (ho : ∀ s, o = some s → s.TablesWf) (h : l.foldl (fun o b => o.bind (fun s => f s b)) o = some t) : t.TablesWf := by
  induction l generalizing o with
  | nil => exact ho t h
  | cons b l ih =>
    refine ih (fun u hu => ?_) h
    obtain ⟨s, rfl, hs⟩ := Option.bind_eq_some_iff.mp hu
    exact hf s b u (ho s rfl) hs

/-! ### Barriers and acquires -/

theorem State.TablesWf.acquire {s : State} (h : s.TablesWf) {k w : Nat} : (s.acquire k w).TablesWf := by
  have h2 : ∀ (t : State) (f : Skein → Cells Nat), t.skeins = s.skeins →
      (t.modSkein k fun sk => { sk with acqs := f sk }).TablesWf :=
    fun t f e => (h.frame e).modSkein_frame k _ (fun _ => rfl) (fun _ => rfl)
  unfold State.acquire
  dsimp only
  split <;> exact h2 _ _ rfl

theorem State.TablesWf.setBarrier {s : State} (h : s.TablesWf) {k num : Nat} {bolt : Bool} {b : Barrier} :
    (s.setBarrier k bolt num b).TablesWf := by
  unfold State.setBarrier
  split
  · exact h
  · split
    · exact h
    · exact h.modSkein_frame k _ (fun _ => rfl) (fun _ => rfl)

theorem State.TablesWf.acquireThen {s : State} (h : s.TablesWf) {k i : Nat} : (s.acquireThen k i).TablesWf := by
  unfold State.acquireThen
  split
  · exact h
  · split
    · exact h
    · dsimp only
      split
      · exact h.modStrand
      · exact h.modStrand.acquire

theorem State.TablesWf.settleAcquires {s : State} (h : s.TablesWf) : s.settleAcquires.TablesWf := by
  refine State.TablesWf.foldl _ (fun t e ht => State.TablesWf.foldl _ (fun u x hu => ?_) _ ht) _ h
  split
  · split
    · exact hu
    · exact hu.modStrand.acquire
  · exact hu

theorem State.TablesWf.releaseWaiter {s : State} (h : s.TablesWf) {bolt : Bool} {num : Nat} {w : Nat × Nat × Bool × Nat} :
    (s.releaseWaiter bolt num w).TablesWf := by
  unfold State.releaseWaiter
  dsimp only
  split
  · split
    · exact h.acquireThen
    · exact h.modStrand
  · exact h.modStrand.setBarrier
  · exact h.modStrand.setBarrier

theorem State.TablesWf.settleBarrier {s : State} (h : s.TablesWf) {fuel k : Nat} {bolt : Bool} {num : Nat} :
    (State.settleBarrier fuel s k bolt num).TablesWf := by
  induction fuel generalizing s with
  | zero => exact h
  | succ n ih =>
    unfold State.settleBarrier
    split
    · exact ih (State.TablesWf.foldl _ (fun t w ht => ht.releaseWaiter) _ h.setBarrier)
    · exact h

/-! ### Gang kill, context faults, traps -/

theorem State.TablesWf.freeSkein {s : State} (h : s.TablesWf) {k : Nat} : (s.freeSkein k).TablesWf := by
  unfold State.freeSkein
  split
  · exact h
  · refine h.set (k := k) (v := none) (fun _ e => nomatch e) ?_
    split <;> rfl

theorem State.TablesWf.haltBolt {s : State} (h : s.TablesWf) {b : Nat} : (s.haltBolt b).TablesWf := by
  unfold State.haltBolt
  split
  · exact h
  · exact State.TablesWf.foldl _ (fun t k ht => ht.freeSkein) _ (h.frame rfl)

theorem State.TablesWf.faultContext {s : State} (h : s.TablesWf) {ctx cause : Nat} {atBolt : Option Nat} {f : FaultAt} :
    (s.faultContext ctx cause atBolt f).TablesWf := by
  unfold State.faultContext
  split
  · exact h
  · have hk : ∀ (p : Prop) [Decidable p] (t : State) (g : Context → Context), t.TablesWf →
        (if p then t.modCtx ctx g else t).TablesWf := by
      intro p _ t g ht
      split <;> exact ht
    refine hk _ _ _ (State.TablesWf.foldl _ (fun t b ht => ?_) _ h)
    split
    · exact ht
    · dsimp only
      split
      · exact ht.frame (by simp)
      · exact (ht.haltBolt (b := b)).frame (by simp)

theorem State.TablesWf.gangFault {s : State} (h : s.TablesWf) {b cause : Nat} {f : FaultAt} : (s.gangFault b cause f).TablesWf := by
  unfold State.gangFault
  split
  · exact h
  · split
    · exact h
    · split
      · exact State.TablesWf.frame (h.haltBolt (b := b)) (by simp)
      · exact h.faultContext

theorem State.TablesWf.trapFault {s : State} (h : s.TablesWf) {k i cause : Nat} {val pc : Word} :
    (s.trapFault k i cause val pc).TablesWf := by
  unfold State.trapFault
  split
  · exact h
  · exact h.faultContext

theorem State.TablesWf.takeTraps {s : State} (h : s.TablesWf) {k w : Nat} {pc : Word} {ts : List TrapReq} :
    (s.takeTraps k w pc ts).TablesWf := by
  unfold State.takeTraps
  split
  · exact h
  · split
    · exact h.trapFault
    · split
      · exact State.TablesWf.foldl _ (fun t r ht => ht.modStrand) _ (h.frame rfl)
      · split
        · exact h.trapFault
        · exact State.TablesWf.foldl _ (fun t r ht => ht.modStrand) _ (h.modWeft _ _ _)

theorem State.TablesWf.releaseHeld {s : State} (h : s.TablesWf) {k w : Nat} : (s.releaseHeld k w).TablesWf := by
  unfold State.releaseHeld
  dsimp only
  split
  · exact h
  · split
    · exact h
    · split
      · exact h
      · split
        · exact h
        · exact h.takeTraps

theorem State.TablesWf.trapReturn {s : State} (h : s.TablesWf) {k w : Nat} {rs : List (Nat × Nat)} :
    (s.trapReturn k w rs).TablesWf := by
  unfold State.trapReturn
  split
  · exact h
  · split
    · split
      · exact h.trapFault
      · exact h
    · exact (h.modStrands _ _ _).releaseHeld

/-! ### A word's frame -/

/-- Where an outcome goes on, it goes on with canonical tables. -/
def KeepsTables (o : Out) : Prop := ∀ t, o = .next t → t.TablesWf

theorem KeepsTables.next {t : State} (h : t.TablesWf) : KeepsTables (.next t) := by
  rintro u ⟨⟩
  exact h

theorem State.TablesWf.parkAll {s : State} (h : s.TablesWf) {rec : Nat} : (s.parkAll rec).TablesWf :=
  (h.modStrands _ _ _).count

theorem State.TablesWf.trapHere {s : State} (h : s.TablesWf) {ts : List TrapReq} : (s.trapHere ts).TablesWf :=
  State.TablesWf.takeTraps (s := { s with cur := { s.cur with denied := [] } }) h

theorem State.TablesWf.trapAll {s : State} (h : s.TablesWf) {is : List Nat} {cause : Nat} {val : Word} :
    (s.trapAll is cause val).TablesWf := h.trapHere

theorem State.TablesWf.waiting {s : State} (h : s.TablesWf) (act : List Nat) (need : Req → Bool) {body : State → Attempt}
    (hb : ∀ t, t.TablesWf → (body t).2.TablesWf) : (s.waiting act need body).2.TablesWf := by
  have hend : ∀ r : Attempt, r.2.TablesWf → (if r.1 then r else (false, s)).2.TablesWf := by
    intro r hr
    split
    · exact hr
    · exact h
  unfold State.waiting
  split
  · exact hb s h
  · exact h
  · exact h.parkAll
  · refine hend _ ?_
    split
    · exact h
    · exact hb _ h

theorem State.TablesWf.unissued {s : State} (h : s.TablesWf) : s.unissued.TablesWf := by
  unfold State.unissued
  split
  · exact h.modWeft _ _ _
  · exact h

theorem State.TablesWf.alone {s : State} (h : s.TablesWf) : s.alone.TablesWf := h.modWeft _ _ _

theorem State.TablesWf.unalone {s : State} (h : s.TablesWf) : s.unalone.TablesWf := h.modWeft _ _ _

theorem State.TablesWf.passBy {s : State} (h : s.TablesWf) : s.passBy.TablesWf := h.modStrands _ _ _

theorem State.TablesWf.registerLost {s : State} (h : s.TablesWf) {sk : Skein} {j : Nat} : (s.registerLost sk j).TablesWf :=
  h.gangFault

theorem State.TablesWf.reportDenied {s : State} (h : s.TablesWf) : s.reportDenied.TablesWf := by
  unfold State.reportDenied
  split
  · exact h
  · exact h.trapHere

/-- A word keeps the tables where its body does. -/
theorem State.TablesWf.word {s : State} (h : s.TablesWf) (i : Instr) {body : Skein → State → Attempt}
    (hb : ∀ sk t, t.TablesWf → (body sk t).2.TablesWf) : KeepsTables (s.word i body) := by
  have hend : ∀ r : Attempt, r.2.TablesWf →
      (if r.1 then r.2.reportDenied.count s.cur.skein 0 1 else r.2.unissued).TablesWf := by
    intro r hr
    split
    · exact hr.reportDenied.count
    · exact hr.unissued
  unfold State.word
  split
  · exact .next h
  · next sk _ =>
    split
    · exact .next h.takeTraps
    · refine .next (hend _ ?_)
      split
      · exact h
      · refine h.waiting _ _ fun t ht => ?_
        split
        · exact ht.registerLost
        · exact hb sk t ht

theorem State.TablesWf.eachStrand {s : State} (h : s.TablesWf) (act : List Nat)
    {f : State → Nat → Strand → State × Option TrapReq} (hf : ∀ t i x, t.TablesWf → (f t i x).1.TablesWf) :
    (s.eachStrand act f).TablesWf := by
  have hr := foldl_fst_tablesWf (α := List TrapReq) (fun p i => match p.1.strand? s.cur.skein i with
    | none => p
    | some t => ((f p.1 i t).1, p.2 ++ (f p.1 i t).2.toList)) (fun p i hp => by
      split
      · exact hp
      · exact hf _ _ _ hp) (s.cur.strands.filter (fun j => act.contains j))
    (a := (s.modStrands s.cur.skein (s.cur.strands.filter (fun j => !act.contains j)) (fun _ x => x.advance), []))
    (h.modStrands _ _ _)
  unfold State.eachStrand
  dsimp only
  split
  · exact hr
  · exact hr.trapHere

/-! ### Lanes -/

theorem State.TablesWf.putLanes {s : State} (h : s.TablesWf) {outs : List (Nat × LaneOut)} : (s.putLanes outs).TablesWf := by
  have h1 := h.modSkein s.cur.skein (fun sk => { sk with
    strands := outs.foldl (fun t o => Tab.set t o.1 (some o.2.strand)) sk.strands })
    fun sk hsk => ⟨Tab.wf_foldl_set Prod.fst (fun o => some o.2.strand) outs hsk.1, hsk.2⟩
  unfold State.putLanes
  dsimp only
  split
  · exact h1
  · exact h1.trapHere

theorem State.TablesWf.noteWrites {s : State} (h : s.TablesWf) {k w : Nat} {regs : List Nat} :
    (s.noteWrites k w regs).TablesWf := by
  refine State.TablesWf.foldl _ (fun t r ht => ?_) _ h
  split
  · exact ht
  · split
    · dsimp only
      split
      · exact State.TablesWf.count (s := { t with free := t.free + 1 }) ht
      · exact ht
    · exact ht

theorem State.TablesWf.retire {s : State} (h : s.TablesWf) {sk : Skein} {i : Instr} {dst : List Nat}
    {outs : List (Nat × LaneOut)} : (s.retire sk i dst outs).TablesWf := by
  have h1 : ∀ (b : Bool) (l : List Nat),
      (if b = true then (s.putLanes outs).noteWrites s.cur.skein s.cur.weft l else s.putLanes outs).TablesWf := by
    intro b l
    split
    · exact h.putLanes.noteWrites
    · exact h.putLanes
  unfold State.retire
  dsimp only
  split
  · exact h.putLanes.count
  · split
    · exact (h1 _ _).frame (State.reuseEnter_skeins ..)
    · exact h1 _ _

theorem State.TablesWf.lanes {s : State} (h : s.TablesWf) (i : Instr) (f : Skein → Nat → Strand → LaneOut) :
    KeepsTables (s.lanes i f) :=
  h.word i fun _ _ ht => ht.retire

end Sys2Proof.Machine
end

section
/-! The tables of strands and wefts under widths and rendezvous, replies that are fatal or parked, launches, barriers,
watches, cross-lane words and control flow (R115 to R146, R275 to R283, R312). -/

namespace Sys2Proof.Machine

/-! ### Widths -/

theorem State.TablesWf.leaveActive {s : State} (h : s.TablesWf) {k w : Nat} : (s.leaveActive k w).TablesWf :=
  (h.modWeft _ _ _).wakePath _ _ _

theorem State.TablesWf.settleSetw {s : State} (h : s.TablesWf) {k : Nat} : (s.settleSetw k).TablesWf := by
  unfold State.settleSetw
  split
  · exact h
  · split
    · exact h
    · dsimp only
      split
      · exact h
      · refine State.TablesWf.frame (State.TablesWf.modStrands ?_ k _ _) (State.killLoads_skeins ..)
        exact h.modSkein k _ fun x hx => ⟨hx.1, Tab.wf_foldl_set id _ _ (by rfl)⟩

theorem State.TablesWf.reslice {s : State} (h : s.TablesWf) {k w : Nat} : (s.reslice k w).TablesWf := by
  unfold State.reslice
  split
  · dsimp only
    split
    · refine State.TablesWf.frame ?_ (State.killLoads_skeins ..)
      exact h.modSkein k _ fun x hx => ⟨hx.1, Tab.wf_foldl_set id _ _ (Tab.wf_set hx.2 _ _)⟩
    · exact h
  · exact h

theorem State.TablesWf.endSlice {s : State} (h : s.TablesWf) {k w : Nat} {pc : Word} {all : Bool} :
    (s.endSlice k w pc all).TablesWf := by
  unfold State.endSlice
  split
  · exact h
  · dsimp only
    split
    · exact ((h.modStrands _ _ _).modWeft _ _ _).reslice
    · exact (h.modStrands _ _ _).modWeft _ _ _

theorem State.TablesWf.expireSlices {s : State} (h : s.TablesWf) {k w : Nat} : (s.expireSlices k w).TablesWf := by
  unfold State.expireSlices
  split
  · refine State.TablesWf.foldl _ (fun t e ht => ?_) _ h
    split
    · exact ht.endSlice
    · exact ht
  · exact h

theorem State.TablesWf.settleSlice {s : State} (h : s.TablesWf) {k w : Nat} : (s.settleSlice k w).TablesWf := by
  unfold State.settleSlice
  dsimp only
  split
  · exact h.expireSlices.endSlice
  · exact h.expireSlices

theorem State.TablesWf.settleWsync {s : State} (h : s.TablesWf) {k w : Nat} : (s.settleWsync k w).TablesWf := by
  unfold State.settleWsync
  split
  · exact h
  · dsimp only
    split
    · split
      · exact h.modStrands _ _ _
      · exact h
    · exact h

/-! ### Fatal replies, releases -/

theorem State.TablesWf.fatalNack {s : State} (h : s.TablesWf) {k : Nat} {strand : Option Nat} {pc : Word} {code va : Nat} :
    (s.fatalNack k strand pc code va).TablesWf := by
  unfold State.fatalNack
  split
  · exact h
  · dsimp only
    split
    · exact State.TablesWf.gangFault (h.frame (by simp))
    · exact h.gangFault

theorem State.TablesWf.parkStrand {s : State} (h : s.TablesWf) {k i rec : Nat} : (s.parkStrand k i rec).TablesWf := h.modStrand

theorem State.TablesWf.nackStrand {s : State} (h : s.TablesWf) {k i : Nat} {pc : Word} {code rec va : Nat} :
    (s.nackStrand k i pc code rec va).TablesWf := by
  unfold State.nackStrand
  split
  · exact h.fatalNack
  · split
    · exact h.modStrand
    · exact h.parkStrand

theorem State.TablesWf.releaseParked {s : State} (h : s.TablesWf) {rec : Nat} : (s.releaseParked rec).TablesWf :=
  h.mapSkeins (fun sk => { sk with strands := sk.strands.map (fun x => (x.1, x.2.map (fun t =>
    if t.parkedOn = some rec then { t with status := .ready } else t))) })
    (fun _ hx => ⟨Tab.wf_mapVal (fun _ => _) hx.1, hx.2⟩) rfl

theorem State.TablesWf.releasing {s : State} (h : s.TablesWf) (act ms : List Nat) (weft : Option Nat) (scope : Nat)
    {body : State → Attempt} (hb : ∀ t, t.TablesWf → (body t).2.TablesWf) :
    (s.releasing act ms weft scope body).2.TablesWf := by
  unfold State.releasing
  dsimp only
  refine State.TablesWf.waiting ?_ _ _ fun t ht => ?_
  · split
    · split
      · exact h.frame (by simp)
      · exact h
    · exact h
  · split
    · exact ht
    · refine hb _ ?_
      split
      · exact ht.frame (by simp)
      · exact ht

theorem State.TablesWf.acquiring {s : State} (h : s.TablesWf) (act ms : List Nat) {body : State → Attempt}
    (hb : ∀ t, t.TablesWf → (body t).2.TablesWf) : (s.acquiring act ms body).2.TablesWf :=
  h.waiting _ _ fun _ ht => hb _ ht.acquire

/-! ### Launches -/

theorem State.TablesWf.wakeLaunchb {s : State} (h : s.TablesWf) {ctx : Nat} : (s.wakeLaunchb ctx).TablesWf :=
  h.mapSkeins (fun sk => if sk.ctx = ctx then { sk with strands := sk.strands.map (fun x => (x.1, x.2.map (fun t =>
    if t.status = .parked .launchb then { t with status := .ready } else t))) } else sk) (fun _ hx => by
      split
      · exact ⟨Tab.wf_mapVal (fun _ => _) hx.1, hx.2⟩
      · exact hx) rfl

theorem State.TablesWf.fillEntry {s : State} (h : s.TablesWf) {ctx : Nat} : (s.fillEntry ctx).TablesWf := by
  unfold State.fillEntry
  refine State.TablesWf.wakeLaunchb ?_
  split
  · exact h
  · split
    · exact State.TablesWf.wakeLaunchb (h.frame (by simp))
    · exact h

theorem State.TablesWf.freeLaunch {s : State} (h : s.TablesWf) {l : Nat} : (s.freeLaunch l).TablesWf := by
  unfold State.freeLaunch
  split
  · exact h
  · exact State.TablesWf.fillEntry (h.frame (by simp))

theorem State.TablesWf.launchDone {s : State} (h : s.TablesWf) {i : Nat} {d : VReg} {status : Word} :
    (s.launchDone i d status).TablesWf := h.modStrand

/-- What a LAUNCH's reads leave, however they end. -/
theorem State.strandRead_state_skeins (s : State) (sk : Skein) (va n : Nat) {d : State} (hd : d.skeins = s.skeins) :
    ((s.strandRead sk va n).state d).skeins = s.skeins := by
  induction n generalizing s va with
  | zero => rfl
  | succ n ih =>
    have haft := State.fetched_skeins s (clusterOf (sk.core.getD 0)) (s.domainOf sk.ctx) va 16
    unfold State.strandRead
    dsimp only
    split
    · split
      · exact haft
      · split
        · exact hd
        · exact haft
    · have h := (ih (s.fetched (clusterOf (sk.core.getD 0)) (s.domainOf sk.ctx) va 16) (va + 16) (hd.trans haft.symm)).trans haft
      split
      · next hr => rwa [hr] at h
      · exact h

theorem State.strandRead_skeins {s u : State} {sk : Skein} {va n : Nat} {b : List Byte}
    (h : s.strandRead sk va n = .ok b u) : u.skeins = s.skeins := by
  have hs := s.strandRead_state_skeins sk va n rfl
  rwa [h] at hs

theorem State.TablesWf.launchStop {s : State} (h : s.TablesWf) {sk : Skein} {i : Nat} {f : Fetched} :
    (s.launchStop sk i f).1.TablesWf := by
  unfold State.launchStop
  split
  · split
    · exact h.fatalNack
    · split
      · exact h.parkStrand
      · split
        · next hr => exact (h.frame (State.openFault_skeins hr)).parkStrand
        · exact h
  · exact h
  · exact h

theorem State.TablesWf.launchLane {d a : VReg} {block : Bool} {s : State} (h : s.TablesWf) (i : Nat) (t : Strand) :
    (State.launchLane d a block s i t).1.TablesWf := by
  unfold State.launchLane
  dsimp only
  split
  · exact h
  · split
    · exact h
    · split
      · next hr =>
        have h1 := h.frame (State.strandRead_skeins hr)
        split
        · exact h1.launchDone
        · split
          · exact h1.launchDone
          · split
            · next hr2 =>
              have h2 := h1.frame (State.strandRead_skeins hr2)
              split
              · exact h2.launchDone
              · split
                · exact h2.modStrand
                · exact State.TablesWf.launchDone (h2.frame (by simp))
            · exact (h1.frame (State.strandRead_state_skeins _ _ _ _ rfl)).launchStop
      · exact (h.frame (State.strandRead_state_skeins _ _ _ _ rfl)).launchStop

theorem State.TablesWf.launchWord {s : State} (h : s.TablesWf) {i : Instr} {g : BitVec 3} {d a : VReg} {block : Bool} :
    KeepsTables (s.launchWord i g d a block) := by
  refine h.word i fun sk t ht => ?_
  dsimp only
  split
  · exact ht.passBy
  · refine State.TablesWf.frame ?_ (issuedDirty_skeins _ _)
    refine ht.releasing _ _ _ _ fun u hu => ?_
    have hv := State.TablesWf.eachStrand (s := u.setDirty u.cur.skein) (hu.frame (by simp))
      (u.cur.strands.filter fun j => (t.acting g).contains j) (f := State.launchLane d a block)
      fun t i x ht => ht.launchLane i x
    exact (hv.noteWrites.ite hv).count.ite (hv.noteWrites.ite hv)

/-! ### BAR and WATCH -/

theorem State.TablesWf.barStrand {s : State} (h : s.TablesWf) {k op num : Nat} {bolt acq : Bool} {i : Nat} :
    (s.barStrand k op bolt num acq i).TablesWf := by
  unfold State.barStrand
  dsimp only
  split
  · split
    · exact h.modStrand
    · split
      · exact h.modStrand
      · exact h.modStrand
  · split
    · exact h.setBarrier.modStrand
    · split
      · exact h.setBarrier.modStrand
      · split
        · exact h.acquireThen
        · exact h.modStrand

theorem State.TablesWf.barEffect {s : State} (h : s.TablesWf) {op num : Nat} {bolt acq : Bool} :
    (s.barEffect op bolt num acq).TablesWf :=
  State.TablesWf.settleBarrier (State.TablesWf.foldl _ (fun _ _ ht => ht.barStrand) _ h)

theorem State.TablesWf.barWord {s : State} (h : s.TablesWf) {i : Instr} {op : Nat} {l : BitVec 1} {sc : BitVec 2}
    {e : BitVec 1} {n : BitVec 4} : KeepsTables (s.barWord i op l sc e n) := by
  refine h.word i fun sk t ht => ?_
  dsimp only
  split
  · split
    · exact ht.waiting _ _ fun u hu => hu.barEffect
    · exact ht.releasing _ _ _ _ fun u hu => hu.waiting _ _ fun v hv => hv.barEffect
  · exact ht.barEffect

theorem State.TablesWf.startWatch {s : State} (h : s.TablesWf) {sk : Skein} {i va : Nat} {d : VReg} {f : Nat} {cmp : Word}
    {timeout : Nat} : (s.startWatch sk i va d f cmp timeout).TablesWf := by
  unfold State.startWatch
  dsimp only
  split
  · exact State.TablesWf.modStrand h
  · split
    · exact State.TablesWf.frame (State.TablesWf.modStrand (h.frame (by simp))) (State.sendToHome_skeins ..)
    · exact State.TablesWf.frame (State.TablesWf.modStrand (h.frame (by simp)))
        ((State.sendFar_skeins ..).trans (State.fabricBytes_skeins ..))

theorem State.TablesWf.endWatch {s : State} (h : s.TablesWf) {c e : Nat} {which : Nat × Option Nat → Bool} {code rec : Nat}
    {val : Word} {moment p : Nat} : (s.endWatch c e which code rec val moment p).TablesWf := by
  unfold State.endWatch
  dsimp only
  split
  · exact h
  · split
    · exact h
    · split
      · refine State.TablesWf.takeTraps ?_
        exact h
      · split
        · exact State.TablesWf.foldl _ (fun _ _ ht => ht.nackStrand) _ (h.frame rfl)
        · refine State.TablesWf.noteWrites (State.TablesWf.modStrands ?_ _ _ _)
          split
          · exact h.frame (by simp)
          · exact h.frame (by simp)

/-! ### Cross-lane words -/

theorem State.TablesWf.cross {s : State} (h : s.TablesWf) {sk : Skein} {i : Instr} : (s.cross sk i).TablesWf := by
  unfold State.cross
  split
  · exact h
  · exact h.retire

theorem State.TablesWf.settleXlane {s : State} (h : s.TablesWf) {k w : Nat} : (s.settleXlane k w).TablesWf := by
  unfold State.settleXlane
  split
  · exact h
  · split
    · exact h
    · dsimp only
      split
      · exact h
      · refine State.TablesWf.cross ?_
        exact h.modStrands _ _ _

theorem State.TablesWf.crossWord {s : State} (h : s.TablesWf) {i : Instr} {any : Bool} : KeepsTables (s.crossWord i any) := by
  refine h.word i fun sk t ht => ?_
  split
  · exact ht.cross
  · refine ht.waiting _ _ fun u hu => ?_
    split
    · exact hu.cross
    · exact (hu.modStrands _ _ _).settleXlane

/-! ### Control -/

theorem State.TablesWf.goTo {s : State} (h : s.TablesWf) {sk : Skein} {i : Nat} {target : Int} {f : Strand → Strand} :
    (s.goTo sk i target f).1.TablesWf := by
  unfold State.goTo
  split
  · exact h.modStrand
  · exact h

theorem State.TablesWf.stackAccess {s : State} (h : s.TablesWf) {sk : Skein} {i va : Nat} {kind : ReqKind} {data : List Byte}
    {target : Word} : (s.stackAccess sk i va kind data target).1.TablesWf := by
  unfold State.stackAccess
  split
  · exact h
  · dsimp only
    refine State.TablesWf.frame ?_ (State.send_skeins ..)
    split
    · refine State.TablesWf.frame ?_ (State.killGlobal_skeins ..)
      split
      · exact State.TablesWf.modStrand (h.frame (by simp))
      · exact State.TablesWf.frame (State.TablesWf.modStrand (h.frame (by simp))) (State.l1Store_skeins ..)
    · exact State.TablesWf.frame (State.TablesWf.modStrand (h.frame (by simp))) (State.sendWcLine_skeins ..)

theorem State.TablesWf.callTo {s : State} (h : s.TablesWf) {sk : Skein} {i : Nat} {t : Strand} {target : Int} :
    (s.callTo sk i t target).1.TablesWf := by
  unfold State.callTo
  split
  · exact h
  · split
    · exact h
    · split
      · exact h.stackAccess
      · exact h.modStrand

theorem State.TablesWf.popTop {s : State} (h : s.TablesWf) {sk : Skein} {i : Nat} {t : Strand} :
    (s.popTop sk i t).1.TablesWf := by
  unfold State.popTop
  split
  · exact h
  · exact h.goTo

theorem State.TablesWf.fillDone {s : State} (h : s.TablesWf) {k i : Nat} {older newer : Word} :
    (s.fillDone k i older newer).TablesWf := by
  unfold State.fillDone
  split
  · exact h
  · dsimp only
    split
    · next wf _ _ =>
      have hp := fun (c : Issue) (sk : Skein) (t : Strand) (f : Strand → Strand) => State.TablesWf.popTop
        (s := { s.modStrand k i f with cur := c }) (sk := sk) (i := i) (t := t) h.modStrand
      split
      · exact hp _ _ _ _
      · exact State.TablesWf.takeTraps (hp _ _ _ _)
    · exact h.modStrand

theorem State.TablesWf.releaseRecord {s : State} (h : s.TablesWf) {k w : Nat} {target : Word} :
    (s.releaseRecord k w target).TablesWf := by
  unfold State.releaseRecord
  split
  · exact h
  · exact (h.modStrands _ _ _).modWeft _ _ _

theorem State.TablesWf.settleRecords {s : State} (h : s.TablesWf) {k w : Nat} : (s.settleRecords k w).TablesWf := by
  unfold State.settleRecords
  split
  · exact h
  · refine State.TablesWf.foldl _ (fun t r ht => ?_) _ h
    split
    · exact ht.releaseRecord
    · exact ht

theorem State.TablesWf.leaveBarriers {s : State} (h : s.TablesWf) {k : Nat} {is : List Nat} :
    (s.leaveBarriers k is).TablesWf := by
  unfold State.leaveBarriers
  split
  · exact h
  · dsimp only
    refine State.TablesWf.foldl _ (fun t n ht => ht.settleBarrier) _
      (State.TablesWf.foldl _ (fun t n ht => ht.settleBarrier) _ ?_)
    exact h.modSkein_frame k _ (fun _ => rfl) (fun _ => rfl)

theorem State.TablesWf.exitStrands {s : State} (h : s.TablesWf) {k w : Nat} {is : List Nat} :
    (s.exitStrands k w is).TablesWf := by
  have h5 := fun (f : Weft → Weft) => State.TablesWf.settleSetw (k := k) (State.TablesWf.settleWsync (k := k) (w := w)
    (State.TablesWf.settleSlice (k := k) (w := w) (State.TablesWf.settleXlane (k := k) (w := w) (State.TablesWf.releaseHeld
      (k := k) (w := w) (State.TablesWf.leaveBarriers (k := k) (is := is) (State.TablesWf.settleRecords (k := k) (w := w)
        ((h.modStrands k is (fun _ t => { t with status := .exited, hold := none })).modWeft k w f)))))))
  unfold State.exitStrands
  dsimp only
  split
  · split
    · exact (h5 _).frame (State.trigger_skeins ..)
    · exact h5 _
  · exact h5 _

end Sys2Proof.Machine
end

section
/-! The tables of strands and wefts under the scratchpad banks and the memory words, shadows and copies (R172 to R250). -/

namespace Sys2Proof.Machine

/-! ### The scratchpad banks -/

theorem State.TablesWf.modScratch {s : State} (h : s.TablesWf) {c : Nat} {f : Scratch → Scratch} :
    (s.modScratch c f).TablesWf := h.frame (by simp)

theorem State.TablesWf.occupy {s : State} (h : s.TablesWf) {c n : Nat} : (s.occupy c n).TablesWf := h

theorem State.TablesWf.bankEvent {s : State} (h : s.TablesWf) {c bank : Nat} {hard : Bool} {ctx : Option Nat} :
    (s.bankEvent c bank hard ctx).TablesWf := h.frame (by simp)

theorem State.TablesWf.killHolders {s : State} (h : s.TablesWf) {c w : Nat} : (s.killHolders c w).TablesWf :=
  State.TablesWf.foldl _ (fun _ _ ht => ht.gangFault) _ h

theorem State.TablesWf.poisonWord {s : State} (h : s.TablesWf) {c w : Nat} : (s.poisonWord c w).TablesWf :=
  State.TablesWf.killHolders (h.frame (by simp))

theorem State.TablesWf.endRetireWait {s : State} (h : s.TablesWf) {c g : Nat} : (s.endRetireWait c g).TablesWf :=
  State.TablesWf.foldl _ (fun _ _ ht => (ht.modWeft _ _ _).ite ht) _ h

theorem State.TablesWf.endRebuild {s : State} (h : s.TablesWf) {c g : Nat} : (s.endRebuild c g).TablesWf := by
  unfold State.endRebuild
  dsimp only
  refine State.TablesWf.frame (State.TablesWf.endRetireWait (State.TablesWf.frame (State.TablesWf.foldl _ (fun t w ht => ?_) _ ?_)
    ((State.raiseDegraded_skeins ..).trans ((State.raiseRetired_skeins ..).trans (State.modScratch_skeins ..)))))
    (State.checkHealth_skeins ..)
  · exact ht.poisonWord
  · exact h.frame (by simp)

theorem State.TablesWf.takeOffline {s : State} (h : s.TablesWf) {c g : Nat} {ctx : Option Nat} :
    (s.takeOffline c g ctx).TablesWf := by
  unfold State.takeOffline
  split
  · exact h
  · extract_lets s0 s1 s2
    have h0 : s0.TablesWf := h.endRebuild.ite h
    have h1 : s1.TablesWf := h0
    have h2 : s2.TablesWf := h1.frame (State.raiseDegraded_skeins ..)
    exact State.TablesWf.frame (State.TablesWf.foldl _ (fun t p ht => ht.frame (by simp)) _ h2) (State.checkHealth_skeins ..)

theorem State.TablesWf.loseWord {s : State} (h : s.TablesWf) {c w : Nat} {ctx : Option Nat} : (s.loseWord c w ctx).TablesWf :=
  h.poisonWord.takeOffline.ite h.poisonWord

theorem State.TablesWf.retireBank {s : State} (h : s.TablesWf) {c bank cause : Nat} {ctx : Option Nat} :
    (s.retireBank c bank cause ctx).TablesWf :=
  h.takeOffline.ite ((h.frame (by simp)).ite (h.frame (by simp)))

theorem State.TablesWf.settleBanks {s : State} (h : s.TablesWf) : s.settleBanks.TablesWf :=
  State.TablesWf.foldl _ (fun _ _ ht => State.TablesWf.foldl _ (fun _ _ hu => hu.retireBank) _ (ht.frame (by simp))) _ h

theorem State.TablesWf.countFor {s : State} (h : s.TablesWf) {reader : Option Nat} {pmc : Nat} :
    (s.countFor reader pmc).TablesWf := by
  unfold State.countFor
  split
  · exact h.count
  · exact h

theorem State.TablesWf.loseMember {s : State} (h : s.TablesWf) {c g row j : Nat} {ctx : Option Nat} :
    (s.loseMember c g row j ctx).TablesWf := h.poisonWord.bankEvent

theorem State.TablesWf.fixSelvage {s : State} (h : s.TablesWf) {c g row : Nat} {ctx : Option Nat} :
    (s.fixSelvage c g row ctx).TablesWf := by
  unfold State.fixSelvage
  exact (State.TablesWf.foldl _ (fun _ _ ht => ht.loseMember) _ h.modScratch).modScratch.bankEvent

theorem State.TablesWf.fixData {s : State} (h : s.TablesWf) {c g row m : Nat} {reader ctx : Option Nat} :
    (s.fixData c g row m reader ctx).1.TablesWf := by
  have h2 : ∀ (p : Prop) [Decidable p] (f : Scratch → Scratch) (f' : Scratch → Scratch),
      ((if p then (s.modScratch c f).countFor reader 4 else s).modScratch c f').TablesWf := fun p _ f f' =>
    (h.modScratch.countFor.ite h).modScratch
  unfold State.fixData
  extract_lets hard s1 s2 sc s3 s3'
  split
  · have h3 : s3.TablesWf := State.TablesWf.foldl _ (fun _ _ ht => ht.loseMember) _ (h2 _ _ _)
    exact h3.fixSelvage.ite h3
  · exact (h2 _ _ _).modScratch.countFor.bankEvent

theorem State.TablesWf.fixMember {s : State} (h : s.TablesWf) {c g row j : Nat} {reader ctx : Option Nat} :
    (s.fixMember c g row j reader ctx).1.TablesWf := by
  unfold State.fixMember
  split
  · exact h.frame (by simp)
  · split
    · exact h.fixSelvage
    · exact h.fixData

theorem State.TablesWf.fixAlone {s : State} (h : s.TablesWf) {c w : Nat} {ctx : Option Nat} : (s.fixAlone c w ctx).1.TablesWf := by
  unfold State.fixAlone
  extract_lets sc g j
  split
  · refine State.TablesWf.loseWord ?_
    exact h
  · exact h.modScratch

theorem State.TablesWf.scFix {s : State} (h : s.TablesWf) {c w : Nat} {reader ctx : Option Nat} {conf : Bool} :
    (s.scFix c w reader ctx conf).1.TablesWf := by
  have hb : ∀ (p : Prop) [Decidable p], (if p then s.freeBool else (false, s)).2.TablesWf := by
    intro p _
    split
    · exact h
    · exact h
  unfold State.scFix
  extract_lets sc g row m b t
  split
  · exact h
  · split
    · exact h.fixAlone
    · split
      · exact h
      · have hb : b.2.TablesWf := hb _
        have ht : t.TablesWf := hb.modScratch
        split
        · exact hb.fixMember
        · split
          · exact State.TablesWf.fixMember (State.TablesWf.foldl _ (fun _ _ ht => ht.fixMember) _ ht)
          · exact ht.countFor

theorem State.TablesWf.scRead {s : State} (h : s.TablesWf) {c p n : Nat} {reader : Option Nat} {conf : Bool} :
    (s.scRead c p n reader conf).1.TablesWf := by
  unfold State.scRead
  dsimp only
  split
  · exact h.scFix
  · exact h.scFix

theorem State.TablesWf.scWrite {s : State} (h : s.TablesWf) {c p : Nat} {bs : List Byte} {ctx : Option Nat} :
    (s.scWrite c p bs ctx).TablesWf := by
  unfold State.scWrite
  extract_lets w g normal s1 lost s2
  have h1 : s1.TablesWf := h.scFix.ite h
  have h2 : s2.TablesWf := State.TablesWf.ite (h1.frame rfl) h1
  exact h2.modScratch

theorem State.TablesWf.scReadAll {s : State} (h : s.TablesWf) {c : Nat} {reader : Option Nat} {conf : Bool} {fuel p n : Nat} :
    (s.scReadAll c reader conf fuel p n).1.TablesWf := by
  induction fuel generalizing s p n with
  | zero => exact h
  | succ fuel ih =>
    unfold State.scReadAll
    split
    · exact h
    · exact ih h.scRead

theorem State.TablesWf.scWriteAll {s : State} (h : s.TablesWf) {c : Nat} {ctx : Option Nat} {fuel p : Nat} {bs : List Byte} :
    (s.scWriteAll c ctx fuel p bs).TablesWf := by
  induction fuel generalizing s p bs with
  | zero => exact h
  | succ fuel ih =>
    unfold State.scWriteAll
    split
    · exact h
    · exact ih h.scWrite

theorem State.TablesWf.scrubMember {s : State} (h : s.TablesWf) {c g row j : Nat} : (s.scrubMember c g row j).TablesWf :=
  h.fixMember.ite ((h.ite h.fixAlone).ite ((h.frame (by simp)).ite h.fixAlone))

theorem State.TablesWf.noteReads {s : State} (h : s.TablesWf) {k c : Nat} {ws : List Nat} {alone : Bool} :
    (s.noteReads k c ws alone).TablesWf := by
  unfold State.noteReads
  dsimp only
  split
  · exact State.TablesWf.frame (State.TablesWf.count (h.frame (by simp))) rfl
  · exact State.TablesWf.count (State.TablesWf.count (h.frame rfl))

theorem State.TablesWf.takeSpan {s : State} (h : s.TablesWf) {k : Nat} {x : Span} {conf : Bool} :
    (s.takeSpan k x conf).1.TablesWf := h.scReadAll

theorem State.TablesWf.readSpan {s : State} (h : s.TablesWf) {k : Nat} {x : Span} : (s.readSpan k x).1.TablesWf :=
  h.noteReads.takeSpan

theorem State.TablesWf.writeSpan {s : State} (h : s.TablesWf) {x : Span} {bs : List Byte} {ctx : Nat} :
    (s.writeSpan x bs ctx).TablesWf :=
  State.TablesWf.frame (State.TablesWf.scWriteAll (h.frame (by simp))) (State.occupy_skeins ..)

theorem State.TablesWf.zeroScratch {s : State} (h : s.TablesWf) {core lo n : Nat} : (s.zeroScratch core lo n).TablesWf :=
  State.TablesWf.foldl _ (fun _ _ ht => ht.scWrite) _ h

/-! ### Loads, stores, atomics of a word -/

theorem State.TablesWf.loadEnd {s : State} (h : s.TablesWf) {k i c seq reg z : Nat} : (s.loadEnd k i c seq reg z).TablesWf := by
  unfold State.loadEnd
  split
  · exact h
  · dsimp only
    split
    · exact h
    · refine State.TablesWf.noteWrites ?_
      exact h

theorem State.TablesWf.loadHit {s : State} (h : s.TablesWf) {act : List Nat} {d : VReg} {e : ReuseEntry} :
    (s.loadHit act d e).TablesWf :=
  (State.TablesWf.foldl _ (fun _ _ ht => ht.modStrand) act h).passBy.count.count

theorem State.TablesWf.ldgLane {sk : Skein} {d a : VReg} {o : BitVec 4} {z v pol : Nat} {s : State} (h : s.TablesWf)
    (i : Nat) (t : Strand) : (State.ldgLane sk d a o z v pol s i t).1.TablesWf := by
  unfold State.ldgLane
  dsimp only
  split
  · exact h
  · split
    · exact State.TablesWf.modStrand (h.frame (by simp))
    · exact State.TablesWf.modStrand (h.frame (by simp))

theorem State.TablesWf.stgLane {sk : Skein} {d a : VReg} {o : BitVec 4} {z v pol : Nat} {s : State} (h : s.TablesWf)
    (i : Nat) (t : Strand) : (State.stgLane sk d a o z v pol s i t).1.TablesWf := by
  unfold State.stgLane
  dsimp only
  split
  · exact h
  · refine State.TablesWf.modStrand ?_
    split
    · exact h.frame (by simp)
    · exact h.frame (by simp)

theorem State.TablesWf.noteLds {s : State} (h : s.TablesWf) {spans : List Span} : (s.noteLds spans).TablesWf :=
  State.TablesWf.foldl _ (fun _ _ ht => ht.noteReads.occupy) _ h

theorem State.TablesWf.ldsLane {sk : Skein} {d a : VReg} {off : Int} {z : Nat} {s : State} (h : s.TablesWf)
    (i : Nat) (t : Strand) : (State.ldsLane sk d a off z s i t).1.TablesWf := by
  unfold State.ldsLane
  split
  · exact h
  · next x _ =>
    have h1 := h.takeSpan (k := s.cur.skein) (x := x) (conf := true)
    dsimp only
    split
    · next hx => rwa [hx] at h1
    · next hx =>
      rw [hx] at h1
      exact State.TablesWf.modStrand (h1.frame (by simp))

theorem State.TablesWf.stsLane {sk : Skein} {d a : VReg} {off : Int} {z : Nat} {s : State} (h : s.TablesWf)
    (i : Nat) (t : Strand) : (State.stsLane sk d a off z s i t).1.TablesWf := by
  unfold State.stsLane
  split
  · exact h
  · exact h.writeSpan.occupy.modStrand

theorem State.TablesWf.ldgaLane {sk : Skein} {d a : VReg} {o : BitVec 4} {z pol : Nat} {s : State} (h : s.TablesWf)
    (i : Nat) (t : Strand) : (State.ldgaLane sk d a o z pol s i t).1.TablesWf := by
  unfold State.ldgaLane
  dsimp only
  split
  · exact h
  · refine State.TablesWf.modStrand ?_
    split
    · split
      · exact h.frame (State.sendWcLine_skeins ..)
      · exact h.frame ((State.hitValue_skeins ..).trans (State.sendWcLine_skeins ..))
    · exact h.frame (by simp)

theorem State.TablesWf.prefLane {sk : Skein} {a : VReg} {o : BitVec 4} {z fn : Nat} {s : State} (h : s.TablesWf)
    (i : Nat) (t : Strand) : (State.prefLane sk a o z fn s i t).1.TablesWf := by
  unfold State.prefLane
  dsimp only
  split
  · exact h.modStrand
  · exact State.TablesWf.modStrand (h.frame (by simp))

theorem State.TablesWf.prefWord {s : State} (h : s.TablesWf) {i : Instr} {g : BitVec 3} {a : VReg} {o : BitVec 4} {z fn : Nat} :
    KeepsTables (s.prefWord i g a o z fn) :=
  h.word i fun _ _ ht => State.TablesWf.eachStrand (ht.frame (State.nextSeq_skeins ..)) _ fun _ i x hu => hu.prefLane i x

theorem State.TablesWf.countPark {s : State} (h : s.TablesWf) {r : Req} : (s.countPark r).TablesWf := by
  unfold State.countPark
  split
  · exact h
  · exact State.TablesWf.count (h.frame rfl)

theorem State.TablesWf.endUnwritten {s : State} (h : s.TablesWf) {id : Nat} {r : Req} : (s.endUnwritten id r).TablesWf := by
  have h1 : ((s.endReq id).entryDrop r.core r.seq).TablesWf := h.frame (by simp)
  exact h1.loadEnd.ite h1

theorem State.TablesWf.nackLoad {s : State} (h : s.TablesWf) {id : Nat} {r : Req} {a : Answer} : (s.nackLoad id r a).TablesWf :=
  (h.ite h.countPark).endUnwritten.nackStrand

theorem State.TablesWf.denyLoad {s : State} (h : s.TablesWf) {id : Nat} {r : Req} : (s.denyLoad id r).TablesWf := by
  unfold State.denyLoad
  dsimp only
  split
  · exact h.endUnwritten.takeTraps
  · exact h.endUnwritten

theorem State.TablesWf.holdReq {s : State} (h : s.TablesWf) {id : Nat} {r : Req} {a : Answer} : (s.holdReq id r a).TablesWf := by
  unfold State.holdReq
  split
  · exact State.TablesWf.fatalNack (h.frame (by simp))
  · split
    · exact h.frame (by simp)
    · split
      · exact h.frame (State.send_skeins ..)
      · exact h.frame ((State.releasePorts_skeins ..).trans (State.farReply_skeins ..))

theorem State.TablesWf.denyPosted {s : State} (h : s.TablesWf) {id : Nat} : (s.denyPosted id).TablesWf := by
  unfold State.denyPosted
  split
  · exact h.frame (by simp)
  · have h1 := fun r f => h.frame ((State.releasePorts_skeins ((s.farReply r).modReq id f)).trans (State.farReply_skeins s r))
    dsimp only
    split
    · exact (h1 _ _).settleXlane
    · exact h1 _ _

theorem State.TablesWf.atgLane {sk : Skein} {fn n : Nat} {cas : Bool} {d a b : VReg} {s : State} (h : s.TablesWf)
    (i : Nat) (t : Strand) : (State.atgLane sk fn n cas d a b s i t).1.TablesWf := by
  unfold State.atgLane
  dsimp only
  split
  · exact h
  · exact State.TablesWf.modStrand (h.frame (by simp))

theorem State.TablesWf.atgWord {s : State} (h : s.TablesWf) {i : Instr} {fn n : Nat} {cas : Bool} {g : BitVec 3} {d a b : VReg} :
    KeepsTables (s.atgWord i fn n cas g d a b) := by
  refine h.word i fun sk t ht => ?_
  dsimp only
  split
  · exact ht.passBy
  · exact State.TablesWf.eachStrand (ht.frame (by simp)) _ fun _ i x hu => hu.atgLane i x

theorem State.TablesWf.atsLane {sk : Skein} {fn : Nat} {d a b : VReg} {s : State} (h : s.TablesWf)
    (i : Nat) (t : Strand) : (State.atsLane sk fn d a b s i t).1.TablesWf := by
  unfold State.atsLane
  split
  · exact h
  · next x _ =>
    have h1 := h.takeSpan (k := s.cur.skein) (x := x) (conf := false)
    split
    · next hx => rwa [hx] at h1
    · next hx =>
      rw [hx] at h1
      exact State.TablesWf.modStrand (h1.writeSpan.frame (State.occupy_skeins ..))

theorem State.TablesWf.atsWord {s : State} (h : s.TablesWf) {i : Instr} {fn : Nat} {g : BitVec 3} {d a b : VReg} :
    KeepsTables (s.atsWord i fn g d a b) := by
  refine h.word i fun sk t ht => ?_
  have h1 := fun act => ht.eachStrand act (f := State.atsLane sk fn d a b) fun _ i x hu => hu.atsLane i x
  dsimp only
  split
  · exact ht
  · exact (h1 _).ite (h1 _).noteWrites

/-! ### Shadows -/

theorem State.TablesWf.endShd {s : State} (h : s.TablesWf) {id : Nat} {o : ShdOp} : (s.endShd id o).TablesWf :=
  State.TablesWf.modWeft (h.frame rfl) _ _ _

theorem State.TablesWf.startShd {s : State} (h : s.TablesWf) {sk : Skein} {kind slot : Nat} {act : List Nat} {d : Nat}
    {vals : List (Nat × Nat)} {homes : List Nat} {va : Nat} {g : BitVec 3} :
    (s.startShd sk kind slot act d vals homes va g).TablesWf := by
  unfold State.startShd
  refine State.TablesWf.foldl _ (fun t e ht => ?_) _ ?_
  · exact State.TablesWf.ite (ht.frame ((State.sendFar_skeins ..).trans (State.fabricBytes_skeins ..))) ht
  · exact State.TablesWf.modStrands (State.TablesWf.modWeft (h.frame rfl) _ _ _) _ _ _

theorem State.TablesWf.shadowTrap {s : State} (h : s.TablesWf) {act : List Nat} {val : Nat} : (s.shadowTrap act val).TablesWf :=
  h.eachStrand _ fun _ _ _ ht => ht

theorem State.TablesWf.rstLane {sk : Skein} {fn : Nat} {a b : VReg} {s : State} (h : s.TablesWf)
    (i : Nat) (t : Strand) : (State.rstLane sk fn a b s i t).1.TablesWf := by
  unfold State.rstLane
  dsimp only
  split
  · exact h
  · split
    · exact h
    · exact State.TablesWf.modStrand (h.frame (by simp))

theorem State.TablesWf.rstWord {s : State} (h : s.TablesWf) {i : Instr} {fn : Nat} {g : BitVec 3} {a b : VReg} :
    KeepsTables (s.rstWord i fn g a b) := by
  refine h.word i fun sk t ht => ?_
  dsimp only
  split
  · exact ht.passBy
  · refine State.TablesWf.eachStrand (State.TablesWf.frame ((ht.frame (by simp)).ite ht) (State.nextSeq_skeins ..)) _ fun _ i x hu => hu.rstLane i x

/-! ### Copies -/

theorem State.TablesWf.copyWord {s : State} (h : s.TablesWf) {i : Instr} {kind : Nat} {g : BitVec 3} {a : VReg} {tag : BitVec 7} :
    KeepsTables (s.copyWord i kind g a tag) := by
  refine h.word i fun sk t ht => ?_
  dsimp only
  split
  · exact ht.unalone.passBy
  · have hend : ∀ (p : Prop) [Decidable p] (r : Attempt), r.2.TablesWf →
        (if p then issuedDirty t.cur.skein r else r).2.TablesWf := by
      intro p _ r hr
      split
      · exact hr.frame (issuedDirty_skeins ..)
      · exact hr
    refine hend _ _ ?_
    split
    · exact ht.unalone.trapAll
    · split
      · exact ht.unalone.eachStrand _ fun _ _ _ hu => hu
      · split
        · exact ht.alone
        · split
          · exact ht.unalone
          · refine State.TablesWf.passBy (State.TablesWf.unalone (ht.frame ?_))
            simp

theorem State.TablesWf.readPiece {s : State} (h : s.TablesWf) {id : Nat} {cp : Copy} {p : Piece} {remote : List Byte} :
    (s.readPiece id cp p remote).1.TablesWf := by
  have hgot : (if srcGlobal cp.kind then
      (if ¬ s.isLocal p.src then (s, some ((List.range p.len).map (fun j => nth 0 remote (p.off + j))))
      else match s.page (s.domainOf cp.ctx) p.src with
        | some (_, s2) => (s, some (getBytes s.homes s2 p.src p.len))
        | none => (s, none))
    else match s.skein? cp.skein with
      | some sk => s.readSpan cp.skein { core := (s.scratchAt sk p.src).1, lo := (s.scratchAt sk p.src).2, len := p.len }
      | none => (s, none)).1.TablesWf := by
    split
    · split
      · exact h
      · split
        · exact h
        · exact h
    · split
      · exact h.readSpan
      · exact h
  unfold State.readPiece
  dsimp only
  split
  · exact hgot
  · exact State.TablesWf.ite hgot hgot

theorem State.TablesWf.writePiece {s : State} (h : s.TablesWf) {id : Nat} {cp : Copy} {p : Piece} {bs : List Byte} :
    (s.writePiece id cp p bs).TablesWf := by
  unfold State.writePiece
  dsimp only
  split
  · split
    · split
      · next hr => exact h.frame (State.shadowStep_skeins hr)
      · exact h
    · split
      · exact h
      · split
        · exact h.frame (by simp)
        · exact h
  · split
    · exact h
    · refine State.TablesWf.foldl _ (fun t x ht => State.TablesWf.writeSpan ?_) _ h
      exact ht.ite ht

theorem State.TablesWf.runPiece {s : State} (h : s.TablesWf) (id : Nat) (cp : Copy) (p : Piece) (remote : List Byte) :
    (match s.readPiece id cp p remote with
    | (u, some bs) => u.writePiece id cp p bs
    | (u, none) => u).TablesWf := by
  have h1 := h.readPiece (id := id) (cp := cp) (p := p) (remote := remote)
  generalize s.readPiece id cp p remote = r at h1 ⊢
  obtain ⟨u, _ | bs⟩ := r
  · exact h1
  · exact State.TablesWf.writePiece h1

theorem State.TablesWf.runPieces {s : State} (h : s.TablesWf) {id : Nat} {cp : Copy} {remote : List Byte} {ps : List Piece} :
    (s.runPieces id cp remote ps).TablesWf :=
  State.TablesWf.foldl _ (fun _ p ht => ht.runPiece id cp p remote) _ h

theorem State.TablesWf.coverCopies {s : State} (h : s.TablesWf) {k w : Nat} {cover : List DoneCopy} :
    (s.coverCopies k w cover).TablesWf := by
  unfold State.coverCopies
  split
  · refine State.TablesWf.modSkein_frame ?_ k _ (fun _ => rfl) (fun _ => rfl)
    exact State.TablesWf.foldl _ (fun t r ht => ht.frame (by simp)) _ (h.frame rfl)
  · exact h

theorem State.TablesWf.cwaitWord {s : State} (h : s.TablesWf) {i : Instr} {g : BitVec 3} {tag : Option Nat} :
    KeepsTables (s.cwaitWord i g tag) := by
  refine h.word i fun sk t ht => ?_
  dsimp only
  split
  · exact ht.unalone.passBy
  · split
    · exact ht.alone
    · split
      · refine State.TablesWf.shadowTrap (State.TablesWf.unalone ?_)
        exact ht.modSkein_frame _ _ (fun _ => rfl) (fun _ => rfl)
      · exact ht.coverCopies.unalone.passBy

end Sys2Proof.Machine
end

section
/-! The tables of strands and wefts under bolts that start, end, are saved and restored, under the matrix engine, what
comes from outside, what settles between steps, and the preparation of an issue. -/

namespace Sys2Proof.Machine

/-! ### Bolts start, stop and go away -/

theorem State.TablesWf.fillScratch {s : State} (h : s.TablesWf) {core lo : Nat} {saved : Cells Byte} :
    (s.fillScratch core lo saved).TablesWf :=
  State.TablesWf.foldl _ (fun _ _ ht => ht.scWrite) _ h

theorem State.TablesWf.startAcquire {s : State} (h : s.TablesWf) {k : Nat} : (s.startAcquire k).TablesWf := by
  unfold State.startAcquire
  split
  · exact h
  · exact State.TablesWf.frame (State.TablesWf.foldl _ (fun _ _ ht => ht.acquire) _ h) (State.killContext_skeins ..)

theorem State.newSkein_tablesWf (s : State) (l : Launch) (b core : Nat) (ws : List Word) (block : Option Nat) :
    (s.newSkein l b core ws block).TablesWf :=
  ⟨freshStrands_wf _ _, freshWefts_wf _ _⟩

theorem State.TablesWf.modBolt {s : State} (h : s.TablesWf) {b : Nat} {f : Bolt → Bolt} : (s.modBolt b f).TablesWf := h

theorem State.TablesWf.fillSlot {s : State} (h : s.TablesWf) {core slot k : Nat} : (s.fillSlot core slot k).TablesWf := h

theorem State.TablesWf.startSkein {s t : State} (h : s.TablesWf) {l : Launch} {b : Nat} {e : Nat × Nat × List Word}
    (ht : s.startSkein l b e = some t) : t.TablesWf := by
  unfold State.startSkein at ht
  dsimp only at ht
  split at ht
  · cases ht
  · next block s1 hg =>
    obtain rfl := Option.some.inj ht
    have h1 := h.frame (State.giveBlock_skeins hg)
    refine State.TablesWf.modBolt (State.TablesWf.fillSlot (State.TablesWf.zeroScratch
      (State.TablesWf.set h1 (k := s1.nextId) (v := some (s1.newSkein l b e.1 e.2.2 block)) ?_ rfl)))
    rintro sk ⟨⟩
    exact s1.newSkein_tablesWf ..

theorem State.TablesWf.resumeSkein {s : State} (h : s.TablesWf) {k : Nat} {e : Nat × Nat × List Word} :
    (s.resumeSkein k e).TablesWf := by
  unfold State.resumeSkein
  split
  · exact h
  · next sk _ =>
    extract_lets c s1 s2 onCore s3
    have h1 : s1.TablesWf := h.modSkein k _ fun _ hx => ⟨Tab.wf_mapVal (fun _ => _) hx.1, Tab.wf_mapVal (fun _ => _) hx.2⟩
    have h2 : s2.TablesWf := h1.zeroScratch.fillScratch
    exact h2

theorem State.TablesWf.resend {s : State} (h : s.TablesWf) {id : Nat} : (s.resend id).TablesWf := h.frame (by simp)

theorem State.TablesWf.releaseSkein {s : State} (h : s.TablesWf) {k : Nat} : (s.releaseSkein k).TablesWf := by
  unfold State.releaseSkein
  split
  · exact h
  · next sk _ =>
    extract_lets held s1 s2 s3 s4
    have h1 : s1.TablesWf := State.TablesWf.foldl _ (fun _ _ ht => ht.resend) _ h
    have h2 : s2.TablesWf := State.TablesWf.foldl _ (fun _ _ ht => ht.settleXlane.settleSlice.settleWsync) _ h1
    have h4 : s4.TablesWf := State.TablesWf.foldl _ (fun _ _ ht => ht.settleBarrier) _ h2.settleSetw
    exact State.TablesWf.foldl _ (fun _ _ ht => ht.settleBarrier) _ h4

theorem State.TablesWf.resumeRecord {s : State} (h : s.TablesWf) {bo : Bolt} {e : Nat × Nat × List Word} :
    (s.resumeRecord bo e).TablesWf := by
  unfold State.resumeRecord
  split
  · exact h.resumeSkein
  · exact h

theorem State.TablesWf.ctxRuns {s : State} (h : s.TablesWf) {ctx : Nat} : (s.ctxRuns ctx).TablesWf := h.frame (by simp)

theorem State.TablesWf.startNew {s : State} (h : s.TablesWf) {id : Nat} {l : Launch} {index : Nat} {old : Option (Nat × Bolt)}
    {es : List (Nat × Nat × List Word)} : (s.startNew id l index old es).TablesWf := by
  unfold State.startNew
  extract_lets b s0 s1
  have h0 : s0.TablesWf := State.TablesWf.ite h h
  have h1 : s1.TablesWf := h0
  split
  · exact h
  · next s2 hs2 =>
    have h2 : s2.TablesWf := foldl_bind_tablesWf (fun _ _ _ hs ht => hs.startSkein ht) es (by rintro _ ⟨⟩; exact h1) hs2
    exact (State.TablesWf.foldl _ (fun _ _ ht => ht.startAcquire) _ h2).ctxRuns

theorem State.TablesWf.startSaved {s : State} (h : s.TablesWf) {b : Nat} {bo : Bolt} {es : List (Nat × Nat × List Word)} :
    (s.startSaved b bo es).TablesWf := by
  unfold State.startSaved
  extract_lets s1 s2
  have h1 : s1.TablesWf := State.TablesWf.foldl _ (fun _ _ ht => ht.resumeRecord) _ h
  have h2 : s2.TablesWf := State.TablesWf.foldl _ (fun _ _ ht => ht.startAcquire) _ h1
  exact (State.TablesWf.foldl _ (fun _ _ ht => ht.releaseSkein) _ h2).ite h2

theorem State.TablesWf.ctxIdles {s : State} (h : s.TablesWf) {ctx : Nat} : (s.ctxIdles ctx).TablesWf := h.frame (by simp)

theorem State.TablesWf.retireBolt {s : State} (h : s.TablesWf) {b : Nat} : (s.retireBolt b).TablesWf := by
  unfold State.retireBolt
  split
  · exact h
  · split
    · exact h
    · extract_lets s1 s2
      have h1 : s1.TablesWf := h
      have h2 : s2.TablesWf := by
        dsimp only [s2]
        split
        · exact h1.freeLaunch.ite h1
        · exact h1
      exact h2.ctxIdles

theorem State.TablesWf.startDrain {s : State} (h : s.TablesWf) {ctx : Nat} : (s.startDrain ctx).TablesWf := by
  unfold State.startDrain
  split
  · exact h
  · extract_lets bs s1 s2 s3 s4
    have h1 : s1.TablesWf := State.TablesWf.foldl _ (fun _ b ht => State.TablesWf.frame (ht.haltBolt (b := b)) (by simp)) _ h
    have h3 : s3.TablesWf := State.TablesWf.foldl _ (fun _ _ ht => ht.fillEntry) _ h1
    have h4 : s4.TablesWf := State.TablesWf.foldl _ (fun _ _ ht => State.TablesWf.ite ht (ht.frame (by simp))) _ h3
    exact h4.frame ((State.clearSlots_skeins ..).trans (State.closeQueues_skeins ..))

theorem State.TablesWf.settleDrains {s : State} (h : s.TablesWf) : s.settleDrains.TablesWf := by
  refine State.TablesWf.foldl _ (fun t e ht => ?_) _ h
  split
  · exact ht.startDrain.ite ht
  · exact State.TablesWf.ite (ht.frame (by simp)) (ht.frame (by simp))
  · exact ht.frame (by simp)
  · exact ht

theorem State.TablesWf.destroyCtx {s : State} (h : s.TablesWf) {ctx : Nat} : (s.destroyCtx ctx).TablesWf := by
  unfold State.destroyCtx
  split
  · exact h
  · split
    · exact h
    · exact h.ite h.startDrain

/-! ### Special registers, fetches -/

theorem State.TablesWf.writeSr {s : State} (h : s.TablesWf) {sk : Skein} {n : Nat} {v : Word} : (s.writeSr sk n v).TablesWf := by
  have hk : ∀ f : Skein → Skein, (∀ x, (f x).strands = x.strands) → (∀ x, (f x).wefts = x.wefts) →
      (s.modSkein s.cur.skein f).TablesWf := fun f hs hw => h.modSkein_frame _ f hs hw
  unfold State.writeSr
  dsimp only
  split
  · exact (h.modWeft _ _ _).ite h
  · split
    · exact hk _ (fun _ => rfl) fun _ => rfl
    · refine State.TablesWf.ite h (State.TablesWf.ite h (State.TablesWf.ite h ?_))
      split
      · exact hk _ (fun _ => rfl) fun _ => rfl
      · exact State.TablesWf.ite h h

theorem State.TablesWf.failFetch {s : State} (h : s.TablesWf) {f : Fetch} {code rec va : Nat} :
    (s.failFetch f code rec va).TablesWf := by
  refine State.TablesWf.foldl _ (fun t w ht => ?_) _ h
  split
  · exact ht
  · exact ht.ite (ht.fatalNack.ite ht.modStrand)

/-! ### Save and restore -/

theorem State.TablesWf.modCore {s : State} (h : s.TablesWf) {c : Nat} {f : CoreSt → CoreSt} : (s.modCore c f).TablesWf := h

theorem State.TablesWf.haltSkein {s : State} (h : s.TablesWf) {k : Nat} {sk : Skein} : (s.haltSkein k sk).TablesWf := by
  unfold State.haltSkein
  extract_lets n c s1 s2 s3
  have h1 : s1.TablesWf := h.modSkein k _ fun _ hx => ⟨Tab.wf_mapVal (fun i => s.haltStrand c i) hx.1, Tab.wf_mapVal (fun _ => _) hx.2⟩
  have h2 : s2.TablesWf := h1
  have h3 : s3.TablesWf := h2.frame (State.sendWc_skeins ..)
  exact h3

theorem State.TablesWf.abandonReq {s : State} (h : s.TablesWf) {id : Nat} {r : Req} : (s.abandonReq id r).TablesWf := by
  unfold State.abandonReq
  split
  · exact h
  · refine State.TablesWf.modStrand ?_
    split
    · exact h
    · exact h

theorem State.TablesWf.saveScratch {s : State} (h : s.TablesWf) {k : Nat} {sk : Skein} : (s.saveScratch k sk).TablesWf := by
  unfold State.saveScratch
  extract_lets c r
  have hr : r.1.TablesWf := by
    refine foldl_fst_tablesWf _ (fun a w ha => ?_) _ h
    have h1 := ha.scRead (c := c) (p := w * 16) (n := 16) (reader := none) (conf := false)
    generalize a.1.scRead c (w * 16) 16 none false = x at h1 ⊢
    obtain ⟨t, _ | bs⟩ := x
    · exact h1
    · exact h1
  exact hr.modSkein_frame k _ (fun _ => rfl) (fun _ => rfl)

theorem State.TablesWf.saveSkein {s : State} (h : s.TablesWf) {k : Nat} {sk : Skein} : (s.saveSkein k sk).TablesWf := by
  unfold State.saveSkein
  dsimp only
  split
  · exact h.saveScratch
  · refine State.TablesWf.modCore ?_
    exact h.saveScratch.modSkein_frame k _ (fun _ => rfl) (fun _ => rfl)

theorem State.TablesWf.replayRecord {s : State} (h : s.TablesWf) {id : Nat} : (s.replayRecord id).TablesWf := by
  unfold State.replayRecord
  extract_lets away s0 s1 s2 s3
  have h0 : s0.TablesWf := State.TablesWf.foldl _ (fun _ _ ht => ht.frame (by simp)) _ h
  have h2 : s2.TablesWf := by
    refine State.TablesWf.foldl _ (fun t e ht => ?_) _ h0
    split
    · exact ht
    · exact State.TablesWf.foldl _ (fun _ _ hu => State.TablesWf.ite (hu.frame (by simp)) hu) _ ht
  have h3 : s3.TablesWf := by
    refine State.TablesWf.foldl _ (fun t e ht => ?_) _ h2.releaseParked
    split
    · exact ht.frame (State.capture_skeins t ..)
    · exact ht
  refine State.TablesWf.foldl _ (fun t e ht => ?_) _ h3
  split
  · exact State.TablesWf.ite (State.TablesWf.ite (State.TablesWf.resend (ht.frame (by simp))) ht) ht
  · exact ht

theorem State.TablesWf.farPoison {s : State} (h : s.TablesWf) {e : FarItem} : (s.farPoison e).TablesWf := by
  have helim : ∀ {α : Type} (o : Option α) (f : α → State), (∀ a, (f a).TablesWf) → (o.elim s f).TablesWf := by
    intro α o f hf
    cases o with
    | none => exact h
    | some a => exact hf a
  unfold State.farPoison
  split
  · exact h.endWatch
  · refine helim _ _ fun _ => State.TablesWf.failFetch ?_
    exact h
  · exact helim _ _ fun _ => h.fatalNack.ite h
  · exact h
  · exact h

theorem State.TablesWf.settleUncarve {s : State} (h : s.TablesWf) : s.settleUncarve.TablesWf := by
  refine State.TablesWf.foldl _ (fun t e ht => ?_) _ h
  extract_lets u v
  have hu : u.TablesWf := State.TablesWf.ite ht (ht.frame (State.closeInterval_skeins ..))
  have hv : v.TablesWf := State.TablesWf.foldl _ (fun _ _ hv => hv.frame (by simp)) _ hu
  split
  · exact ht
  · split
    · exact State.TablesWf.foldl _ (fun _ _ hu => hu.destroyCtx) _ ht
    · exact State.TablesWf.ite (hv.frame (State.dissolve_skeins ..)) hv

theorem State.restart_tablesWf (s : State) : s.restart.TablesWf := State.tablesWf_of_skeins_nil rfl

/-! ### Fences -/

theorem State.TablesWf.fenceWord {s : State} (h : s.TablesWf) {i : Instr} {g : BitVec 3} {rel : Option Nat} {acq : Bool} :
    KeepsTables (s.fenceWord i g rel acq) := by
  refine h.word i fun sk t ht => ?_
  extract_lets act ms done tail
  have htail : ∀ v : State, v.TablesWf → (tail v).2.TablesWf := by
    intro v hv
    have := hv.acquiring act ms (body := done) fun u hu => hu.passBy
    dsimp only [tail]
    split
    · exact this
    · exact hv.passBy
  split
  · exact ht.passBy
  · split
    · exact ht.releasing _ _ _ _ htail
    · exact htail t ht

/-! ### The matrix engine -/

theorem State.TablesWf.putTile {s : State} (h : s.TablesWf) {k t : Nat} {x : Tile} : (s.putTile k t x).TablesWf :=
  h.modSkein_frame k _ (fun _ => rfl) (fun _ => rfl)

theorem State.TablesWf.checkTile {s : State} (h : s.TablesWf) {k tn : Nat} : (s.checkTile k tn).2.TablesWf := by
  unfold State.checkTile
  split
  · exact h
  · extract_lets t tol rows cols flagged seen s1 fail
    have hf : fail.2.TablesWf := State.TablesWf.gangFault (h.frame (State.raiseTile_skeins ..))
    clear_value fail s1 seen rows cols
    split
    · exact h
    · split
      · exact h
      · split
        · exact hf
        · exact State.TablesWf.frame (h.putTile).count (State.raiseTile_skeins ..)
      · exact hf

theorem State.TablesWf.inject {s : State} (h : s.TablesWf) {c k tn : Nat} : (s.inject c k tn).TablesWf := by
  unfold State.inject
  dsimp only
  split
  · split
    · exact h
    · exact State.TablesWf.putTile (h.frame rfl)
  · exact h

theorem State.TablesWf.readRange {s : State} (h : s.TablesWf) {k : Nat} {x : Span} {f : Nat} : (s.readRange k x f).1.TablesWf := by
  unfold State.readRange
  extract_lets p part a b c
  have ha : a.1.TablesWf := h.readSpan
  have hb : b.1.TablesWf := by
    dsimp only [b]
    split
    · exact ha
    · exact ha.takeSpan
  dsimp only [c]
  split
  · exact hb
  · exact hb.readSpan

theorem State.TablesWf.readOperand {s : State} (h : s.TablesWf) {k : Nat} {x : Span} {f : Nat} {shared : Option MergedRead} :
    (s.readOperand k x f shared).1.TablesWf := by
  unfold State.readOperand
  split
  · exact h.count.count
  · exact h.readRange

theorem State.TablesWf.runEngine {s : State} (h : s.TablesWf) {c : Nat} {o : EngineOp} : (s.runEngine c o).TablesWf := by
  unfold State.runEngine
  split
  · exact h
  · extract_lets k ctx
    split
    · exact h.putTile
    · exact h.checkTile
    · next x _ _ _ =>
      have h1 := h.readOperand (k := k) (x := x) (f := 0) (shared := none)
      generalize s.readOperand k x 0 none = r at h1 ⊢
      obtain ⟨t, _ | bs⟩ := r
      · exact h1
      · exact h1.putTile
    · have h1 := h.checkTile (k := k) (tn := o.tile)
      generalize s.checkTile k o.tile = r at h1 ⊢
      split
      · split
        · exact h1
        · exact State.TablesWf.writeSpan h1
      · exact h1
    · next xa xb _ _ _ _ _ _ =>
      have h1 := h.readOperand (k := k) (x := xa) (f := o.af) (shared := o.readA)
      generalize s.readOperand k xa o.af o.readA = r at h1 ⊢
      obtain ⟨t, _ | ab⟩ := r
      · exact h1
      · have h2 := State.TablesWf.readOperand (s := t) h1 (k := k) (x := xb) (f := o.bf) (shared := o.readB)
        dsimp only
        generalize t.readOperand k xb o.bf o.readB = q at h2 ⊢
        obtain ⟨u, _ | bb⟩ := q
        · exact h2
        · exact State.TablesWf.inject (State.TablesWf.putTile h2)
    · exact h

theorem State.TablesWf.engineWord {s : State} (h : s.TablesWf) {i : Instr} {kind : Nat} {t : BitVec 4} {regs : List VReg} {af bf : Nat} :
    KeepsTables (s.engineWord i kind t regs af bf) := by
  refine h.word i fun sk u hu => ?_
  extract_lets k is c lens spans at' a b win o u1 u2
  have h2 : u2.TablesWf := State.TablesWf.ite (hu.frame rfl) (hu.frame rfl)
  split
  · exact hu.unalone.trapAll
  · split
    · exact hu.unalone.trapAll
    · split
      · exact hu.unalone.trapAll
      · split
        · exact hu.alone
        · split
          · exact hu.unalone
          · exact h2.unalone.passBy

theorem State.TablesWf.share {s : State} (h : s.TablesWf) {c : Nat} {isB : Bool} {r : MergedRead} : (s.share c isB r).TablesWf := by
  unfold State.share
  split
  · exact State.TablesWf.ite (h.frame rfl) (State.TablesWf.count (h.frame rfl))
  · exact h

theorem State.TablesWf.sharedRead {s : State} (h : s.TablesWf) {k : Nat} {x : Span} {f first : Nat} :
    (s.sharedRead k x f first).1.TablesWf :=
  State.TablesWf.modSkein_frame h.readRange k _ (fun _ => rfl) (fun _ => rfl)

theorem State.TablesWf.joinReads {s : State} (h : s.TablesWf) {core : Nat} {o : EngineOp} {p : Bool × Span} :
    (s.joinReads core o p).TablesWf := by
  unfold State.joinReads
  split
  · exact h
  · extract_lets b r
    have hb : b.2.TablesWf := h
    split
    · exact hb.frame (by simp)
    · exact (State.TablesWf.foldl _ (fun _ _ ht => ht.share) _ hb.sharedRead).share

/-! ### What comes from outside, and what settles -/

theorem State.TablesWf.tileError {s : State} (h : s.TablesWf) {skein tile elem : Nat} : (s.tileError skein tile elem).TablesWf := by
  unfold State.tileError
  split
  · exact h
  · exact State.TablesWf.ite h.putTile h

theorem State.TablesWf.registerError {s : State} (h : s.TablesWf) {skein strand reg : Nat} :
    (s.registerError skein strand reg).TablesWf := h.modStrand.ite h

theorem State.TablesWf.settle {s : State} (h : s.TablesWf) : s.settle.TablesWf := by
  unfold State.settle
  extract_lets s1 s2 s3 s4
  have h1 : s1.TablesWf := by
    refine State.TablesWf.settleDrains (State.TablesWf.frame (State.TablesWf.settleBanks (h.frame (by simp)))
      ((State.settleMeters_skeins ..).trans (State.settleKeys_skeins ..)))
  have h2 : s2.TablesWf := State.TablesWf.foldl _ (fun _ _ ht => ht.frame (by simp)) _ h1
  have h3 : s3.TablesWf := by
    refine State.TablesWf.frame (State.TablesWf.settleUncarve (h2.frame ?_)) (State.settlePartset_skeins ..)
    simp
  have h4 : s4.TablesWf := h3.frame (by simp [s4])
  have h5 : s4.settleQueues.retryPend.settleAcquires.TablesWf := State.TablesWf.settleAcquires (h4.frame (by simp))
  exact h5.frame (by simp)

theorem State.TablesWf.fromOutside {s : State} (h : s.TablesWf) (x : Outside) : (s.fromOutside x).TablesWf := by
  cases x with
  | tileError => exact h.tileError
  | registerError => exact h.registerError
  | _ => exact h.frame (by simp [State.fromOutside])

/-! ### Issue -/

theorem State.TablesWf.issueAt {s : State} (h : s.TablesWf) {k w : Nat} {sk : Skein} {c : Nat} {is : List Nat} {pc : Word}
    {reuse l1 : Bool} {moment : Option Nat} : (s.issueAt k w sk c is pc reuse l1 moment).1.TablesWf := by
  unfold State.issueAt
  split
  · exact h.takeTraps
  · split
    · exact h.frame (by simp)
    · next hp =>
      have hp := h.frame (State.packetAt_skeins hp)
      dsimp only
      split
      · exact hp.takeTraps
      · split
        · exact hp
        · exact hp.modWeft _ _ _

theorem State.TablesWf.prepareIssue {s : State} (h : s.TablesWf) {k w : Nat} {reuse l1 : Bool} {moment : Option Nat} :
    (s.prepareIssue k w reuse l1 moment).1.TablesWf := by
  unfold State.prepareIssue
  split
  · split
    · exact h
    · next c _ =>
      split
      · exact h
      · split
        · split
          · split
            · exact h.issueAt
            · exact h
          · exact h
        · have hr := h.regroup c k w
          dsimp only
          split
          · split
            · exact hr.trimActive c
            · split
              · exact hr.issueAt
              · exact hr
          · exact hr
  · exact h

theorem State.TablesWf.toPathwait {s : State} (h : s.TablesWf) {k : Nat} {is : List Nat} : (s.toPathwait k is).TablesWf :=
  h.modStrands _ _ _

end Sys2Proof.Machine
end

section
/-! The words that are not lane by lane keep the tables of strands and wefts. -/

namespace Sys2Proof.Machine

variable {s : State}

/-! ### Words that are not lane by lane -/

theorem execNop_keepsTables (h : s.TablesWf) : KeepsTables (execNop s) := .next (h.modStrands _ _ _)

theorem execRdx_keepsTables (h : s.TablesWf) (c : BitVec 1) (g : BitVec 3) (d : BitVec 6) (n : BitVec 2) (o : BitVec 6) :
    KeepsTables (execRdx c g d n o s) :=
  h.word _ fun _ _ ht => ht.waiting _ _ fun _ hu => hu.retire

theorem execWrx_keepsTables (h : s.TablesWf) (c : BitVec 1) (g : BitVec 3) (d : BitVec 6) (n : BitVec 2) (o : BitVec 6) :
    KeepsTables (execWrx c g d n o s) :=
  h.word _ fun _ _ ht => ht.waiting _ _ fun _ hu => hu.retire

theorem execSetw_keepsTables (h : s.TablesWf) (c : BitVec 1) (n x : BitVec 3) (l : BitVec 1) : KeepsTables (execSetw c n x l s) :=
  h.word _ fun _ _ ht => (ht.modStrands _ _ _).settleSetw

theorem execSlice_keepsTables (h : s.TablesWf) (c : BitVec 1) : KeepsTables (execSlice c s) :=
  h.word _ fun _ _ ht => ((ht.expireSlices.modStrands _ _ _).modWeft _ _ _).settleSlice

theorem execWsync_keepsTables (h : s.TablesWf) (c : BitVec 1) (g : BitVec 3) : KeepsTables (execWsync c g s) :=
  h.word _ fun _ _ ht => (ht.modStrands _ _ _).settleWsync

theorem execBr_keepsTables (h : s.TablesWf) (g : BitVec 3) (d : BitVec 22) : KeepsTables (execBr g d s) :=
  h.word _ fun _ _ ht => ht.eachStrand _ fun _ _ _ hu => hu.goTo

theorem execBrx_keepsTables (h : s.TablesWf) (g : BitVec 3) (a : VReg) : KeepsTables (execBrx g a s) :=
  h.word _ fun _ _ ht => ht.eachStrand _ fun _ _ _ hu => hu.goTo

theorem execCall_keepsTables (h : s.TablesWf) (g : BitVec 3) (d : BitVec 22) : KeepsTables (execCall g d s) :=
  h.word _ fun _ _ ht => ht.eachStrand _ fun _ _ _ hu => hu.callTo

theorem execCallx_keepsTables (h : s.TablesWf) (g : BitVec 3) (a : VReg) : KeepsTables (execCallx g a s) :=
  h.word _ fun _ _ ht => ht.eachStrand _ fun _ _ _ hu => hu.callTo

theorem execRet_keepsTables (h : s.TablesWf) (g : BitVec 3) : KeepsTables (execRet g s) := by
  refine h.word _ fun _ _ ht => ht.eachStrand _ fun _ _ _ hu => ?_
  split
  · exact hu.stackAccess
  · exact hu.popTop

theorem execSplit_keepsTables (h : s.TablesWf) (g : BitVec 3) (d : BitVec 22) : KeepsTables (execSplit g d s) := by
  refine h.word _ fun _ _ ht => State.TablesWf.passBy ?_
  exact State.TablesWf.modSkein_frame (ht.modWeft _ _ _) _ _ (fun _ => rfl) (fun _ => rfl)

theorem execJoin_keepsTables (h : s.TablesWf) (g : BitVec 3) : KeepsTables (execJoin g s) := by
  refine h.word _ fun _ _ ht => ?_
  dsimp only
  split
  · exact ht.passBy
  · exact (((ht.modWeft _ _ _).modStrands _ _ _).modStrands _ _ _).settleRecords

theorem execExit_keepsTables (h : s.TablesWf) (g : BitVec 3) : KeepsTables (execExit g s) := by
  refine h.word _ fun _ _ ht => ?_
  dsimp only
  split
  · exact ht.passBy
  · exact ht.releasing _ _ _ _ fun _ hu => hu.waiting _ _ fun _ hv =>
      State.TablesWf.ite (hv.modStrands _ _ _) (hv.modStrands _ _ _).exitStrands

theorem execTret_keepsTables (h : s.TablesWf) (g : BitVec 3) : KeepsTables (execTret g s) :=
  h.word _ fun _ _ ht => (ht.modStrands _ _ _).trapReturn

theorem execTretr_keepsTables (h : s.TablesWf) (g : BitVec 3) : KeepsTables (execTretr g s) :=
  h.word _ fun _ _ ht => (ht.modStrands _ _ _).trapReturn

theorem execYield_keepsTables (h : s.TablesWf) (g : BitVec 3) : KeepsTables (execYield g s) := by
  refine h.word _ fun _ _ ht => ?_
  dsimp only
  split
  · exact ht.passBy
  · exact State.TablesWf.ite (ht.passBy.modWeft _ _ _).leaveActive (ht.passBy.modWeft _ _ _)

theorem execBreakp_keepsTables (h : s.TablesWf) (g : BitVec 3) : KeepsTables (execBreakp g s) :=
  h.word _ fun _ _ ht => ht.eachStrand _ fun _ _ _ hu => hu

theorem execTrap_keepsTables (h : s.TablesWf) (g : BitVec 3) (x : BitVec 6) : KeepsTables (execTrap g x s) :=
  h.word _ fun _ _ ht => ht.eachStrand _ fun _ _ _ hu => hu

theorem execWaitt_keepsTables (h : s.TablesWf) (g : BitVec 3) (a : VReg) : KeepsTables (execWaitt g a s) :=
  h.word _ fun _ _ ht => ht.eachStrand _ fun _ _ _ hu => hu.modStrand

theorem execWatch_keepsTables (h : s.TablesWf) (c : BitVec 1) (g : BitVec 3) (d a b : BitVec 6) (f : BitVec 4) :
    KeepsTables (execWatch c g d a b f s) := by
  refine h.word _ fun _ _ ht => State.TablesWf.eachStrand (ht.frame (State.nextSeq_skeins ..)) _ fun _ _ _ hu => ?_
  split
  · exact hu
  · exact hu.startWatch

theorem execTrigger_keepsTables (h : s.TablesWf) (c : BitVec 1) (g : BitVec 3) : KeepsTables (execTrigger c g s) := by
  refine h.word _ fun _ _ ht => ?_
  dsimp only
  split
  · exact ht.passBy
  · refine State.TablesWf.frame (ht.releasing _ _ _ _ fun u hu => ?_) (issuedDirty_skeins ..)
    exact State.TablesWf.passBy (State.TablesWf.ite (hu.frame (by simp)) hu)

theorem execLdg_keepsTables (h : s.TablesWf) (c : BitVec 1) (g : BitVec 3) (d a : BitVec 6) (o : BitVec 4) (z : BitVec 3)
    (v : BitVec 1) (p : BitVec 2) : KeepsTables (execLdg c g d a o z v p s) := by
  refine h.word _ fun sk u hu => ?_
  extract_lets act core key u1 addrs u2 u3 good seq sent
  have h1 : u1.TablesWf := hu.frame (State.nextSeq_skeins ..)
  have h2 : u2.TablesWf := by
    clear_value addrs
    dsimp only [u2]
    split
    · exact h1.frame (State.startEntry_skeins ..)
    · exact h1
  have h3 : u3.TablesWf := h2.eachStrand _ fun _ i x ht => ht.ldgLane i x
  split
  · exact hu.loadHit
  · exact State.TablesWf.ite h3 (State.TablesWf.loadEnd (State.TablesWf.ite (h3.frame (State.markWrote_skeins ..)) h3))

theorem execStg_keepsTables (h : s.TablesWf) (c : BitVec 1) (g : BitVec 3) (d a : BitVec 6) (o : BitVec 4) (z : BitVec 3)
    (v : BitVec 1) (p : BitVec 2) : KeepsTables (execStg c g d a o z v p s) := by
  refine h.word _ fun sk u hu => ?_
  dsimp only
  split
  · exact hu.passBy
  · exact State.TablesWf.eachStrand (hu.frame ((State.nextSeq_skeins ..).trans (State.setDirty_skeins ..))) _
      fun _ i x ht => ht.stgLane i x

theorem execLds_keepsTables (h : s.TablesWf) (c : BitVec 1) (g : BitVec 3) (d a : BitVec 6) (o : BitVec 4) (z : BitVec 3)
    (v : BitVec 1) (p : BitVec 2) : KeepsTables (execLds c g d a o z v p s) := by
  refine h.word _ fun sk u hu => ?_
  extract_lets act core off spans key u1 own u2 u3
  have h1 : u1.TablesWf := hu.frame (State.nextSeq_skeins ..)
  have h2 : u2.TablesWf := State.TablesWf.ite (h1.frame (State.startEntry_skeins ..)) h1
  have h3 : u3.TablesWf := h2.noteLds.eachStrand _ fun _ i x ht => ht.ldsLane i x
  split
  · exact hu.loadHit
  · split
    · exact hu
    · exact h3.ite h3.loadEnd

theorem execSts_keepsTables (h : s.TablesWf) (c : BitVec 1) (g : BitVec 3) (d a : BitVec 6) (o : BitVec 4) (z : BitVec 3)
    (v : BitVec 1) (p : BitVec 2) : KeepsTables (execSts c g d a o z v p s) := by
  refine h.word _ fun sk u hu => ?_
  dsimp only
  split
  · exact hu
  · exact hu.eachStrand _ fun _ i x ht => ht.stsLane i x

theorem execLdga_keepsTables (h : s.TablesWf) (c : BitVec 1) (g : BitVec 3) (d a : BitVec 6) (o : BitVec 4) (z : BitVec 3)
    (p : BitVec 2) : KeepsTables (execLdga c g d a o z p s) :=
  h.word _ fun _ _ hu => State.TablesWf.eachStrand (hu.frame (State.nextSeq_skeins ..)) _ fun _ i x ht => ht.ldgaLane i x

/-- Where the checks of an SHOPEN end; `d` where they hold. -/
def OpenCheck.state (d : State) : OpenCheck → State
  | .fail _ s => s
  | .stop f => f.state d
  | .hold => d
  | .ok _ _ s => s

/-- The checks of an SHOPEN leave the skeins as they are: only its read can change the state. -/
theorem State.checkOpen_state_skeins (s : State) (sk : Skein) (v : List Word) :
    ((s.checkOpen sk v).state s).skeins = s.skeins := by
  have hread : ∀ {va n r}, s.strandRead sk va n = r → (r.state s).skeins = s.skeins := by
    rintro va n _ rfl
    exact s.strandRead_state_skeins sk va n rfl
  fun_cases State.checkOpen s sk v
  case case1 | case2 | case3 | case4 | case6 | case10 => rfl
  all_goals
    have h1 := hread ‹s.strandRead sk _ 9 = _›
    exact h1

theorem execShopen_keepsTables (h : s.TablesWf) (c : BitVec 1) (g : BitVec 3) (d a : BitVec 6) :
    KeepsTables (execShopen c g d a s) := by
  refine h.word _ fun sk u hu => ?_
  have hc : ∀ {o}, u.checkOpen sk (u.descWords (u.acting g) a) = o → (o.state u).skeins = u.skeins := by
    rintro _ rfl
    exact u.checkOpen_state_skeins sk _
  dsimp only
  split
  · exact hu.passBy
  · split
    · exact hu.trapAll
    · split
      · next he =>
        exact ((hu.frame (hc he)).passBy.modStrands _ _ _).noteWrites
      · exact hu
      · next f he =>
        have hv := State.TablesWf.eachStrand (hu.frame (hc he)) (u.acting g) (f := fun t i _ => t.launchStop sk i f)
          fun _ _ _ ht => ht.launchStop
        exact hv.count.ite hv
      · next he =>
        exact State.TablesWf.startShd (hu.frame ((State.setShadow_skeins ..).trans (hc he)))

theorem execShabort_keepsTables (h : s.TablesWf) (c : BitVec 1) (g : BitVec 3) (a : BitVec 6) :
    KeepsTables (execShabort c g a s) := by
  refine h.word _ fun sk u hu => ?_
  dsimp only
  split
  · exact hu.passBy
  · split
    · exact hu.shadowTrap
    · exact hu.startShd

theorem execShpub_keepsTables (h : s.TablesWf) (c : BitVec 1) (g : BitVec 3) (a : BitVec 6) :
    KeepsTables (execShpub c g a s) := by
  refine h.word _ fun sk u hu => ?_
  dsimp only
  split
  · exact hu.passBy
  · refine State.TablesWf.frame ?_ (issuedDirty_skeins ..)
    split
    · exact hu.shadowTrap
    · split
      · exact hu.shadowTrap
      · refine hu.waiting _ _ fun v hv => ?_
        split
        · exact hv.passBy
        · exact hv.startShd

theorem execShstat_keepsTables (h : s.TablesWf) (c : BitVec 1) (g : BitVec 3) (d a : BitVec 6) :
    KeepsTables (execShstat c g d a s) := by
  refine h.word _ fun sk u hu => ?_
  extract_lets act k hs good bad u1
  have h1 : u1.TablesWf := by
    clear_value good
    dsimp only [u1]
    split
    · exact hu.modStrands _ _ _
    · exact hu.startShd
  split
  · exact hu.passBy
  · exact h1.ite h1.trapHere

theorem execMfs_keepsTables (h : s.TablesWf) (c : BitVec 1) (g : BitVec 3) (d : BitVec 6) (n : BitVec 10) :
    KeepsTables (execMfs c g d n s) := by
  refine h.word _ fun sk t ht => ?_
  split
  · exact ht
  · refine State.TablesWf.retire ?_
    exact ht

theorem execMts_keepsTables (h : s.TablesWf) (c : BitVec 1) (g : BitVec 3) (a : BitVec 6) (n : BitVec 10) :
    KeepsTables (execMts c g a n s) := by
  refine h.word _ fun sk t ht => ?_
  dsimp only
  split
  · exact ht
  · split
    · exact ht.putLanes
    · split
      · exact ht.passBy
      · split
        · exact ht.writeSr.passBy
        · exact ht.passBy

theorem execSpscrub_keepsTables (h : s.TablesWf) (c : BitVec 1) (g : BitVec 3) : KeepsTables (execSpscrub c g s) :=
  h.word _ fun _ _ ht => State.TablesWf.ite ht.passBy (ht.passBy.modWeft _ _ _)

theorem execSpretire_keepsTables (h : s.TablesWf) (c : BitVec 1) (g : BitVec 3) (a : BitVec 6) :
    KeepsTables (execSpretire c g a s) := by
  refine h.word _ fun sk t ht => ?_
  extract_lets t1
  have h1 : t1.TablesWf := ht.passBy
  split
  · exact h1
  · extract_lets core n grp b already
    split
    · exact h1
    · exact State.TablesWf.ite (h1.retireBank.modWeft _ _ _) h1.retireBank

end Sys2Proof.Machine
end

section
/-! The events of the machine keep the tables of strands and wefts. -/

namespace Sys2Proof.Machine

variable {s : State}

/-! ### Events that leave the skeins alone -/

theorem execWcAgeExpiry_keepsTables (h : s.TablesWf) (core line : Nat) : KeepsTables (execWcAgeExpiry core line s) :=
  .next (h.frame (by simp))

theorem execParityApply_keepsTables (h : s.TablesWf) (core group : Nat) : KeepsTables (execParityApply core group s) :=
  .next (h.frame (by simp))

theorem execBindRecordWrite_keepsTables (h : s.TablesWf) (core slot : Nat) (words : List Word) : KeepsTables (execBindRecordWrite core slot words s) := by
  unfold execBindRecordWrite
  dsimp only
  repeat' split
  all_goals exact .next (h.frame (by simp))

theorem execImageSpillStart_keepsTables (h : s.TablesWf) (ctx : Nat) : KeepsTables (execImageSpillStart ctx s) := by
  unfold execImageSpillStart
  repeat' split
  all_goals exact .next (h.frame (by simp))

theorem execSpillComplete_keepsTables (h : s.TablesWf) (ctx : Nat) : KeepsTables (execSpillComplete ctx s) := by
  unfold execSpillComplete
  repeat' split
  all_goals exact .next (h.frame (by simp))

theorem execHomeRequest_keepsTables (h : s.TablesWf) (what : Payload) : KeepsTables (execHomeRequest what s) := by
  unfold execHomeRequest
  repeat' split
  all_goals exact .next (h.frame (by simp))

theorem execFaultRecordDelivery_keepsTables (h : s.TablesWf) (id : Nat) : KeepsTables (execFaultRecordDelivery id s) :=
  .next (h.frame (by simp))

theorem execRecodingComplete_keepsTables (h : s.TablesWf) (domain granule : Nat) : KeepsTables (execRecodingComplete domain granule s) := by
  unfold execRecodingComplete
  dsimp only
  repeat' split
  all_goals exact .next (h.frame (by simp))

theorem execFilterAck_keepsTables (h : s.TablesWf) (cluster domain granule : Nat) : KeepsTables (execFilterAck cluster domain granule s) := by
  unfold execFilterAck
  dsimp only
  repeat' split
  all_goals exact .next (h.frame (by simp))

theorem execShadowOpenRequest_keepsTables (h : s.TablesWf) (op home : Nat) : KeepsTables (execShadowOpenRequest op home s) := by
  unfold execShadowOpenRequest
  repeat' split
  all_goals exact .next (h.frame (by simp))

theorem execShpubArrival_keepsTables (h : s.TablesWf) (op : Nat) : KeepsTables (execShpubArrival op s) := by
  unfold execShpubArrival
  dsimp only
  repeat' split
  all_goals exact .next (h.frame (by simp))

theorem execPublishPrepare_keepsTables (h : s.TablesWf) (ctx slot home : Nat) : KeepsTables (execPublishPrepare ctx slot home s) := by
  unfold execPublishPrepare
  dsimp only
  repeat' split
  all_goals exact .next (h.frame (by simp))

theorem execPublishCommit_keepsTables (h : s.TablesWf) (ctx slot : Nat) : KeepsTables (execPublishCommit ctx slot s) := by
  unfold execPublishCommit
  repeat' split
  all_goals exact .next (h.frame (by simp))

theorem execPublishAbort_keepsTables (h : s.TablesWf) (ctx slot : Nat) : KeepsTables (execPublishAbort ctx slot s) := by
  unfold execPublishAbort
  repeat' split
  all_goals exact .next (h.frame (by simp))

theorem execReplicaTimeout_keepsTables (h : s.TablesWf) (ctx slot : Nat) : KeepsTables (execReplicaTimeout ctx slot s) := by
  unfold execReplicaTimeout
  dsimp only
  repeat' split
  all_goals exact .next (h.frame (by simp))

theorem execPoolExtentWithdrawal_keepsTables (h : s.TablesWf) (id base frame count : Nat) : KeepsTables (execPoolExtentWithdrawal id base frame count s) := by
  unfold execPoolExtentWithdrawal
  repeat' split
  all_goals exact .next (h.frame (by simp))

theorem execBackInvalidate_keepsTables (h : s.TablesWf) (domain line : Nat) : KeepsTables (execBackInvalidate domain line s) :=
  .next (h.frame (by simp))

theorem execReadyToken_keepsTables (h : s.TablesWf) (ctx sgen module : Nat) : KeepsTables (execReadyToken ctx sgen module s) := by
  unfold execReadyToken
  repeat' split
  all_goals exact .next (h.frame (by simp))

theorem execStartToken_keepsTables (h : s.TablesWf) (ctx sgen : Nat) : KeepsTables (execStartToken ctx sgen s) := by
  unfold execStartToken
  repeat' split
  all_goals exact .next (h.frame (by simp))

theorem execDoorbell_keepsTables (h : s.TablesWf) (queue : Nat) (value : HostWrite) : KeepsTables (execDoorbell queue value s) := by
  unfold execDoorbell
  dsimp only
  repeat' split
  all_goals exact .next (h.frame (by simp))

theorem execQreset_keepsTables (h : s.TablesWf) (queue : Nat) (value : HostWrite) : KeepsTables (execQreset queue value s) := by
  unfold execQreset
  repeat' split
  all_goals exact .next (h.frame (by simp))

theorem execContextBuilt_keepsTables (h : s.TablesWf) (ctx : Nat) : KeepsTables (execContextBuilt ctx s) := by
  unfold execContextBuilt
  repeat' split
  all_goals exact .next (h.frame (by simp))

theorem execMigrate_keepsTables (h : s.TablesWf) (domain granule frame : Nat) : KeepsTables (execMigrate domain granule frame s) :=
  .next (h.frame (by simp))

theorem execTiermove_keepsTables (h : s.TablesWf) (domain granule tier frame : Nat) : KeepsTables (execTiermove domain granule tier frame s) :=
  .next (h.frame (by simp))

theorem execCompress_keepsTables (h : s.TablesWf) (domain granule : Nat) : KeepsTables (execCompress domain granule s) :=
  .next (h.frame (by simp))

theorem execExpand_keepsTables (h : s.TablesWf) (domain granule : Nat) : KeepsTables (execExpand domain granule s) :=
  .next (h.frame (by simp))

theorem execExtentGrant_keepsTables (h : s.TablesWf) (extent owner : Nat) (shared : Bool) : KeepsTables (execExtentGrant extent owner shared s) := by
  unfold execExtentGrant
  repeat' split
  all_goals exact .next (h.frame (by simp))

theorem execExtentWithdraw_keepsTables (h : s.TablesWf) (extent : Nat) : KeepsTables (execExtentWithdraw extent s) := by
  unfold execExtentWithdraw
  repeat' split
  all_goals exact .next (h.frame (by simp))

theorem execGenbump_keepsTables (h : s.TablesWf) (domain : Nat) : KeepsTables (execGenbump domain s) := by
  unfold execGenbump
  dsimp only
  repeat' split
  all_goals exact .next (h.frame (by simp))

theorem execMeterIntervalEnd_keepsTables (h : s.TablesWf) (part : Nat) : KeepsTables (execMeterIntervalEnd part s) := by
  unfold execMeterIntervalEnd
  repeat' split
  all_goals exact .next (h.frame (by simp))

theorem execTokenArrival_keepsTables (h : s.TablesWf) (channel station : Nat) : KeepsTables (execTokenArrival channel station s) := by
  unfold execTokenArrival
  dsimp only
  repeat' split
  all_goals exact .next (h.frame (by simp))

theorem execFlitReceive_keepsTables (h : s.TablesWf) (channel station : Nat) (flips fixed : List (Nat × Nat)) : KeepsTables (execFlitReceive channel station flips fixed s) := by
  unfold execFlitReceive
  repeat' split
  all_goals exact .next (h.frame (by simp))

theorem execFlitReplayTimeout_keepsTables (h : s.TablesWf) (channel station : Nat) : KeepsTables (execFlitReplayTimeout channel station s) := by
  unfold execFlitReplayTimeout
  repeat' split
  all_goals exact .next (h.frame (by simp))

theorem execRotationStep_keepsTables (h : s.TablesWf) (channel station : Nat) : KeepsTables (execRotationStep channel station s) := by
  unfold execRotationStep
  dsimp only
  repeat' split
  all_goals exact .next (h.frame (by simp))

theorem execRetrainDone_keepsTables (h : s.TablesWf) (channel station wave fixed : Nat) : KeepsTables (execRetrainDone channel station wave fixed s) := by
  unfold execRetrainDone
  repeat' split
  all_goals exact .next (h.frame (by simp))

theorem execShadowCalibrationDone_keepsTables (h : s.TablesWf) (channel station : Nat) : KeepsTables (execShadowCalibrationDone channel station s) := by
  unfold execShadowCalibrationDone
  repeat' split
  all_goals exact .next (h.frame (by simp))

theorem execPortTraining_keepsTables (h : s.TablesWf) (port : Nat) (offer ok : Bool) : KeepsTables (execPortTraining port offer ok s) := by
  unfold execPortTraining
  dsimp only
  repeat' split
  all_goals exact .next (h.frame (by simp))

theorem execPortDown_keepsTables (h : s.TablesWf) (port : Nat) : KeepsTables (execPortDown port s) := by
  unfold execPortDown
  repeat' split
  all_goals exact .next (h.frame (by simp))

theorem execPortUp_keepsTables (h : s.TablesWf) (port : Nat) : KeepsTables (execPortUp port s) := by
  unfold execPortUp
  dsimp only
  repeat' split
  all_goals exact .next (h.frame (by simp))

theorem execHostMmioViolation_keepsTables (h : s.TablesWf) (host : Nat) (access : HostAccess) : KeepsTables (execHostMmioViolation host access s) := by
  unfold execHostMmioViolation
  repeat' split
  all_goals exact .next (h.frame (by simp))

theorem execCapcfgWrite_keepsTables (h : s.TablesWf) (quad unit : Nat) (value : HostWrite) : KeepsTables (execCapcfgWrite quad unit value s) := by
  unfold execCapcfgWrite
  repeat' split
  all_goals exact .next (h.frame (by simp))

theorem execRegisterWrite_keepsTables (h : s.TablesWf) (reg : MmioReg) (value : Word) : KeepsTables (execRegisterWrite reg value s) := by
  unfold execRegisterWrite
  repeat' split
  all_goals exact .next (h.frame (by simp))

theorem execPowerOverLimit_keepsTables (h : s.TablesWf) (draw : Nat) : KeepsTables (execPowerOverLimit draw s) :=
  .next (h.frame (by simp))

theorem execReadring_keepsTables (h : s.TablesWf) : KeepsTables (execReadring s) := by
  unfold execReadring
  repeat' split
  all_goals exact .next (h.frame (by simp))

theorem execResetRelease_keepsTables (h : s.TablesWf) (boot : BootArgs) : KeepsTables (execResetRelease boot s) := by
  unfold execResetRelease
  repeat' split
  all_goals exact .next (h.frame (by simp))

theorem execCaptureSample_keepsTables (h : s.TablesWf) (quad unit : Nat) : KeepsTables (execCaptureSample quad unit s) := by
  unfold execCaptureSample
  dsimp only
  repeat' split
  all_goals exact .next (h.frame (by simp))

theorem execFabricLaneWeak_keepsTables (h : s.TablesWf) (port : Nat) (report : LaneReport) : KeepsTables (execFabricLaneWeak port report s) := by
  unfold execFabricLaneWeak
  dsimp only
  repeat' split
  all_goals exact .next (h.frame (by simp))

theorem execFabricLaneLost_keepsTables (h : s.TablesWf) (port lane : Nat) : KeepsTables (execFabricLaneLost port lane s) :=
  .next (h.frame (by simp))

theorem execKeyTableUpdateApplied_keepsTables (h : s.TablesWf) (ctx core : Nat) : KeepsTables (execKeyTableUpdateApplied ctx core s) := by
  unfold execKeyTableUpdateApplied
  repeat' split
  all_goals exact .next (h.frame (by simp))

/-! ### Events with an operator, a fold or a failing step -/

theorem State.TablesWf.operator (h : s.TablesWf) {a : Auth} {request : List Byte} {busy : Bool} {body : State → State}
    (hb : ∀ t, t.TablesWf → (body t).TablesWf) : (s.operator a request busy body).TablesWf := by
  unfold State.operator
  split
  · exact h
  · split
    · exact h.frame (by simp)
    · split
      · exact h
      · exact hb _ (h.frame rfl)

theorem State.TablesWf.fromSource (h : s.TablesWf) {src : Source} {request : List Byte} {busy : Bool} {body : Nat → State → State}
    (hb : ∀ q t, t.TablesWf → (body q t).TablesWf) : (s.fromSource src request busy body).TablesWf := by
  unfold State.fromSource
  split
  · exact h.operator (hb _)
  · exact h.ite (hb _ s h)

theorem State.TablesWf.modHomes (h : s.TablesWf) {f : Homes → Homes} : (s.modHomes f).TablesWf := h

theorem execMoveComplete_keepsTables (h : s.TablesWf) (domain granule : Nat) : KeepsTables (execMoveComplete domain granule s) := by
  unfold execMoveComplete
  extract_lets gk
  split
  · next f t _ =>
    split
    · exact .next (h.frame (by simp))
    · extract_lets s1
      have h1 : s1.TablesWf :=
        (h.frame (State.granOver_skeins s gk (.move f (some t)) true)).modHomes.frame (State.setGran_skeins ..)
      exact .next (h1.frame (State.dropLines_skeins ..))
  · exact .next h

theorem execFilterInvalidation_keepsTables (h : s.TablesWf) (cluster domain granule : Nat) :
    KeepsTables (execFilterInvalidation cluster domain granule s) := by
  unfold execFilterInvalidation
  dsimp only
  split
  · split
    · exact .next h
    · refine .next (State.TablesWf.frame (State.TablesWf.foldl _ (fun _ _ ht => ht.modCore) _ ?_) (State.setGran_skeins ..))
      exact h
  · exact .next h

theorem execShadowWrite_keepsTables (h : s.TablesWf) (req : Nat) : KeepsTables (execShadowWrite req s) := by
  unfold execShadowWrite
  dsimp only
  split
  · exact .next h
  · split
    · exact .next h
    · split
      · exact .next (h.frame (by simp))
      · split
        · exact .next (h.frame (by simp))
        · exact .next (h.frame (by simp))
        · split
          · next hr =>
            have h1 := h.frame (State.rstApply_skeins hr)
            refine .next (State.TablesWf.frame (State.TablesWf.frame (State.TablesWf.ite ?_ ?_) rfl) (State.replyWith_skeins ..))
            · exact h1.frame (State.poisonShadow_skeins ..)
            · exact h1
          · exact .next (h.frame (by simp))
        · exact .next h

theorem execPoolInflightTimeout_keepsTables (h : s.TablesWf) (id : Nat) : KeepsTables (execPoolInflightTimeout id s) := by
  unfold execPoolInflightTimeout
  split
  · exact .next h
  · split
    · exact .next h
    · extract_lets late s1 lost s2
      have h1 : s1.TablesWf := by
        refine State.TablesWf.foldl _ (fun t p ht => ?_) _ h
        split
        · exact ht
        · exact ht
        · exact ht
        · exact ht
      have h2 : s2.TablesWf := h1
      exact .next (h2.frame (State.raise_skeins ..))

theorem execLoomLossOfLight_keepsTables (h : s.TablesWf) (source delay : Nat) : KeepsTables (execLoomLossOfLight source delay s) := by
  unfold execLoomLossOfLight
  split
  · exact .next h
  · extract_lets die data listed dev s1 s2 resent s3 down s4
    have h2 : s2.TablesWf := State.TablesWf.foldl _ (fun _ _ ht => by exact ht) _ (h.frame (t := s1) rfl)
    have h3 : s3.TablesWf := h2.frame (State.raiseLight_skeins ..)
    have h4 : s4.TablesWf := State.TablesWf.ite (State.TablesWf.foldl _ (fun _ _ ht => ht.frame (by simp)) _ h3) h3
    exact .next (State.TablesWf.frame (State.TablesWf.foldl _ (fun _ _ ht => ht.frame (by simp)) _ h4) (State.checkHealth_skeins ..))

theorem execCarve_keepsTables (h : s.TablesWf) (auth : Auth) (args : CarveArgs) : KeepsTables (execCarve auth args s) := by
  refine .next (h.operator fun t ht => ?_)
  dsimp only
  split
  · split
    · exact ht.frame (by simp)
    · exact ht.frame (by simp)
  · exact ht.frame (by simp)

theorem execPartset_keepsTables (h : s.TablesWf) (auth : Auth) (part : Nat) (settings : PartSettings)
    (grant withdraw : List (Nat × Nat)) : KeepsTables (execPartset auth part settings grant withdraw s) := by
  refine .next (h.operator fun t ht => ?_)
  dsimp only
  split
  · exact ht.frame (by simp)
  · split
    · exact ht.frame (by simp)
    · split
      · exact ht.frame (by simp)
      · exact ht.frame ((State.await_skeins ..).trans (State.askPreempt_skeins ..))

theorem execPreempt_keepsTables (h : s.TablesWf) (src : Source) (part : Nat) (ctx : Option Nat) :
    KeepsTables (execPreempt src part ctx s) := by
  refine .next (h.fromSource fun qn t ht => ?_)
  split
  · exact ht.frame (by simp)
  · split
    · split
      · exact ht.frame (by simp)
      · split
        · exact ht.frame (by simp)
        · split
          · exact ht.frame (by simp)
          · exact ht.frame (by simp)
    · dsimp only
      split
      · exact ht.frame (by simp)
      · exact ht.frame (by simp)

theorem execRestore_keepsTables (h : s.TablesWf) (src : Source) (ctx : Nat) : KeepsTables (execRestore src ctx s) := by
  refine .next (h.fromSource fun qn t ht => ?_)
  split
  · exact ht.frame (by simp)
  · split
    · exact ht.frame (by simp)
    · exact ht.frame (by simp)

theorem execPwrcap_keepsTables (h : s.TablesWf) (auth : Auth) (write : Option Word) : KeepsTables (execPwrcap auth write s) := by
  refine .next (h.operator fun t ht => State.TablesWf.frame ?_ (State.answer_skeins ..))
  split
  · exact ht
  · exact ht

theorem execSetopkey_keepsTables (h : s.TablesWf) (auth : Auth) (key : List Byte) : KeepsTables (execSetopkey auth key s) := by
  unfold execSetopkey
  extract_lets put
  have hput : ∀ t : State, t.TablesWf → (put t).TablesWf := fun t ht =>
    State.TablesWf.ite (ht.frame (State.answer_skeins ..)) (ht.frame (State.answer_skeins ..))
  split
  · exact .next (h.operator hput)
  · split
    · exact .next h
    · split
      · exact .next (hput _ h)
      · exact .next (h.frame (State.answer_skeins ..))

theorem execPartitionReady_keepsTables (h : s.TablesWf) (part : Nat) : KeepsTables (execPartitionReady part s) := by
  unfold execPartitionReady
  split
  · exact .next h
  · extract_lets s1 s2 s3
    have h2 : s2.TablesWf := State.TablesWf.foldl _ (fun _ _ ht => ht.frame (State.modQueue_skeins ..)) _ (h.frame (t := s1) rfl)
    have h3 : s3.TablesWf := State.TablesWf.foldl _ (fun _ _ ht => by exact ht) _ h2
    split
    · exact .next h
    · exact .next (h3.frame (State.endPendOf_skeins ..))

theorem execWalkComplete_keepsTables (h : s.TablesWf) (what : Payload) : KeepsTables (execWalkComplete what s) := by
  unfold execWalkComplete
  split
  · exact .next h
  · next s1 hs1 =>
    obtain ⟨e, _, he⟩ := Option.bind_eq_some_iff.mp hs1
    obtain ⟨u, hu, rfl⟩ := Option.map_eq_some_iff.mp he
    have h1 : (u.walkBytes e.1).TablesWf := h.frame ((State.walkBytes_skeins ..).trans (State.walkTokens_skeins hu))
    extract_lets t
    have ht : t.TablesWf := h1
    refine .next ?_
    repeat' split
    all_goals exact ht.frame (by simp)

/-! ### Events of strands, wefts and skeins -/

theorem execActiveSetEntry_keepsTables (h : s.TablesWf) (k w : Nat) : KeepsTables (execActiveSetEntry k w s) := by
  unfold execActiveSetEntry
  split
  · split
    · exact .next h
    · next c _ =>
      have ht := h.refresh c
      dsimp only
      split
      · exact .next ((ht.modWeft _ _ _).regroupWeft _ _ _)
      · exact .next ht
  · exact .next h

theorem execActiveSetTimeout_keepsTables (h : s.TablesWf) (k w : Nat) : KeepsTables (execActiveSetTimeout k w s) := by
  unfold execActiveSetTimeout
  split
  · split
    · split
      · exact .next h.leaveActive
      · exact .next h
    · exact .next h
  · exact .next h

theorem execPathwaitTimeout_keepsTables (h : s.TablesWf) (k w : Nat) (pc : Word) : KeepsTables (execPathwaitTimeout k w pc s) := by
  unfold execPathwaitTimeout
  split
  · split
    · split
      · exact .next h
      · exact .next ((h.modWeft _ _ _).wakePath _ _ _).toPathwait
    · exact .next h
  · exact .next h

theorem execJoinTimeout_keepsTables (h : s.TablesWf) (k w : Nat) (target : Word) : KeepsTables (execJoinTimeout k w target s) := by
  unfold execJoinTimeout
  split
  · split
    · exact .next (h.releaseRecord.ite h)
    · exact .next h
  · exact .next h

theorem execSliceTimeout_keepsTables (h : s.TablesWf) (k w : Nat) : KeepsTables (execSliceTimeout k w s) := by
  unfold execSliceTimeout
  split
  · exact .next (h.expireSlices.ite h)
  · exact .next h

theorem execWaittDeadline_keepsTables (h : s.TablesWf) (k i : Nat) : KeepsTables (execWaittDeadline k i s) := by
  unfold execWaittDeadline
  split
  · split
    · exact .next ((h.modStrands _ _ _).ite h)
    · exact .next h
  · exact .next h

/-! ### Replies -/

theorem State.TablesWf.markWrote (h : s.TablesWf) {c seq : Nat} : (s.markWrote c seq).TablesWf := h
theorem State.TablesWf.entryWords (h : s.TablesWf) {c seq lane : Nat} {ws : List Word} : (s.entryWords c seq lane ws).TablesWf :=
  h.frame (by simp)

theorem execLoadReply_keepsTables (h : s.TablesWf) (req moment : Nat) (ans : RemoteAns) :
    KeepsTables (execLoadReply req moment ans s) := by
  unfold execLoadReply
  split
  · exact .next h
  · split
    · exact .next h
    · dsimp only
      split
      · exact .next ((h.frame (by simp)).ite (h.frame (by simp)))
      · split
        · exact .next h.denyLoad
        · split
          · exact .next h.nackLoad
          · refine .next (State.TablesWf.loadEnd (State.TablesWf.entryWords (State.TablesWf.markWrote (State.TablesWf.modStrand ?_))))
            exact h.frame (by simp)
      · split
        · exact .next h.denyLoad
        · split
          · exact .next h.nackLoad
          · exact .next (State.TablesWf.fillDone (h.frame (by simp)))
      · exact .next h

theorem execAtomicReply_keepsTables (h : s.TablesWf) (req : Nat) (ans : RemoteAns) : KeepsTables (execAtomicReply req ans s) := by
  unfold execAtomicReply
  split
  · exact .next h
  · split
    · extract_lets remote old s1 s2
      have h1 : s1.TablesWf := (h.frame (by simp)).ite (h.frame (by simp))
      have h2 : s2.TablesWf := State.TablesWf.modStrand (h1.frame (State.endReq_skeins ..))
      split
      · split
        · exact .next (h.frame (by simp))
        · split
          · exact .next h.denyPosted
          · exact .next h.holdReq
      · split
        · exact .next h.denyLoad
        · split
          · exact .next h.nackLoad
          · exact .next h2.markWrote.loadEnd
    · exact .next h

theorem execLdgaWrite_keepsTables (h : s.TablesWf) (req moment : Nat) (ans : RemoteAns) :
    KeepsTables (execLdgaWrite req moment ans s) := by
  unfold execLdgaWrite
  split
  · exact .next h
  · split
    · split
      · exact .next h.denyPosted
      · split
        · exact .next h.holdReq
        · extract_lets v s1
          have h1 : s1.TablesWf := State.TablesWf.modStrand (h.frame ((State.endReq_skeins ..).trans
            ((State.fillL1_skeins ..).trans (State.replyBytes_skeins ..))))
          split
          · exact .next h1.noteWrites.settleXlane
          · exact .next h1
    · exact .next h

theorem execStoreAck_keepsTables (h : s.TablesWf) (req : Nat) (ans : RemoteAns) : KeepsTables (execStoreAck req ans s) := by
  unfold execStoreAck
  split
  · exact .next h
  · split
    · exact .next (State.TablesWf.foldl _ (fun _ _ ht => State.TablesWf.ite (ht.frame (by simp)) (ht.denyPosted.ite ht.holdReq)) _ h)
    · split
      · exact .next (State.TablesWf.modStrand (h.frame (by simp)))
      · split
        · exact .next h.denyLoad
        · exact .next h.nackLoad
    · exact .next h

theorem execRstAck_keepsTables (h : s.TablesWf) (req : Nat) (ans : RemoteAns) : KeepsTables (execRstAck req ans s) := by
  unfold execRstAck
  split
  · exact .next h
  · split
    · extract_lets remote s1
      have h1 : s1.TablesWf := by
        dsimp only [s1]
        split
        · split
          · next hr => exact h.frame (State.rstApply_skeins hr)
          · exact h
        · exact h
      split
      · exact .next (State.TablesWf.modStrand (h1.frame (State.endReq_skeins ..)))
      · split
        · exact .next h.denyPosted
        · split
          · exact .next (h.frame (by simp))
          · exact .next h.holdReq
    · exact .next h

theorem execWakePacket_keepsTables (h : s.TablesWf) (core entry : Nat) (ans : RemoteAns) :
    KeepsTables (execWakePacket core entry ans s) := by
  unfold execWakePacket
  split
  · exact .next h
  · split
    · split
      · exact .next h.endWatch
      · exact .next h
    · exact .next (State.TablesWf.endWatch (h.frame (by simp)))

theorem execWatchTimeout_keepsTables (h : s.TablesWf) (core entry : Nat) (ans : RemoteAns) :
    KeepsTables (execWatchTimeout core entry ans s) := by
  unfold execWatchTimeout
  split
  · exact .next h
  · dsimp only
    split
    · exact .next h
    · split
      · split
        · next hr => exact .next (h.frame (State.cancelWatch_skeins hr)).endWatch
        · exact .next h
      · exact .next (State.TablesWf.endWatch (h.frame (by simp)))

theorem execInstructionFetchReply_keepsTables (h : s.TablesWf) (fetch : Nat) : KeepsTables (execInstructionFetchReply fetch s) := by
  unfold execInstructionFetchReply
  split
  · exact .next h
  · extract_lets away data s1 s0 a va
    have h1 : s1.TablesWf := h
    have h0 : s0.TablesWf := State.TablesWf.ite (h1.frame (State.fabricBytes_skeins ..)) h1
    split
    · exact .next h
    · split
      · exact .next (h0.frame (State.fillCode_skeins ..))
      · exact .next h0.failFetch

theorem execShdReply_keepsTables (h : s.TablesWf) (op : Nat) : KeepsTables (execShdReply op s) := by
  unfold execShdReply
  split
  · exact .next h
  · next o _ =>
    split
    · exact .next h
    · extract_lets here s1 pc go word bad ok s2 s3 s4
      have h1 : s1.TablesWf := h.endShd
      have hgo : ∀ t : State, t.TablesWf → (go t).TablesWf := fun t ht => ht.modStrands _ _ _
      split
      · exact .next (State.TablesWf.fatalNack (State.TablesWf.ite (h1.frame (State.freeSlotSh_skeins ..)) h1))
      · split
        · have hword : ∀ (t : State) (w : Nat), t.TablesWf → (word t w).TablesWf :=
            fun t w ht => (hgo _ (ht.modStrands _ _ _)).noteWrites
          split
          · exact .next (hword _ _ h1)
          · split
            · exact .next (hword _ _ (h1.frame (State.freeSlotSh_skeins ..)))
            · extract_lets sh' s2
              have h2 : s2.TablesWf := h1.frame ((State.writeBlock_skeins ..).trans (State.modShadow_skeins ..))
              exact .next ((hword _ _ h2).ite h2)
        · have h2 : s2.TablesWf := State.TablesWf.foldl _ (fun _ _ ht => ht.modStrand) _ h1
          have h3 : s3.TablesWf := h2.modStrands _ _ _
          have h4 : s4.TablesWf := h3.ite h3.noteWrites
          exact .next (h4.ite h4.takeTraps)
        · split
          · exact .next h1.takeTraps
          · exact .next (hgo _ h1)

/-! ### Copies, engine, banks -/

theorem execCopyChunk_keepsTables (h : s.TablesWf) (copy : Nat) (ans : RemoteAns) : KeepsTables (execCopyChunk copy ans s) := by
  unfold execCopyChunk
  split
  · exact .next h
  · extract_lets vs late good s1 s2 s3
    have h1 : s1.TablesWf := h.runPieces
    have h2 : s2.TablesWf := State.TablesWf.ite (State.TablesWf.foldl _ (fun _ _ ht => ht.frame (State.poisonPiece_skeins ..)) _ h1) h1
    have h3 : s3.TablesWf := h2
    split
    · exact .next h
    · split
      · exact .next h.fatalNack
      · exact .next (h3.frame ((State.kickBolt_skeins ..).trans (State.ackChunk_skeins ..)))

theorem execCopyRetire_keepsTables (h : s.TablesWf) (copy : Nat) : KeepsTables (execCopyRetire copy s) := by
  unfold execCopyRetire
  split
  · exact .next h
  · split
    · exact .next h
    · refine .next ?_
      exact State.TablesWf.modSkein_frame h _ _ (fun _ => rfl) (fun _ => rfl)

theorem execCopyNack_keepsTables (h : s.TablesWf) (copy done : Nat) (ans : RemoteAns) :
    KeepsTables (execCopyNack copy done ans s) := by
  unfold execCopyNack
  split
  · exact .next h
  · extract_lets remote far
    split
    · exact .next h
    · next hit _ _ =>
      extract_lets off s1
      have h1 : s1.TablesWf := h.runPieces
      split
      · split
        · exact .next h1.fatalNack
        · split
          · next hr => exact .next ((h1.frame (State.openFault_skeins hr)).frame rfl)
          · exact .next h
      · split
        · exact .next h1.fatalNack
        · exact .next (h1.frame rfl)

theorem execCopyViolation_keepsTables (h : s.TablesWf) (copy : Nat) (ans : RemoteAns) :
    KeepsTables (execCopyViolation copy ans s) := by
  unfold execCopyViolation
  split
  · exact .next h
  · extract_lets hit va s1 core s2
    have h1 : s1.TablesWf := by
      refine State.TablesWf.modSkein_frame ?_ _ _ (fun _ => rfl) (fun _ => rfl)
      exact h
    have h2 : s2.TablesWf := h1.frame (State.raiseFrozen_skeins ..)
    split
    · exact .next h
    · split
      · exact .next h2.gangFault
      · exact .next h2

theorem execEngineOpStart_keepsTables (h : s.TablesWf) (core : Nat) : KeepsTables (execEngineOpStart core s) := by
  unfold execEngineOpStart
  split
  · split
    · exact .next h
    · exact .next (State.TablesWf.foldl _ (fun _ _ ht => ht.joinReads) _ (h.frame (State.meterMac_skeins ..)))
  · exact .next h

theorem execEngineOpDone_keepsTables (h : s.TablesWf) (core : Nat) : KeepsTables (execEngineOpDone core s) := by
  unfold execEngineOpDone
  split
  · extract_lets own
    split
    · exact .next h
    · refine .next (State.TablesWf.runEngine (State.TablesWf.foldl _ (fun _ _ ht => ht.frame (State.beginReads_skeins ..)) _ ?_))
      exact h
  · exact .next h

theorem execRebuildComplete_keepsTables (h : s.TablesWf) (core group : Nat) : KeepsTables (execRebuildComplete core group s) := by
  unfold execRebuildComplete
  dsimp only
  split
  · exact .next (h.endRebuild.takeOffline.ite h.endRebuild)
  · exact .next h

theorem execScrubPass_keepsTables (h : s.TablesWf) (core : Nat) (found sel : List (Nat × Nat)) :
    KeepsTables (execScrubPass core found sel s) := by
  unfold execScrubPass
  split
  · exact .next h
  · extract_lets mark s1 s2
    have h1 : s1.TablesWf := h.modScratch
    have h2 : s2.TablesWf := State.TablesWf.foldl _ (fun _ _ ht => ht.scrubMember) _ h1
    exact .next (State.TablesWf.foldl _ (fun _ _ ht => ht.scrubMember) _ h2)

theorem execSpscrubComplete_keepsTables (h : s.TablesWf) (k w : Nat) : KeepsTables (execSpscrubComplete k w s) := by
  unfold execSpscrubComplete
  split
  · split
    · dsimp only
      split
      · exact .next h
      · exact .next (State.TablesWf.foldl _ (fun _ _ ht => ht.scFix) _ (h.modWeft _ _ _))
    · exact .next h
  · exact .next h

/-! ### Bolts, save and restore -/

theorem execBoltStart_keepsTables (h : s.TablesWf) (cluster ctx lslot bolt : Nat) :
    KeepsTables (execBoltStart cluster ctx lslot bolt s) := by
  unfold execBoltStart
  extract_lets es
  clear_value es
  split
  · extract_lets old kind due rebuilds
    clear_value old
    split
    · refine .next (State.TablesWf.ite h.startNew ?_)
      split
      · exact h.startSaved
      · exact h
    · exact .next h
  · exact .next h

theorem execSkeinEnd_keepsTables (h : s.TablesWf) (skein : Nat) : KeepsTables (execSkeinEnd skein s) := by
  unfold execSkeinEnd
  split
  · exact .next h
  · extract_lets busy
    split
    · exact .next h
    · refine .next (State.TablesWf.retireBolt ?_)
      exact h.freeSkein (k := skein)

theorem execHaltComplete_keepsTables (h : s.TablesWf) (part : Nat) : KeepsTables (execHaltComplete part s) := by
  unfold execHaltComplete
  split
  · exact .next h
  · extract_lets ctxs sks s1 s2
    have h1 : s1.TablesWf := State.TablesWf.foldl _ (fun _ _ ht => ht.haltSkein) _ h
    have h2 : s2.TablesWf := State.TablesWf.foldl _ (fun _ _ ht => State.TablesWf.foldl _ (fun _ _ hu => by exact hu) _ ht) _ h1
    split
    · exact .next h
    · exact .next (h2.frame (State.endPreempt_skeins ..))

theorem execAbandonTimeout_keepsTables (h : s.TablesWf) (part : Nat) : KeepsTables (execAbandonTimeout part s) := by
  unfold execAbandonTimeout
  split
  · exact .next h
  · split
    · exact .next h
    · split
      · exact .next h
      · exact .next (State.TablesWf.foldl _ (fun t e ht => State.TablesWf.abandonReq ht) _ h)

theorem execContextSaveComplete_keepsTables (h : s.TablesWf) (ctx : Nat) : KeepsTables (execContextSaveComplete ctx s) := by
  unfold execContextSaveComplete
  split
  · exact .next h
  · split
    · exact .next h
    · extract_lets sks quads o s1
      have h1 : s1.TablesWf := by
        refine State.TablesWf.foldl _ (fun t e ht => ?_) _ (h.frame (State.sizeImages_skeins ..))
        split
        · exact ht.saveSkein
        · exact ht
      split
      · exact .next h1
      · extract_lets s2
        have h2 : s2.TablesWf := by
          dsimp only [s2]
          split
          · exact h1
          · split
            · refine State.TablesWf.startDrain ?_
              exact h1
            · exact h1
        exact .next (h2.frame ((State.noteShares_skeins ..).trans (State.endPreempt_skeins ..)))

theorem execRestoreComplete_keepsTables (h : s.TablesWf) (ctx : Nat) : KeepsTables (execRestoreComplete ctx s) := by
  unfold execRestoreComplete
  split
  · exact .next h
  · extract_lets bs on s1 s2 s3
    have h2 : s2.TablesWf := State.TablesWf.foldl _ (fun _ _ ht => State.TablesWf.foldl _ (fun _ _ hu => hu.releaseSkein) _ ht) _
      (h.frame (t := s1) rfl)
    split
    · exact .next h
    · exact .next (h2.frame ((State.noteShares_skeins ..).trans (State.endPendOf_skeins ..)))

theorem execWatchdog_keepsTables (h : s.TablesWf) (bolt : Nat) : KeepsTables (execWatchdog bolt s) := by
  unfold execWatchdog
  split
  · exact .next h
  · dsimp only
    split
    · exact .next h
    · exact .next h.gangFault

theorem execFabricResponseTimeout_keepsTables (h : s.TablesWf) (port : Nat) : KeepsTables (execFabricResponseTimeout port s) := by
  unfold execFabricResponseTimeout
  split
  · exact .next h
  · extract_lets late other s1 net s2 parts
    have h1 : s1.TablesWf := State.TablesWf.foldl _ (fun _ _ ht => by exact ht) _ h
    have h2 : s2.TablesWf := State.TablesWf.foldl _ (fun _ _ ht => ht.farPoison.ite ht) _ (h1.frame rfl)
    split
    · exact .next h
    · exact .next (h2.frame ((State.raiseLane_skeins ..).trans (State.releasePorts_skeins ..)))

/-! ### Commands -/

/-- The state where a command's body ends; `d` where it does not start. -/
@[simp] def CmdEnd.state (d : State) : CmdEnd → State
  | .fin _ _ s => s
  | .wait _ s => s
  | .waitFor _ s => s
  | .retry => d

theorem State.TablesWf.command (h : s.TablesWf) {qn opcode : Nat} {used : List (Nat × Nat)} {body : Cmd → State → CmdEnd}
    (hb : ∀ c t, t.TablesWf → ((body c t).state s).TablesWf) : KeepsTables (s.command qn opcode used body) := by
  unfold State.command
  split
  · exact .next h
  · next q _ =>
    split
    · exact .next h
    · split
      · refine .next ?_
        cases hn : s.unitNack _ _ _ _ _ with
        | none => exact h
        | some t => exact (h.frame (State.unitNack_skeins hn)).frame (by simp)
      · next b _ =>
        extract_lets op known t tag caddr byte ctx all fail
        have ht : t.TablesWf := h.frame (by simp [t])
        have hfail : ∀ st, KeepsTables (fail st) := fun st => .next (ht.frame (by simp))
        split
        · exact .next h
        · split
          · exact hfail _
          · split
            · exact hfail _
            · split
              · exact hfail _
              · have h1 := hb { queue := qn, q := q, tag := tag, caddr := caddr, bytes := b, ctx := ctx } t ht
                split
                · next he => rw [he] at h1; exact .next (State.TablesWf.frame h1 (by simp))
                · next he => rw [he] at h1; exact .next (State.TablesWf.frame h1 (by simp))
                · next he => rw [he] at h1; exact .next (State.TablesWf.frame h1 (by simp))
                · exact .next h

theorem State.TablesWf.failedAccess (h : s.TablesWf) {d : State} (hd : d.TablesWf) {ctx domain flags : Nat} {e : Nat × Nat} :
    ((s.failedAccess ctx domain flags e).state d).TablesWf := by
  unfold State.failedAccess
  split
  · exact hd
  · next hn => exact h.frame (State.unitNack_skeins hn)

theorem State.TablesWf.hostLaunch (h : s.TablesWf) {d : State} (hd : d.TablesWf) {ctx : Nat} {bytes : List Byte} :
    ((s.hostLaunch ctx bytes).state d).TablesWf := by
  unfold State.hostLaunch
  split
  · exact h
  · split
    · exact h
    · split
      · exact State.TablesWf.failedAccess (h.frame (by simp)) hd
      · next hr =>
        have ht := h.frame (State.hostRead_skeins hr)
        split
        · exact ht
        · dsimp only
          split
          · exact ht
          · exact ht.frame (State.submit_skeins ..)

end Sys2Proof.Machine
end

section
/-! The commands of the queues keep the tables of strands and wefts. -/

namespace Sys2Proof.Machine

variable {s : State}

/-! ### Commands that leave the skeins alone, and those that do not -/

theorem execLaunchCmd_keepsTables (h : s.TablesWf) (queue : Nat) : KeepsTables (execLaunchCmd queue s) := by
  refine h.command fun c t ht => ?_
  dsimp only
  split
  · exact ht
  · split
    · exact State.TablesWf.failedAccess (ht.frame (by simp)) h
    · next hr => exact (ht.frame (State.hostRead_skeins hr)).hostLaunch h

theorem execEvset_keepsTables (h : s.TablesWf) (queue : Nat) : KeepsTables (execEvset queue s) :=
  h.command fun _ _ ht => ht.frame (by simp)

theorem execEvclear_keepsTables (h : s.TablesWf) (queue : Nat) : KeepsTables (execEvclear queue s) :=
  h.command fun _ _ ht => ht.frame (by simp)

theorem execEvread_keepsTables (h : s.TablesWf) (queue : Nat) : KeepsTables (execEvread queue s) := by
  refine h.command fun c t ht => ?_
  dsimp only
  split
  · exact ht
  · split
    · next hw => exact ht.frame ((State.unitSent_skeins ..).trans (State.modWrite_skeins hw))
    · exact State.TablesWf.failedAccess (ht.frame (by simp)) h

theorem execCancel_keepsTables (h : s.TablesWf) (queue : Nat) : KeepsTables (execCancel queue s) := by
  refine h.command fun c t ht => ?_
  dsimp only
  split
  · exact ht
  · refine State.TablesWf.ite ht.freeLaunch (State.TablesWf.wakeLaunchb ?_)
    exact ht

theorem execBuild_keepsTables (h : s.TablesWf) (queue : Nat) : KeepsTables (execBuild queue s) := by
  refine h.command fun c t ht => ?_
  dsimp only
  split
  · exact ht
  · split
    · exact ht
    · exact ht.frame (by simp)

theorem execDestroy_keepsTables (h : s.TablesWf) (queue : Nat) : KeepsTables (execDestroy queue s) := by
  refine h.command fun c t ht => ?_
  split
  · exact ht
  · exact ht.destroyCtx

@[simp] theorem State.writeKeys_skeins (n : Nat) (l : List (Nat × Nat)) (t : State) :
    (l.foldl (fun x e => x.writeKey 768 n e.2 e.1) t).skeins = t.skeins :=
  foldl_skeins _ (fun _ _ => State.writeKey_skeins ..) l t

theorem execSetkeys_keepsTables (h : s.TablesWf) (queue : Nat) : KeepsTables (execSetkeys queue s) := by
  refine h.command fun c t ht => ?_
  dsimp only
  split
  · exact ht
  · split
    · exact ht
    · split
      · exact ht.frame (by simp)
      · exact ht.frame (by simp)

theorem execSetroot_keepsTables (h : s.TablesWf) (queue : Nat) : KeepsTables (execSetroot queue s) := by
  refine h.command fun c t ht => ?_
  dsimp only
  split
  · exact ht
  · exact ht.frame (by simp)

theorem execRingset_keepsTables (h : s.TablesWf) (queue : Nat) : KeepsTables (execRingset queue s) := by
  refine h.command fun c t ht => ?_
  dsimp only
  split
  · exact ht
  · split
    · exact ht
    · exact ht.frame (by simp)

theorem execQopen_keepsTables (h : s.TablesWf) (queue : Nat) : KeepsTables (execQopen queue s) := by
  refine h.command fun c t ht => ?_
  dsimp only
  split
  · exact ht
  · split
    · exact ht
    · split
      · exact ht
      · exact ht.frame (by simp)

theorem execQclose_keepsTables (h : s.TablesWf) (queue : Nat) : KeepsTables (execQclose queue s) := by
  refine h.command fun c t ht => ?_
  dsimp only
  split
  · exact ht
  · split
    · exact ht
    · exact ht.frame (by simp)

theorem execTinval_keepsTables (h : s.TablesWf) (queue : Nat) : KeepsTables (execTinval queue s) := by
  refine h.command fun c t ht => ?_
  dsimp only
  split
  · exact ht
  · split
    · exact ht
    · split
      · exact ht.frame (by simp)
      · exact ht.frame (by simp)

theorem execProtect_keepsTables (h : s.TablesWf) (queue : Nat) : KeepsTables (execProtect queue s) := by
  refine h.command fun c t ht => ?_
  have hu := fun (n a : Nat) => State.TablesWf.foldl (fun x j => x.granCommand (a + j) .protect)
    (fun _ _ hx => hx.frame (by simp)) (List.range n) ht
  dsimp only
  split
  · exact ht
  · split
    · exact hu _ _
    · exact hu _ _

theorem execAttest_keepsTables (h : s.TablesWf) (queue : Option Nat) (nonce : List Byte) : KeepsTables (execAttest queue nonce s) := by
  unfold execAttest
  split
  · refine h.command fun c t ht => ?_
    extract_lets va body r w
    have hw : w.1.TablesWf := ht.frame (State.modWriteAll_skeins ..)
    split
    · exact ht
    · split
      · exact hw.frame (by simp)
      · exact hw.failedAccess h
  · split
    · exact .next h
    · exact .next (h.frame (by simp))

theorem execRspool_keepsTables (h : s.TablesWf) (queue : Nat) : KeepsTables (execRspool queue s) := by
  refine h.command fun c t ht => ?_
  dsimp only
  split
  · exact ht
  · split
    · exact ht
    · exact ht.frame (by simp)

theorem execReplay_keepsTables (h : s.TablesWf) (queue : Option Nat) (id : Nat) : KeepsTables (execReplay queue id s) := by
  unfold execReplay
  split
  · refine h.command fun c t ht => ?_
    dsimp only
    split
    · exact ht.replayRecord.ite ht
    · exact ht
  · refine .next ?_
    split
    · exact h.replayRecord.ite h
    · split
      · exact h.replayRecord.ite h
      · exact h

theorem execUncarve_keepsTables (h : s.TablesWf) (auth : Auth) (part : Nat) : KeepsTables (execUncarve auth part s) := by
  refine .next (h.operator fun t ht => ?_)
  split
  · exact ht.frame (by simp)
  · exact State.TablesWf.foldl _ (fun _ _ hu => hu.destroyCtx) _ (ht.frame (State.await_skeins ..))

theorem execReset_keepsTables (h : s.TablesWf) (auth : Auth) : KeepsTables (execReset auth s) :=
  .next (h.operator fun _ _ => State.restart_tablesWf _)

theorem State.TablesWf.runCommand (h : s.TablesWf) (queue opcode : Nat) : KeepsTables (s.runCommand queue opcode) := by
  unfold State.runCommand
  split
  · exact execEvset_keepsTables h _
  · exact execEvclear_keepsTables h _
  · exact execEvread_keepsTables h _
  · exact execCancel_keepsTables h _
  · exact execBuild_keepsTables h _
  · exact execDestroy_keepsTables h _
  · exact execSetkeys_keepsTables h _
  · exact execSetroot_keepsTables h _
  · exact execRingset_keepsTables h _
  · exact execQopen_keepsTables h _
  · exact execQclose_keepsTables h _
  · exact execReplay_keepsTables h _ _
  · exact execTinval_keepsTables h _
  · exact execProtect_keepsTables h _
  · exact execAttest_keepsTables h _ _
  · exact execRspool_keepsTables h _
  · exact execLaunchCmd_keepsTables h _

end Sys2Proof.Machine
end

section
/-! Every step keeps the tables of strands and wefts of every skein in canonical form (R111, R117, R129): an instruction or
an event by the lemma of its row, the time that passes and what settles before it by theirs. -/

namespace Sys2Proof.Machine

variable {s : State}

/-! ### Every instruction, every due event, every step -/

theorem exec_word_keepsTables (h : s.TablesWf) {i : Instr} (hi : isWord i = true) : KeepsTables (exec i s) := by
  cases i
  all_goals cases hi
  all_goals dsimp only [exec]
  case add | sub | mul | mulh | mulhu | and | or | xor | andn | shl | shr | sar | min | max | minu | maxu |
      addsat | subsat | addsatu | subsatu | div | divu | rem | remu | popc | clz | ctz | brev | abs | neg |
      absdiff | add64 | sub64 | shl64 | shr64 | sar64 | mulw | mulwu | and64 | or64 | xor64 | addw | addws |
      lea2 | lea4 | lea8 | lea16 | addi | andi | ori | xori | shli | shri | sari | roli | movi | movhi |
      add64i | icmp | fcmp | sel | pand | por | pxor | pandn | pnot | pmov | ptov | vtop | fadd | fsub |
      fmul | fdiv | fmin | fmax | fcopysign | fscale | fma | fms | fnma | fnms | rcp | rsq | sqrt | exp2 |
      log2 | sinpi | cospi | tanh | hadd | hsub | hmul | hfma | ftoi | ftoiz | ftou | itof | utof | pkh |
      pkb | xthl | xthh | xtbl | xtbh | frnd | frndz | pk8 | xt8 | pk4 | xt4 | mov | nset | nget | nadv |
      nclr | cwaitQuery | spstat =>
    exact h.lanes _ _
  case shfl | shflx | shflu | shfld | bcast | vote | count | rank | rediIadd | rediImin | rediImax |
      rediUmin | rediUmax | rediAnd | rediOr | rediXor | redfFaddt | redfFadds | redfFmin | redfFmax |
      redfScani | redfScanf | redfScanx =>
    exact h.crossWord
  case barSync | barArrive | barWait =>
    exact h.barWord
  case launch | launchb =>
    exact h.launchWord
  case atgAdd | atgMin | atgMax | atgMinu | atgMaxu | atgAnd | atgOr | atgXor | atgXchg | atgCas | atgFadd |
      atgFmin | atgFmax | atgHadd2 | atgIncw | atg64Add | atg64Minu | atg64Maxu | atg64And | atg64Or |
      atg64Xor | atg64Xchg | atg64Cas =>
    exact h.atgWord
  case atsAdd | atsMin | atsMax | atsMinu | atsMaxu | atsAnd | atsOr | atsXor | atsXchg | atsCas | atsFadd |
      atsFmin | atsFmax =>
    exact h.atsWord
  case fenceRel | fenceAcq | fencePhase | fenceDrain =>
    exact h.fenceWord
  case prefL1 | prefL2 =>
    exact h.prefWord
  case cpyG2s | cpyS2g | cpyS2s | cpyG2g | cpyS2sm =>
    exact h.copyWord
  case cwait | cwaitAll =>
    exact h.cwaitWord
  case raddF32 | raddBf16x2 | raddI32 | rmaxF32 | mst =>
    exact h.rstWord
  case mma | mmat | mmas | mzero | mload | mdrain | mchk =>
    exact h.engineWord
  case nop => exact execNop_keepsTables h
  case rdx => exact execRdx_keepsTables h _ _ _ _ _
  case wrx => exact execWrx_keepsTables h _ _ _ _ _
  case setw => exact execSetw_keepsTables h _ _ _ _
  case slice => exact execSlice_keepsTables h _
  case wsync => exact execWsync_keepsTables h _ _
  case br => exact execBr_keepsTables h _ _
  case call => exact execCall_keepsTables h _ _
  case split => exact execSplit_keepsTables h _ _
  case join => exact execJoin_keepsTables h _
  case ret => exact execRet_keepsTables h _
  case exit => exact execExit_keepsTables h _
  case brx => exact execBrx_keepsTables h _ _
  case callx => exact execCallx_keepsTables h _ _
  case tret => exact execTret_keepsTables h _
  case tretr => exact execTretr_keepsTables h _
  case yield => exact execYield_keepsTables h _
  case breakp => exact execBreakp_keepsTables h _
  case trap => exact execTrap_keepsTables h _ _
  case waitt => exact execWaitt_keepsTables h _ _
  case watch => exact execWatch_keepsTables h _ _ _ _ _ _
  case trigger => exact execTrigger_keepsTables h _ _
  case ldg => exact execLdg_keepsTables h _ _ _ _ _ _ _ _
  case stg => exact execStg_keepsTables h _ _ _ _ _ _ _ _
  case lds => exact execLds_keepsTables h _ _ _ _ _ _ _ _
  case sts => exact execSts_keepsTables h _ _ _ _ _ _ _ _
  case ldga => exact execLdga_keepsTables h _ _ _ _ _ _ _
  case shopen => exact execShopen_keepsTables h _ _ _ _
  case shpub => exact execShpub_keepsTables h _ _ _
  case shabort => exact execShabort_keepsTables h _ _ _
  case shstat => exact execShstat_keepsTables h _ _ _ _
  case mfs => exact execMfs_keepsTables h _ _ _ _
  case mts => exact execMts_keepsTables h _ _ _ _
  case spscrub => exact execSpscrub_keepsTables h _ _
  case spretire => exact execSpretire_keepsTables h _ _ _

theorem exec_event_keepsTables (h : s.TablesWf) {i : Instr} (hi : isWord i = false) : KeepsTables (exec i s) := by
  cases i
  all_goals cases hi
  all_goals dsimp only [exec]
  case activeSetEntry => exact execActiveSetEntry_keepsTables h _ _
  case activeSetTimeout => exact execActiveSetTimeout_keepsTables h _ _
  case pathwaitTimeout => exact execPathwaitTimeout_keepsTables h _ _ _
  case joinTimeout => exact execJoinTimeout_keepsTables h _ _ _
  case sliceTimeout => exact execSliceTimeout_keepsTables h _ _
  case waittDeadline => exact execWaittDeadline_keepsTables h _ _
  case loadReply => exact execLoadReply_keepsTables h _ _ _
  case atomicReply => exact execAtomicReply_keepsTables h _ _
  case ldgaWrite => exact execLdgaWrite_keepsTables h _ _ _
  case storeAck => exact execStoreAck_keepsTables h _ _
  case rstAck => exact execRstAck_keepsTables h _ _
  case wcAgeExpiry => exact execWcAgeExpiry_keepsTables h _ _
  case wakePacket => exact execWakePacket_keepsTables h _ _ _
  case watchTimeout => exact execWatchTimeout_keepsTables h _ _ _
  case copyChunk => exact execCopyChunk_keepsTables h _ _
  case copyRetire => exact execCopyRetire_keepsTables h _
  case copyNack => exact execCopyNack_keepsTables h _ _ _
  case copyViolation => exact execCopyViolation_keepsTables h _ _
  case engineOpStart => exact execEngineOpStart_keepsTables h _
  case engineOpDone => exact execEngineOpDone_keepsTables h _
  case parityApply => exact execParityApply_keepsTables h _ _
  case rebuildComplete => exact execRebuildComplete_keepsTables h _ _
  case scrubPass => exact execScrubPass_keepsTables h _ _ _
  case spscrubComplete => exact execSpscrubComplete_keepsTables h _ _
  case bindRecordWrite => exact execBindRecordWrite_keepsTables h _ _ _
  case boltStart => exact execBoltStart_keepsTables h _ _ _ _
  case skeinEnd => exact execSkeinEnd_keepsTables h _
  case haltComplete => exact execHaltComplete_keepsTables h _
  case abandonTimeout => exact execAbandonTimeout_keepsTables h _
  case contextSaveComplete => exact execContextSaveComplete_keepsTables h _
  case imageSpillStart => exact execImageSpillStart_keepsTables h _
  case spillComplete => exact execSpillComplete_keepsTables h _
  case restoreComplete => exact execRestoreComplete_keepsTables h _
  case watchdog => exact execWatchdog_keepsTables h _
  case homeRequest => exact execHomeRequest_keepsTables h _
  case faultRecordDelivery => exact execFaultRecordDelivery_keepsTables h _
  case moveComplete => exact execMoveComplete_keepsTables h _ _
  case recodingComplete => exact execRecodingComplete_keepsTables h _ _
  case filterInvalidation => exact execFilterInvalidation_keepsTables h _ _ _
  case filterAck => exact execFilterAck_keepsTables h _ _ _
  case shadowOpenRequest => exact execShadowOpenRequest_keepsTables h _ _
  case shadowWrite => exact execShadowWrite_keepsTables h _
  case shpubArrival => exact execShpubArrival_keepsTables h _
  case publishPrepare => exact execPublishPrepare_keepsTables h _ _ _
  case publishCommit => exact execPublishCommit_keepsTables h _ _
  case publishAbort => exact execPublishAbort_keepsTables h _ _
  case replicaTimeout => exact execReplicaTimeout_keepsTables h _ _
  case poolExtentWithdrawal => exact execPoolExtentWithdrawal_keepsTables h _ _ _ _
  case poolInflightTimeout => exact execPoolInflightTimeout_keepsTables h _
  case backInvalidate => exact execBackInvalidate_keepsTables h _ _
  case readyToken => exact execReadyToken_keepsTables h _ _ _
  case startToken => exact execStartToken_keepsTables h _ _
  case doorbell => exact execDoorbell_keepsTables h _ _
  case qreset => exact execQreset_keepsTables h _ _
  case launchCmd => exact execLaunchCmd_keepsTables h _
  case evset => exact execEvset_keepsTables h _
  case evclear => exact execEvclear_keepsTables h _
  case evread => exact execEvread_keepsTables h _
  case cancel => exact execCancel_keepsTables h _
  case build => exact execBuild_keepsTables h _
  case contextBuilt => exact execContextBuilt_keepsTables h _
  case destroy => exact execDestroy_keepsTables h _
  case setkeys => exact execSetkeys_keepsTables h _
  case setroot => exact execSetroot_keepsTables h _
  case ringset => exact execRingset_keepsTables h _
  case qopen => exact execQopen_keepsTables h _
  case qclose => exact execQclose_keepsTables h _
  case replay => exact execReplay_keepsTables h _ _
  case tinval => exact execTinval_keepsTables h _
  case protect => exact execProtect_keepsTables h _
  case attest => exact execAttest_keepsTables h _ _
  case rspool => exact execRspool_keepsTables h _
  case carve => exact execCarve_keepsTables h _ _
  case uncarve => exact execUncarve_keepsTables h _ _
  case partset => exact execPartset_keepsTables h _ _ _ _ _
  case preempt => exact execPreempt_keepsTables h _ _ _
  case restore => exact execRestore_keepsTables h _ _
  case migrate => exact execMigrate_keepsTables h _ _ _
  case tiermove => exact execTiermove_keepsTables h _ _ _ _
  case compress => exact execCompress_keepsTables h _ _
  case expand => exact execExpand_keepsTables h _ _
  case extentGrant => exact execExtentGrant_keepsTables h _ _ _
  case extentWithdraw => exact execExtentWithdraw_keepsTables h _
  case genbump => exact execGenbump_keepsTables h _
  case meterIntervalEnd => exact execMeterIntervalEnd_keepsTables h _
  case tokenArrival => exact execTokenArrival_keepsTables h _ _
  case flitReceive => exact execFlitReceive_keepsTables h _ _ _ _
  case flitReplayTimeout => exact execFlitReplayTimeout_keepsTables h _ _
  case rotationStep => exact execRotationStep_keepsTables h _ _
  case retrainDone => exact execRetrainDone_keepsTables h _ _ _ _
  case shadowCalibrationDone => exact execShadowCalibrationDone_keepsTables h _ _
  case loomLossOfLight => exact execLoomLossOfLight_keepsTables h _ _
  case portTraining => exact execPortTraining_keepsTables h _ _ _
  case portDown => exact execPortDown_keepsTables h _
  case portUp => exact execPortUp_keepsTables h _
  case fabricResponseTimeout => exact execFabricResponseTimeout_keepsTables h _
  case hostMmioViolation => exact execHostMmioViolation_keepsTables h _ _
  case capcfgWrite => exact execCapcfgWrite_keepsTables h _ _ _
  case registerWrite => exact execRegisterWrite_keepsTables h _ _
  case powerOverLimit => exact execPowerOverLimit_keepsTables h _
  case readring => exact execReadring_keepsTables h
  case pwrcap => exact execPwrcap_keepsTables h _ _
  case reset => exact execReset_keepsTables h _
  case setopkey => exact execSetopkey_keepsTables h _ _
  case resetRelease => exact execResetRelease_keepsTables h _
  case partitionReady => exact execPartitionReady_keepsTables h _
  case shdReply => exact execShdReply_keepsTables h _
  case instructionFetchReply => exact execInstructionFetchReply_keepsTables h _
  case captureSample => exact execCaptureSample_keepsTables h _ _
  case fabricLaneWeak => exact execFabricLaneWeak_keepsTables h _ _
  case fabricLaneLost => exact execFabricLaneLost_keepsTables h _ _
  case keyTableUpdateApplied => exact execKeyTableUpdateApplied_keepsTables h _ _
  case walkComplete => exact execWalkComplete_keepsTables h _

theorem exec_keepsTables (h : s.TablesWf) (i : Instr) : KeepsTables (exec i s) := by
  cases hi : isWord i with
  | true => exact exec_word_keepsTables h hi
  | false => exact exec_event_keepsTables h hi

theorem State.TablesWf.runDue (h : s.TablesWf) (d : Due) : KeepsTables (s.runDue d) := by
  cases d with
  | issue => exact .next h
  | activeSetEntry => exact execActiveSetEntry_keepsTables h _ _
  | flitReceive => exact execFlitReceive_keepsTables h _ _ _ _
  | tokenArrival => exact execTokenArrival_keepsTables h _ _
  | walkComplete => exact execWalkComplete_keepsTables h _
  | wcAgeExpiry => exact execWcAgeExpiry_keepsTables h _ _
  | homeRequest => exact execHomeRequest_keepsTables h _
  | shadowWrite => exact execShadowWrite_keepsTables h _
  | extentWithdraw => exact execExtentWithdraw_keepsTables h _
  | loadReply => exact execLoadReply_keepsTables h _ _ _
  | ldgaWrite => exact execLdgaWrite_keepsTables h _ _ _
  | storeAck => exact execStoreAck_keepsTables h _ _
  | atomicReply => exact execAtomicReply_keepsTables h _ _
  | rstAck => exact execRstAck_keepsTables h _ _
  | instructionFetchReply => exact execInstructionFetchReply_keepsTables h _
  | wakePacket => exact execWakePacket_keepsTables h _ _ _
  | copyChunk => exact execCopyChunk_keepsTables h _ _
  | engineOpStart => exact execEngineOpStart_keepsTables h _
  | engineOpDone => exact execEngineOpDone_keepsTables h _
  | parityApply => exact execParityApply_keepsTables h _ _
  | skeinEnd => exact execSkeinEnd_keepsTables h _
  | waittDeadline => exact execWaittDeadline_keepsTables h _ _
  | joinTimeout => exact execJoinTimeout_keepsTables h _ _ _
  | sliceTimeout => exact execSliceTimeout_keepsTables h _ _
  | pathwaitTimeout => exact execPathwaitTimeout_keepsTables h _ _ _
  | activeSetTimeout => exact execActiveSetTimeout_keepsTables h _ _
  | watchTimeout => exact execWatchTimeout_keepsTables h _ _ _
  | watchdog => exact execWatchdog_keepsTables h _
  | copyRetire => exact execCopyRetire_keepsTables h _
  | copyNack => exact execCopyNack_keepsTables h _ _ _
  | copyViolation => exact execCopyViolation_keepsTables h _ _
  | rebuildComplete => exact execRebuildComplete_keepsTables h _ _
  | spscrubComplete => exact execSpscrubComplete_keepsTables h _ _
  | shadowOpenRequest => exact execShadowOpenRequest_keepsTables h _ _
  | shpubArrival => exact execShpubArrival_keepsTables h _
  | shdReply => exact execShdReply_keepsTables h _
  | publishPrepare => exact execPublishPrepare_keepsTables h _ _ _
  | publishCommit => exact execPublishCommit_keepsTables h _ _
  | publishAbort => exact execPublishAbort_keepsTables h _ _
  | faultRecordDelivery => exact execFaultRecordDelivery_keepsTables h _
  | moveComplete => exact execMoveComplete_keepsTables h _ _
  | recodingComplete => exact execRecodingComplete_keepsTables h _ _
  | filterInvalidation => exact execFilterInvalidation_keepsTables h _ _ _
  | filterAck => exact execFilterAck_keepsTables h _ _ _
  | flitReplayTimeout => exact execFlitReplayTimeout_keepsTables h _ _
  | command => exact h.runCommand _ _
  | contextBuilt => exact execContextBuilt_keepsTables h _
  | partitionReady => exact execPartitionReady_keepsTables h _
  | keyTableUpdateApplied => exact execKeyTableUpdateApplied_keepsTables h _ _
  | boltStart => exact execBoltStart_keepsTables h _ _ _ _
  | haltComplete => exact execHaltComplete_keepsTables h _
  | abandonTimeout => exact execAbandonTimeout_keepsTables h _
  | contextSaveComplete => exact execContextSaveComplete_keepsTables h _
  | restoreComplete => exact execRestoreComplete_keepsTables h _

theorem State.TablesWf.turnOf (h : s.TablesWf) (m : Move) : (s.turnOf m).1.TablesWf := by
  cases m with
  | issue =>
    rw [State.turnOf, Turned.ofIssue_fst]
    exact h.prepareIssue
  | event i =>
    unfold State.turnOf
    dsimp only
    split
    · exact h
    · exact h
  | outside => exact h.fromOutside _
  | idle => exact h

/-- What is due settles after time has passed, with the skeins as they were. -/
theorem State.TablesWf.tick_settle (h : s.TablesWf) {n : Nat} : (s.tick n).settle.TablesWf :=
  State.TablesWf.settle (h.frame (State.tick_skeins ..))

theorem State.TablesWf.takeTurn (h : s.TablesWf) : s.takeTurn.1.TablesWf := by
  unfold State.takeTurn
  split
  · refine State.TablesWf.turnOf (State.TablesWf.tick_settle ?_) _
    exact h
  · extract_lets u
    have hu : u.TablesWf := by
      refine State.TablesWf.tick_settle ?_
      exact h
    split
    · rw [Turned.ofIssue_fst]
      exact hu.prepareIssue
    · exact hu
    · exact hu

/-- Settles O46: what a step runs, the tables it started from and those it leaves are canonical. -/
theorem tablesKept : Obligations.TablesKept := by
  unfold Obligations.TablesKept
  intro s t hs
  have h : s.takeTurn.1.TablesWf := hs.takeTurn
  suffices KeepsTables (step s) from this t
  unfold step runTurn
  split
  · exact exec_keepsTables h _
  · exact h.runDue _
  · exact .next h

end Sys2Proof.Machine
end

section
/-! The return stack (R133 to R137): where a call and a return go, and what they trap, strand by strand. -/

namespace Sys2Proof.Machine

theorem ofInt_toNat (x : Word) : BitVec.ofInt 32 (x.toNat : Int) = x := by
  rw [BitVec.ofInt_natCast, BitVec.ofNat_toNat, BitVec.setWidth_eq]

/-- A strand after a call from the chip's entries (R136). -/
def Strand.called (x : Strand) (target : Word) : Strand := { x with onChip := nextPc x.pc :: x.onChip, pc := target }
/-- A strand after a return from the chip's newest entry (R136). -/
def Strand.returned (x : Strand) : Strand := { x with onChip := x.onChip.tail, pc := x.onChip.headD 0 }

theorem State.callTo_go (s : State) (sk : Skein) (i : Nat) (x : Strand) {target : Int} (ht : targetOk sk.kern target = true)
    (hc : x.onChip.length < 4) (hd : x.depth < sk.kern.rstack) :
    s.callTo sk i x target = (s.modStrand s.cur.skein i (fun y => y.called (BitVec.ofInt 32 target)), none) := by
  unfold State.callTo
  rw [if_neg (not_not.mpr ht), if_neg (Nat.not_le.mpr hd), if_neg hc.ne]
  rfl

theorem State.callTo_full (s : State) (sk : Skein) (i : Nat) (x : Strand) {target : Int} (ht : targetOk sk.kern target = true)
    (hd : sk.kern.rstack ≤ x.depth) :
    s.callTo sk i x target = (s, some { strand := i, cause := 0x06, val := BitVec.ofNat 32 sk.kern.rstack }) := by
  unfold State.callTo
  rw [if_neg (not_not.mpr ht), if_pos hd]

theorem State.popTop_go {s : State} {sk : Skein} {i : Nat} {x : Strand} {r : Word} {rest : List Word}
    (hx : s.strand? s.cur.skein i = some x) (hc : x.onChip = r :: rest) (ht : targetOk sk.kern r.toNat = true) :
    s.popTop sk i x = (s.modStrand s.cur.skein i Strand.returned, none) := by
  rw [State.popTop, hc]
  simp only [State.goTo, if_pos ht, ofInt_toNat]
  exact congrArg (·, none) (State.modStrand_congr hx (by rw [Strand.returned, hc]; rfl))

section
variable {s : State} {sk : Skein} {i : Instr} {g : BitVec 3} (h : s.CanRun sk i) (target : Strand → Int)
  (ht : ∀ j ∈ s.cur.strands, ∀ x, s.strand? s.cur.skein j = some x → x.rpr g.toNat = true → targetOk sk.kern (target x) = true)
include h ht

/-- A call of strands with room on the chip, within the declared depth, goes to its targets (R133, R136). -/
theorem State.word_callTo_go (hr : ∀ j ∈ s.cur.strands, ∀ x, s.strand? s.cur.skein j = some x → x.rpr g.toNat = true →
      x.onChip.length < 4 ∧ x.depth < sk.kern.rstack) :
    goesTo (s.word i (fun sk t => (true, t.eachStrand (t.acting g) (fun u j x => u.callTo sk j x (target x))))) (fun t =>
      s.StrandsDone t g.toNat (fun _ x => x.called (BitVec.ofInt 32 (target x))) ∧ s.OnlyStrands t) := by
  refine State.word_eachStrand_go h g (fun v hv j hj x hx hvx => ?_)
  have hjs := List.mem_of_mem_filter hj
  have hg := ((State.mem_actors hx).mp hj).2
  obtain ⟨hc, hd⟩ := hr j hjs x hx hg
  rw [State.callTo_go v sk j x (ht j hjs x hx hg) hc hd, hv]
  exact congrArg (·, none) (State.modStrand_congr hvx rfl)

/-- A call that would pass the declared depth traps STACK_OVERFLOW (R137). -/
theorem State.word_callTo_full (hh : s.Handled sk g) (hr : ∀ j ∈ s.cur.strands, ∀ x, s.strand? s.cur.skein j = some x →
      x.rpr g.toNat = true → sk.kern.rstack ≤ x.depth) :
    goesTo (s.word i (fun sk t => (true, t.eachStrand (t.acting g) (fun u j x => u.callTo sk j x (target x))))) (fun t =>
      s.StrandsDone t g.toNat (fun _ x => x.enter 0x06 ((s.skein? s.cur.skein).elim 0 (fun sk => BitVec.ofNat 32 sk.kern.rstack))
        s.cur.pc) ∧ t.homes = s.homes ∧
      (s.acting g ≠ [] → ∀ wf, t.weft? s.cur.skein s.cur.weft = some wf → wf.tmask = laneMask s.cur.weft (s.acting g))) := by
  refine State.word_eachStrand_enter h g hh 0x06 _ (fun j hj x hx => ?_)
  have hjs := List.mem_of_mem_filter hj
  have hg := ((State.mem_actors hx).mp hj).2
  rw [State.callTo_full _ sk j x (ht j hjs x hx hg) (hr j hjs x hx hg), h.1.1]
  rfl

end

/-- Settles O19: CALL, CALLX and RET on the entries of the chip, with STACK_OVERFLOW and STACK_UNDERFLOW. -/
theorem callsAndReturns : Obligations.CallsAndReturns := by
  unfold Obligations.CallsAndReturns
  intro g d a disp ok fits full push
  have hok {sk : Skein} {t : Int} : ok sk t → targetOk sk.kern t = true := (targetOk_iff _ _).mpr
  refine ⟨fun s sk h hc => ?_, fun s sk h hc => ?_, fun s sk h hc => ?_, fun s sk h hh hc => ?_, fun s sk h hh hc => ?_,
    fun s sk h hh hc => ?_⟩
  · exact State.word_callTo_go h disp (fun j hj x hx hg => hok (hc j hj x hx hg).1) (fun j hj x hx hg => (hc j hj x hx hg).2)
  · have := State.word_callTo_go h (fun x => ((x.rv a.toNat).toNat : Int)) (fun j hj x hx hg => hok (hc j hj x hx hg).1)
      (fun j hj x hx hg => (hc j hj x hx hg).2)
    simp only [ofInt_toNat] at this
    exact this
  · refine State.word_eachStrand_go h g (fun v hv j hj x hx hvx => ?_)
    obtain ⟨r, rest, hr, ht⟩ := hc j (List.mem_of_mem_filter hj) x hx ((State.mem_actors hx).mp hj).2
    rw [if_neg (by simp [hr]), State.popTop_go (hv ▸ hvx) hr (hok ht), hv]
    rfl
  · exact State.word_callTo_full h disp (fun j hj x hx hg => hok (hc j hj x hx hg).1) hh (fun j hj x hx hg => (hc j hj x hx hg).2)
  · exact State.word_callTo_full h (fun x => ((x.rv a.toNat).toNat : Int)) (fun j hj x hx hg => hok (hc j hj x hx hg).1) hh
      (fun j hj x hx hg => (hc j hj x hx hg).2)
  · refine State.word_eachStrand_enter h g hh 0x05 (fun _ => 0) (fun j hj x hx => ?_)
    obtain ⟨hn, hz⟩ := hc j (List.mem_of_mem_filter hj) x hx ((State.mem_actors hx).mp hj).2
    rw [if_neg (by simp [hz]), State.popTop, hn]

end Sys2Proof.Machine
end

section
/-! TRAP, BREAK, and the returns from a handler (R147, R149). -/

namespace Sys2Proof.Machine

/-! ### Returning from a handler (R149, R150) -/

/-- The oldest held group depends on nothing but the members' statuses (R150). -/
theorem Skein.oldestHeld_congr {sk sk' : Skein} {w : Nat} (hm : sk'.members w = sk.members w)
    (hs : ∀ j, (Tab.get sk'.strands j).map (·.status) = (Tab.get sk.strands j).map (·.status)) :
    sk'.oldestHeld w = sk.oldestHeld w := by
  unfold Skein.oldestHeld
  rw [hm]
  congr 1
  funext m i
  have hi := hs i
  cases hx : Tab.get sk.strands i <;> cases hy : Tab.get sk'.strands i <;> simp [hx, hy] at hi ⊢
  rw [hi]

theorem State.releaseHeld_none {s : State} {k w : Nat} {sk : Skein} (hk : s.skein? k = some sk) (hn : sk.oldestHeld w = none) :
    s.releaseHeld k w = s := by
  simp [State.releaseHeld, hk, hn]

/-- Where nothing but strands changed, and no status of theirs, no held group is there that was not. -/
theorem State.OnlyStrands.releaseHeld_none {s t : State} {sk : Skein} (h : s.Issuing sk) (ho : s.OnlyStrands t)
    (hs : ∀ j, (t.strand? s.cur.skein j).map (·.status) = (s.strand? s.cur.skein j).map (·.status))
    (hn : sk.oldestHeld s.cur.weft = none) : t.releaseHeld s.cur.skein s.cur.weft = t := by
  obtain ⟨-, -, -, hsk⟩ := ho
  obtain ⟨sk', hk', hsk'⟩ := hsk sk h.1
  refine State.releaseHeld_none hk' ((Skein.oldestHeld_congr (by rw [hsk']; rfl) (fun j => ?_)).trans hn)
  rw [← h.strand?, ← hs, State.strand?, hk']
  rfl

/-- A strand that returns to a PC (R149). -/
def Strand.returnsTo (x : Strand) (pc : Word) : Strand := { x with active := false, pc := pc }

/-- The target of a strand among those that return. -/
def returnTarget (rs : List (Nat × Nat)) (i : Nat) (x : Strand) : Word :=
  BitVec.ofNat 32 (match rs.find? (fun r => r.1 == i) with
    | some r => r.2
    | none => x.pc.toNat)

/-- Strands whose targets R40 accepts go there; then a held group enters, where there is one. -/
theorem State.trapReturn_eq {s : State} {k : Nat} {sk : Skein} (hk : s.skein? k = some sk) (w : Nat) {rs : List (Nat × Nat)}
    (hok : ∀ r ∈ rs, pcOk sk.kern r.2 = true) :
    s.trapReturn k w rs =
      (s.modStrands k (rs.map Prod.fst) (fun i x => x.returnsTo (returnTarget rs i x))).releaseHeld k w := by
  have hfind : rs.find? (fun r => !pcOk sk.kern r.2) = none := List.find?_eq_none.mpr (fun r hr => by simp [hok r hr])
  simp only [State.trapReturn, hk, hfind]
  rfl

/-- The strands that return, with their targets. -/
def State.returnsOf (s : State) (g : BitVec 3) (dest : Strand → Word) : List (Nat × Nat) :=
  (s.issueSet.filter (fun e => (s.acting g).contains e.1)).map (fun e => (e.1, (dest e.2).toNat))

section
variable {s : State} {sk : Skein} (h : s.Issuing sk) (g : BitVec 3) (dest : Strand → Word)

theorem State.mem_returnsOf (r : Nat × Nat) : r ∈ s.returnsOf g dest ↔
    r.1 ∈ s.cur.strands ∧ ∃ x, s.strand? s.cur.skein r.1 = some x ∧ x.rpr g.toNat = true ∧ r.2 = (dest x).toNat := by
  simp only [State.returnsOf, List.mem_map, List.mem_filter, Prod.exists, State.mem_issueSet, List.contains_iff_mem,
    State.mem_acting]
  constructor
  · rintro ⟨i, x, ⟨⟨hi, hx⟩, -, y, hy, hg⟩, rfl⟩
    obtain rfl := Option.some.inj (hx.symm.trans hy)
    exact ⟨hi, x, hx, hg, rfl⟩
  · rintro ⟨hi, x, hx, hg, hr⟩
    exact ⟨r.1, x, ⟨⟨hi, hx⟩, hi, x, hx, hg⟩, Prod.ext rfl hr.symm⟩

/-- They are the strands that act. -/
theorem State.mem_returnsOf_keys (j : Nat) : j ∈ (s.returnsOf g dest).map Prod.fst ↔ j ∈ s.acting g := by
  simp only [List.mem_map, State.mem_returnsOf, State.mem_acting]
  constructor
  · rintro ⟨r, ⟨hj, x, hx, hg, -⟩, rfl⟩
    exact ⟨hj, x, hx, hg⟩
  · rintro ⟨hj, x, hx, hg⟩
    exact ⟨(j, (dest x).toNat), ⟨hj, x, hx, hg, rfl⟩, rfl⟩

include h in
theorem State.returnsOf_nodup : ((s.returnsOf g dest).map Prod.fst).Nodup := by
  have hk := State.laneOuts_keys h (fun _ x => .ok x)
  rw [State.laneOuts, List.map_map] at hk
  rw [State.returnsOf, List.map_map]
  exact hk.sublist (List.filter_sublist.map _)

theorem State.returnTarget_returnsOf {j : Nat} {x : Strand} (hx : s.strand? s.cur.skein j = some x) (hj : j ∈ s.acting g) :
    returnTarget (s.returnsOf g dest) j x = dest x := by
  obtain ⟨hjs, y, hy, hg⟩ := (s.mem_acting g j).mp hj
  unfold returnTarget
  cases hf : (s.returnsOf g dest).find? (fun r => r.1 == j) with
  | none =>
    exact absurd (beq_self_eq_true j)
      (List.find?_eq_none.mp hf (j, (dest y).toNat) ((State.mem_returnsOf g dest _).mpr ⟨hjs, y, hy, hg, rfl⟩))
  | some r =>
    obtain ⟨-, z, hz, -, hr⟩ := (State.mem_returnsOf g dest r).mp (List.mem_of_find?_eq_some hf)
    have hrj : r.1 = j := by simpa using List.find?_some hf
    rw [hrj] at hz
    obtain rfl := Option.some.inj (hx.symm.trans hz)
    simp only [hr, BitVec.ofNat_toNat, BitVec.setWidth_eq]

include h in
/-- The strands that act are at their targets, the others have gone on. -/
theorem State.strandsDone_returnsOf : s.StrandsDone ((s.othersGone g).modStrands s.cur.skein
    ((s.returnsOf g dest).map Prod.fst) (fun i x => x.returnsTo (returnTarget (s.returnsOf g dest) i x))) g.toNat
      (fun _ x => x.returnsTo (dest x)) := by
  intro k j
  simp only [State.strand?_modStrands _ _ (State.returnsOf_nodup h g dest), State.mem_returnsOf_keys, State.strand?_othersGone h]
  by_cases hk : k = s.cur.skein ∧ j ∈ s.cur.strands
  · obtain ⟨rfl, hj⟩ := hk
    obtain ⟨x, hx⟩ := h.exists_strand hj
    by_cases hg : x.rpr g.toNat = true
    · have hja : j ∈ s.acting g := (s.mem_acting g j).mpr ⟨hj, x, hx, hg⟩
      simp [hja, hj, hx, hg, State.returnTarget_returnsOf g dest hx hja]
    · simp [State.mem_acting, hj, hx, hg]
  · rw [if_neg hk, if_neg hk, if_neg (fun hc => hk ⟨hc.1, ((s.mem_acting g j).mp hc.2).1⟩)]

include h in
/-- Strands that act return to their targets, which R40 accepts, and the others go on; no group of the weft is held. -/
theorem State.othersGone_trapReturn (hn : sk.oldestHeld s.cur.weft = none)
    (hok : ∀ j ∈ s.cur.strands, ∀ x, s.strand? s.cur.skein j = some x → x.rpr g.toNat = true →
      pcOk sk.kern (dest x).toNat = true) :
    s.StrandsDone ((s.othersGone g).trapReturn s.cur.skein s.cur.weft (s.returnsOf g dest)) g.toNat
      (fun _ x => x.returnsTo (dest x)) ∧
    s.OnlyStrands ((s.othersGone g).trapReturn s.cur.skein s.cur.weft (s.returnsOf g dest)) := by
  obtain ⟨-, -, -, hsk⟩ := s.othersGone_only g
  obtain ⟨sk', hk', hsk'⟩ := hsk sk h.1
  have hkern : sk'.kern = sk.kern := by rw [hsk']
  have hok' : ∀ r ∈ s.returnsOf g dest, pcOk sk'.kern r.2 = true := fun r hr => by
    obtain ⟨hj, x, hx, hg, hr⟩ := (State.mem_returnsOf g dest r).mp hr
    rw [hr, hkern]
    exact hok r.1 hj x hx hg
  have ho := (s.othersGone_only g).trans ((s.othersGone g).onlyStrands_modStrands
    ((s.returnsOf g dest).map Prod.fst) (fun i x => x.returnsTo (returnTarget (s.returnsOf g dest) i x)))
  rw [State.othersGone_cur] at ho
  have hdone := State.strandsDone_returnsOf h g dest
  rw [State.trapReturn_eq hk' _ hok', State.OnlyStrands.releaseHeld_none h ho (fun j => ?_) hn]
  · exact ⟨hdone, ho⟩
  · refine (congrArg _ (hdone s.cur.skein j)).trans ?_
    split_ifs
    · rw [Option.map_map]
      refine congrArg (Option.map · _) (funext fun x => ?_)
      by_cases hg : x.rpr g.toNat = true <;> simp [hg, Strand.returnsTo, Strand.advance]
    · rfl

end

/-- A word that can run, and whose body issues and changes nothing but strands. -/
theorem State.word_strandsDone {s : State} {sk : Skein} {i : Instr} (h : s.CanRun sk i) {body : Skein → State → Attempt}
    {t : State} (hb : body sk s = (true, t)) {g : Nat} {m : Nat → Strand → Strand} (hs : s.StrandsDone t g m)
    (ho : s.OnlyStrands t) : goesTo (s.word i body) (fun t => s.StrandsDone t g m ∧ s.OnlyStrands t) := by
  refine ⟨_, State.word_canRun h _, ?_⟩
  rw [hb, if_pos rfl, State.reportDenied_nil (ho.cur ▸ h.1.2.1)]
  exact ⟨fun k j => (State.strand?_count ..).trans (hs k j), ho.trans (ho.cur ▸ State.onlyStrands_count _ 0 1)⟩

/-- Settles O20: TRAP and BREAK enter strand by strand; TRET and TRETR leave the handler, with no group held. -/
theorem softwareTraps : Obligations.SoftwareTraps := by
  unfold Obligations.SoftwareTraps
  intro g n
  refine ⟨fun s sk h hh _ => ?_, fun s sk h hh _ => ?_, fun s sk hn => ?_⟩
  · exact State.word_eachStrand_enter h g hh 0x30 (fun _ => n.setWidth 32) (fun _ _ _ _ => rfl)
  · exact State.word_eachStrand_enter h g hh 0x31 (fun _ => 0) (fun _ _ _ _ => rfl)
  · intro past returns
    refine ⟨fun h hok => ?_, fun h hok => ?_⟩
    · obtain ⟨hs, ho⟩ := State.othersGone_trapReturn h.1 g (fun x => x.tpc) hn hok
      exact State.word_strandsDone h rfl hs ho
    · obtain ⟨hs, ho⟩ := State.othersGone_trapReturn h.1 g past hn hok
      exact State.word_strandsDone h rfl hs ho

end Sys2Proof.Machine
end

section
/-! SPLIT and JOIN, and the records at which strands rejoin (R138 to R140). -/

namespace Sys2Proof.Machine

/-! ### Registers that are kept -/

/-- The registers of a strand, with its return stack. -/
def Strand.registers (x : Strand) :=
  (x.v, x.p, x.n, x.fpflags, x.fpmode, x.fptrapen, x.trapvec, x.tpc, x.tcause, x.tval, x.active, x.onChip, x.spilled, x.bad)

theorem State.registersKept_iff (s t : State) : s.RegistersKept t ↔
    ∀ k i x, s.strand? k i = some x → ∃ y, t.strand? k i = some y ∧ y.registers = x.registers := by
  simp only [State.RegistersKept, Strand.registers, Prod.mk.injEq]

theorem State.registersKept_of_strand? {s t : State} (h : ∀ k j, t.strand? k j = s.strand? k j) : s.RegistersKept t :=
  (s.registersKept_iff t).mpr fun k j x hx => ⟨x, (h k j).trans hx, rfl⟩

theorem State.RegistersKept.trans {s t u : State} (h : s.RegistersKept t) (h' : t.RegistersKept u) : s.RegistersKept u := by
  rw [State.registersKept_iff] at h h' ⊢
  intro k j x hx
  obtain ⟨y, hy, hxy⟩ := h k j x hx
  obtain ⟨z, hz, hyz⟩ := h' k j y hy
  exact ⟨z, hz, hyz.trans hxy⟩

theorem Strand.registers_foldl_upd {f : Nat → Strand → Strand} (hf : ∀ i x, (f i x).registers = x.registers) (is : List Nat)
    (t : Tab Strand) (j : Nat) : (Tab.get (is.foldl (fun t i => Tab.upd t i (f i)) t) j).map Strand.registers =
      (Tab.get t j).map Strand.registers := by
  induction is generalizing t with
  | nil => rfl
  | cons i l ih =>
    rw [List.foldl_cons, ih, Tab.get_upd]
    split_ifs with hj
    · subst hj
      rw [Option.map_map]
      exact congrArg (Option.map · _) (funext (hf j))
    · rfl

/-- A change of strands that keeps the registers of each. -/
theorem State.registersKept_modStrands (s : State) (k : Nat) (is : List Nat) {f : Nat → Strand → Strand}
    (hf : ∀ i x, (f i x).registers = x.registers) : s.RegistersKept (s.modStrands k is f) := by
  rw [State.registersKept_iff]
  intro a j x hx
  obtain ⟨sk, hk, hj⟩ := Option.bind_eq_some_iff.mp hx
  rw [State.modStrands, State.strand?_modSkein]
  split_ifs
  · have hmap := Strand.registers_foldl_upd hf is sk.strands j
    rw [hj] at hmap
    obtain ⟨y, hy, hr⟩ := Option.map_eq_some_iff.mp hmap
    exact ⟨y, by rw [hk]; exact hy, hr⟩
  · exact ⟨x, hx, rfl⟩

theorem State.registersKept_modWeft (s : State) (k w : Nat) (f : Weft → Weft) : s.RegistersKept (s.modWeft k w f) :=
  State.registersKept_of_strand? (fun a j => s.strand?_modWeft k w a j f)

/-! ### Releasing a record (R140) -/

/-- A strand after the release of the record of a target. -/
def Strand.releasedFrom (target : Word) (x : Strand) : Strand := if x.status = .joinwait target then x.resumed else x

theorem Strand.registers_releasedFrom (target : Word) (x : Strand) : (x.releasedFrom target).registers = x.registers := by
  unfold Strand.releasedFrom
  split_ifs <;> rfl

section
variable {s : State} {sk : Skein} {k : Nat} (hk : s.skein? k = some sk) (w : Nat) (target : Word)
include hk

theorem State.releaseRecord_eq : s.releaseRecord k w target =
    (s.modStrands k (sk.members w) (fun _ => Strand.releasedFrom target)).modWeft k w (fun x =>
      { x with records := x.records.filter (fun r => r.target != target) }) := by
  rw [State.releaseRecord, hk]
  rfl

theorem State.strand?_releaseRecord (a j : Nat) : (s.releaseRecord k w target).strand? a j =
    if a = k ∧ j ∈ sk.members w then (s.strand? a j).map (Strand.releasedFrom target) else s.strand? a j := by
  rw [State.releaseRecord_eq hk, State.strand?_modWeft, State.strand?_modStrands _ _ (sk.members_nodup w)]

theorem State.weft?_releaseRecord : (s.releaseRecord k w target).weft? k w =
    (s.weft? k w).map (fun x => { x with records := x.records.filter (fun r => r.target != target) }) := by
  rw [State.releaseRecord_eq hk, State.weft?_modWeft, if_pos ⟨rfl, rfl⟩, State.weft?_modStrands]

theorem State.registersKept_releaseRecord : s.RegistersKept (s.releaseRecord k w target) := by
  rw [State.releaseRecord_eq hk]
  exact (s.registersKept_modStrands k (sk.members w) (fun _ x => x.registers_releasedFrom target)).trans
    (State.registersKept_modWeft _ k w _)

end

/-- A weft of one record settles by that record alone. -/
theorem State.settleRecords_single {s : State} {k w : Nat} {wf : Weft} {r : Rejoin} (hw : s.weft? k w = some wf)
    (hr : wf.records = [r]) :
    s.settleRecords k w = if r.expected.all (fun i => r.arrived.contains i) then s.releaseRecord k w r.target else s := by
  simp only [State.settleRecords, hw, hr, List.foldl_cons, List.foldl_nil]

/-! ### SPLIT (R138) -/

/-- The records of a weft after a SPLIT to a target by the strands `act`. -/
def splitRecords (target : Word) (act : List Nat) (recs rs : List Rejoin) : List Rejoin :=
  if recs.any (fun r => r.target == target) then
    rs.map (fun r => if r.target = target then { r with expected := (r.expected ++ act).dedup } else r)
  else if (!(recs.any (fun r => r.target == target)) && decide (8 ≤ recs.length)) = true ∨ act = [] then rs
  else rs ++ [{ target := target, expected := act, arrived := [], deadline := none }]

section
variable (target : Word) (act : List Nat) (rs : List Rejoin)

theorem records_any_target : rs.any (fun r => r.target == target) = true ↔ rs.filter (fun r => r.target = target) ≠ [] := by
  rw [ne_eq, List.filter_eq_nil_iff]
  simp

/-- A record of the target expects the strands that act too. -/
theorem splitRecords_hit (h : rs.filter (fun r => r.target = target) ≠ []) : splitRecords target act rs rs =
    rs.map (fun r => if r.target = target then { r with expected := (r.expected ++ act).dedup } else r) :=
  if_pos ((records_any_target target rs).mpr h)

theorem splitRecords_miss (h : rs.filter (fun r => r.target = target) = []) : splitRecords target act rs rs =
    if 8 ≤ rs.length ∨ act = [] then rs else rs ++ [{ target := target, expected := act, arrived := [], deadline := none }] := by
  have hany : rs.any (fun r => r.target == target) = false :=
    Bool.eq_false_iff.mpr fun hc => (records_any_target target rs).mp hc h
  simp [splitRecords, hany]

end

/-- The records of the issue's weft have grown, and PMC 6 holds `n`. -/
def State.splitAt (s : State) (target : Word) (act : List Nat) (recs : List Rejoin) (n : Nat) : State :=
  (s.modWeft s.cur.skein s.cur.weft (fun x => { x with records := splitRecords target act recs x.records })).modSkein s.cur.skein
    (fun sk => { sk with pmc := Cells.set 0 sk.pmc 6 n })

/-- Where a change left every strand, those of the issue set go on. -/
theorem State.Issuing.strandsDone_passBy {s u : State} {sk : Skein} (h : s.Issuing sk) (hc : u.cur = s.cur)
    (hs : ∀ k j, u.strand? k j = s.strand? k j) : s.StrandsDone u.passBy 7 (fun _ x => x.advance) := by
  intro k j
  rw [State.passBy, hc, State.strand?_modStrands _ _ h.nodup, hs]
  simp only [ite_self]

section
variable (s : State) (target : Word) (act : List Nat) (recs : List Rejoin) (n : Nat)

theorem State.strand?_splitAt (k j : Nat) : (s.splitAt target act recs n).strand? k j = s.strand? k j := by
  rw [State.splitAt, State.strand?_modSkein]
  split_ifs with hk
  · exact s.strand?_modWeft s.cur.skein s.cur.weft k j _
  · exact s.strand?_modWeft s.cur.skein s.cur.weft k j _

theorem State.weft?_splitAt : (s.splitAt target act recs n).weft? s.cur.skein s.cur.weft =
    (s.weft? s.cur.skein s.cur.weft).map (fun x => { x with records := splitRecords target act recs x.records }) := by
  rw [State.splitAt, State.weft?_modSkein _ _ _ _ (by exact fun _ => rfl), State.weft?_modWeft, if_pos ⟨rfl, rfl⟩]

end

/-- SPLIT: the record of its target, and the issue set goes on (R138). -/
theorem exec_split {g : BitVec 3} {d : BitVec 22} {s : State} {sk : Skein} {wf : Weft} (h : s.CanRun sk (.split g d))
    (hw : s.weft? s.cur.skein s.cur.weft = some wf) : ∃ n, exec (.split g d) s = .next
      ((s.splitAt (BitVec.ofInt 32 (branchTarget s.cur.pc d)) (s.acting g) wf.records n).passBy.count s.cur.skein 0 1) := by
  refine ⟨?n, (State.word_of_body (u := (s.splitAt (BitVec.ofInt 32 (branchTarget s.cur.pc d)) (s.acting g) wf.records ?n).passBy)
    h ?body).trans ?denied⟩
  case body =>
    simp only [hw, h.1.1]
    rfl
  case denied => rw [State.reportDenied_nil (by exact h.1.not_denied)]

/-! ### JOIN (R139, R140) -/

/-- A JOIN at which no record waits goes on. -/
theorem exec_join_free {g : BitVec 3} {s : State} {sk : Skein} {wf : Weft} (h : s.CanRun sk (.join g))
    (hw : s.weft? s.cur.skein s.cur.weft = some wf) (hr : ∀ r ∈ wf.records, r.target ≠ s.cur.pc) :
    goesTo (exec (.join g) s) (fun t => s.StrandsDone t 7 (fun _ x => x.advance) ∧ s.OnlyStrands t) := by
  have hfind : wf.records.find? (fun r => r.target == s.cur.pc) = none := List.find?_eq_none.mpr (by simpa using hr)
  refine State.word_strandsDone h (t := s.passBy) ?_ (h.1.strandsDone_passBy rfl (fun _ _ => rfl)) (s.onlyStrands_modStrands _ _)
  simp only [hw, Option.bind_some, hfind]

/-- The record after strands it expects have come to their JOIN, the first of them starting its deadline. -/
def Rejoin.joinedBy (r : Rejoin) (is : List Nat) (deadline : Nat) : Rejoin :=
  { r with arrived := r.arrived ++ is, deadline := if r.arrived = [] ∧ is ≠ [] then some deadline else r.deadline }

/-- A strand that waits for a rejoin. -/
def Strand.joining (target : Word) (x : Strand) : Strand := { x with status := .joinwait target }

/-- The issue set waits at a record of its weft. -/
def State.joined (s : State) (r : Rejoin) (deadline : Nat) : State :=
  (s.modWeft s.cur.skein s.cur.weft (fun x => { x with
    records := x.records.map (fun y => if y.target = r.target then r.joinedBy s.cur.strands deadline else y) })).modStrands
    s.cur.skein s.cur.strands (fun _ => Strand.joining r.target)

section
variable {s : State} {sk : Skein} {g : BitVec 3} {wf : Weft} {r : Rejoin}

theorem State.Issuing.strand?_joined (h : s.Issuing sk) (r : Rejoin) (dl k j : Nat) : (s.joined r dl).strand? k j =
    if k = s.cur.skein ∧ j ∈ s.cur.strands then (s.strand? k j).map (Strand.joining r.target) else s.strand? k j := by
  rw [State.joined, State.strand?_modStrands _ _ h.nodup, State.strand?_modWeft]

theorem State.weft?_joined (hw : s.weft? s.cur.skein s.cur.weft = some wf) (hr : wf.records = [r]) (dl : Nat) :
    (s.joined r dl).weft? s.cur.skein s.cur.weft = some { wf with records := [r.joinedBy s.cur.strands dl] } := by
  rw [State.joined, State.weft?_modStrands, State.weft?_modWeft, if_pos ⟨rfl, rfl⟩, hw, Option.map_some, hr, List.map_singleton,
    if_pos rfl]

theorem State.registersKept_joined (s : State) (r : Rejoin) (dl : Nat) : s.RegistersKept (s.joined r dl) :=
  (s.registersKept_modWeft _ _ _).trans (State.registersKept_modStrands _ _ _ (fun _ _ => rfl))

/-- A JOIN of strands that the weft's record expects, all of which act. -/
theorem exec_join_record (h : s.CanRun sk (.join g)) (hw : s.weft? s.cur.skein s.cur.weft = some wf) (hr : wf.records = [r])
    (ht : r.target = s.cur.pc) (hexp : ∀ i ∈ s.cur.strands, i ∈ s.acting g ∧ i ∈ r.expected) :
    exec (.join g) s = .next (((s.joined r (s.clock + sk.jtimeout)).settleRecords s.cur.skein s.cur.weft).reportDenied.count
      s.cur.skein 0 1) := by
  have hwait : (s.acting g).filter (fun i => r.expected.contains i) = s.cur.strands := by
    rw [← State.actors_eq_acting, State.actors, List.filter_filter]
    exact List.filter_eq_self.mpr (fun i hi => by simp [hexp i hi])
  have hgo : s.cur.strands.filter (fun i => !s.cur.strands.contains i) = [] := by simp
  have hstay : r.expected.filter (fun i => !([] : List Nat).contains i) = r.expected := by simp
  have hfind : [r].find? (fun y => y.target == s.cur.pc) = some r := List.find?_cons_of_pos (beq_iff_eq.mpr ht)
  have hnone (u : State) (hu : u.skein? s.cur.skein ≠ none) (f : Nat → Strand → Strand) : u.modStrands s.cur.skein [] f = u := by
    obtain ⟨x, hx⟩ := Option.ne_none_iff_exists'.mp hu
    exact State.modSkein_self hx rfl
  refine State.word_of_body h ?_
  simp only [hw, Option.bind_some, hr, hfind, hwait, hgo, hstay]
  rw [hnone _ (by simp [State.modWeft, h.1.1])]
  rfl

theorem State.settleRecords_joined (hw : s.weft? s.cur.skein s.cur.weft = some wf) (hr : wf.records = [r]) (dl : Nat) :
    (s.joined r dl).settleRecords s.cur.skein s.cur.weft =
      if ∀ i ∈ r.expected, i ∈ r.arrived ∨ i ∈ s.cur.strands then (s.joined r dl).releaseRecord s.cur.skein s.cur.weft r.target
      else s.joined r dl := by
  rw [State.settleRecords_single (State.weft?_joined hw hr dl) rfl]
  exact if_congr (by simp [Rejoin.joinedBy]) rfl rfl

theorem State.Issuing.skein?_joined (h : s.Issuing sk) (r : Rejoin) (dl : Nat) :
    ∃ sk', (s.joined r dl).skein? s.cur.skein = some sk' ∧ sk'.members s.cur.weft = sk.members s.cur.weft := by
  have hk : (s.joined r dl).skein? s.cur.skein = some { sk with
      strands := s.cur.strands.foldl (fun t i => Tab.upd t i (Strand.joining r.target)) sk.strands
      wefts := Tab.upd sk.wefts s.cur.weft (fun x => { x with
        records := x.records.map (fun y => if y.target = r.target then r.joinedBy s.cur.strands dl else y) }) } := by
    rw [State.joined, State.modStrands, State.skein?_modSkein, State.modWeft, State.skein?_modSkein, if_pos rfl, if_pos rfl, h.1]
    rfl
  refine ⟨_, hk, ?_⟩
  exact sk.members_upd s.cur.weft s.cur.weft (f := fun x => { x with
    records := x.records.map (fun y => if y.target = r.target then r.joinedBy s.cur.strands dl else y) }) (fun _ => rfl)

/-- A strand that the record expected, once the last of them has come: READY past its JOIN. -/
theorem State.strand?_joined_released (h : s.Issuing sk) (dl : Nat)
    (harr : ∀ i, i ∈ r.arrived ↔ ∃ x, s.strand? s.cur.skein i = some x ∧ x.status = .joinwait r.target) {i : Nat}
    (hm : i ∈ sk.members s.cur.weft) (hi : i ∈ r.arrived ∨ i ∈ s.cur.strands) :
    ((s.joined r dl).releaseRecord s.cur.skein s.cur.weft r.target).strand? s.cur.skein i =
      (s.strand? s.cur.skein i).map Strand.resumed := by
  obtain ⟨sk', hk, hmem⟩ := h.skein?_joined r dl
  rw [State.strand?_releaseRecord hk, if_pos ⟨rfl, hmem ▸ hm⟩, h.strand?_joined]
  by_cases hc : i ∈ s.cur.strands
  · obtain ⟨x, hx⟩ := h.exists_strand hc
    rw [if_pos ⟨rfl, hc⟩, hx, Option.map_some, Option.map_some, Option.map_some, Strand.releasedFrom, if_pos (by exact rfl)]
    rfl
  · obtain ⟨x, hx, hs⟩ := (harr i).mp (hi.resolve_right hc)
    rw [if_neg (fun hc' => hc hc'.2), hx, Option.map_some, Option.map_some, Strand.releasedFrom, if_pos hs]

/-- The last strands that a record expects come to their JOIN: all of them go on, and the record is free. -/
theorem exec_join_last (h : s.CanRun sk (.join g)) (hw : s.weft? s.cur.skein s.cur.weft = some wf) (hr : wf.records = [r])
    (ht : r.target = s.cur.pc) (hexp : ∀ i ∈ s.cur.strands, i ∈ s.acting g ∧ i ∈ r.expected)
    (harr : ∀ i, i ∈ r.arrived ↔ ∃ x, s.strand? s.cur.skein i = some x ∧ x.status = .joinwait r.target)
    (hmem : ∀ i ∈ r.expected, i ∈ sk.members s.cur.weft) (hall : ∀ i ∈ r.expected, i ∈ r.arrived ∨ i ∈ s.cur.strands) :
    goesTo (exec (.join g) s) (fun t => t.homes = s.homes ∧ s.RegistersKept t ∧
      (∀ i ∈ r.expected, t.strand? s.cur.skein i = (s.strand? s.cur.skein i).map Strand.resumed) ∧
      ∃ wf', t.weft? s.cur.skein s.cur.weft = some wf' ∧ wf'.records = []) := by
  obtain ⟨sk', hk, -⟩ := h.1.skein?_joined r (s.clock + sk.jtimeout)
  have hrel := State.releaseRecord_eq hk s.cur.weft r.target
  have hexec := exec_join_record h hw hr ht hexp
  rw [State.settleRecords_joined hw hr, if_pos hall, State.reportDenied_nil (by rw [hrel]; exact h.1.not_denied)] at hexec
  refine ⟨_, hexec, by rw [hrel]; rfl, ?_, fun i hi => ?_, ?_⟩
  · exact ((s.registersKept_joined r _).trans (State.registersKept_releaseRecord hk _ _)).trans
      (State.registersKept_of_strand? (fun _ _ => State.strand?_count ..))
  · exact (State.strand?_count ..).trans (State.strand?_joined_released h.1 _ harr (hmem i hi) (hall i hi))
  · rw [State.weft?_count, State.weft?_releaseRecord hk, State.weft?_joined hw hr]
    exact ⟨_, rfl, by simp [Rejoin.joinedBy]⟩

/-- Strands come to their JOIN before the last that its record expects: they wait there. -/
theorem exec_join_early (h : s.CanRun sk (.join g)) (hw : s.weft? s.cur.skein s.cur.weft = some wf) (hr : wf.records = [r])
    (ht : r.target = s.cur.pc) (hexp : ∀ i ∈ s.cur.strands, i ∈ s.acting g ∧ i ∈ r.expected)
    (hall : ¬ ∀ i ∈ r.expected, i ∈ r.arrived ∨ i ∈ s.cur.strands) :
    goesTo (exec (.join g) s) (fun t => t.homes = s.homes ∧ s.RegistersKept t ∧
      (∀ i ∈ s.cur.strands, t.strand? s.cur.skein i = (s.strand? s.cur.skein i).map (Strand.joining r.target)) ∧
      t.weft? s.cur.skein s.cur.weft = some { wf with records := [r.joinedBy s.cur.strands (s.clock + sk.jtimeout)] }) := by
  have hexec := exec_join_record h hw hr ht hexp
  rw [State.settleRecords_joined hw hr, if_neg hall, State.reportDenied_nil (by exact h.1.not_denied)] at hexec
  refine ⟨_, hexec, rfl, (s.registersKept_joined r _).trans
    (State.registersKept_of_strand? (fun _ _ => State.strand?_count ..)), fun i hi => ?_, ?_⟩
  · rw [State.strand?_count, h.1.strand?_joined, if_pos ⟨rfl, hi⟩]
  · rw [State.weft?_count, State.weft?_joined hw hr]

end

/-- Settles O21: SPLIT opens or widens a record, and JOIN passes, waits at its record or releases it. -/
theorem splitAndJoin : Obligations.SplitAndJoin := by
  unfold Obligations.SplitAndJoin
  intro g d s sk wf hw target own
  refine ⟨fun h => ?_, fun h hr => exec_join_free h hw hr, fun r h hr ht hexp harr hmem _ => ?_⟩
  · obtain ⟨n, hn⟩ := exec_split h hw
    have hdone := h.1.strandsDone_passBy (u := s.splitAt target (s.acting g) wf.records n) rfl (s.strand?_splitAt target _ _ n)
    refine ⟨_, hn, fun k j => (State.strand?_count ..).trans (hdone k j), rfl,
      { wf with records := splitRecords target (s.acting g) wf.records wf.records }, ?_, fun ho ha hl => ?_, fun ho hf => ?_,
      fun ho => ?_⟩
    · rw [State.weft?_count, State.passBy, State.weft?_modStrands]
      exact (s.weft?_splitAt target _ _ n).trans (by rw [hw]; rfl)
    · exact (splitRecords_miss target _ _ ho).trans (if_neg (by simp [ha, hl]))
    · exact (splitRecords_miss target _ _ ho).trans (if_pos hf.symm)
    · exact splitRecords_hit target _ _ ho
  · by_cases hall : ∀ i ∈ r.expected, i ∈ r.arrived ∨ i ∈ s.cur.strands
    · obtain ⟨t, ht, ho, hk, hs, hwt⟩ := exec_join_last h hw hr ht hexp harr hmem hall
      exact ⟨t, ht, ho, hk, by rw [if_pos hall]; exact ⟨hs, hwt⟩⟩
    · obtain ⟨t, ht, ho, hk, hs, hwt⟩ := exec_join_early h hw hr ht hexp hall
      exact ⟨t, ht, ho, hk, by rw [if_neg hall]; exact ⟨hs, _, _, hwt, rfl, rfl, rfl, rfl⟩⟩

end Sys2Proof.Machine
end

section
/-! WAITT, YIELD and EXIT (R143 to R145). -/

namespace Sys2Proof.Machine

/-! ### WAITT (R144) -/

/-- Two ways to act in one strand that agree in every state that either is to meet. -/
theorem State.foldl_actStep_congr {k : Nat} {f f' : State → Nat → Strand → State × Option TrapReq} {P : State → Prop}
    (hf : ∀ v i x, P v → f v i x = f' v i x) (hP : ∀ v i x, P v → P (f' v i x).1) (l : List Nat) {u : State} (hu : P u)
    (ts : List TrapReq) : l.foldl (State.actStep k f) (u, ts) = l.foldl (State.actStep k f') (u, ts) := by
  induction l generalizing u ts with
  | nil => rfl
  | cons i l ih =>
    rw [List.foldl_cons, List.foldl_cons]
    cases hx : u.strand? k i with
    | none => simp only [State.actStep, hx]; exact ih hu ts
    | some x =>
      rw [State.actStep_eq hx, State.actStep_eq hx, hf u i x hu]
      exact ih (hP u i x hu) _

theorem State.eachStrand_congr {s : State} {g : BitVec 3} {f f' : State → Nat → Strand → State × Option TrapReq}
    {P : State → Prop} (hs : P (s.othersGone g)) (hf : ∀ v i x, P v → f v i x = f' v i x)
    (hP : ∀ v i x, P v → P (f' v i x).1) : s.eachStrand (s.acting g) f = s.eachStrand (s.acting g) f' := by
  have hfold := State.foldl_actStep_congr (k := s.cur.skein) hf hP (s.actors g) hs []
  exact (State.eachStrand_eq s g f (hfold.trans Prod.mk.eta.symm)).trans (State.eachStrand_eq s g f' Prod.mk.eta.symm).symm

/-- A strand that sleeps for some cc from a time, or goes on where there are none (R144). -/
def Strand.sleptFor (n clock : Nat) (x : Strand) : Strand :=
  if n = 0 then x.advance else { x.advance with status := .sleeping (clock + n) }

theorem State.eachStrand_waitt (s : State) (g : BitVec 3) (a : VReg) :
    s.eachStrand (s.acting g) (fun u i x => (u.modStrand u.cur.skein i (Strand.sleptFor (x.rv a.toNat).toNat u.clock), none)) =
    s.eachStrand (s.acting g) (fun u i x => (u.modStrand s.cur.skein i (Strand.sleptFor (x.rv a.toNat).toNat s.clock), none)) :=
  State.eachStrand_congr (P := fun v => v.cur = s.cur ∧ v.clock = s.clock) ⟨rfl, rfl⟩ (fun v i x hv => by rw [hv.1, hv.2])
    (fun _ _ _ hv => hv)

theorem runsWhere_waitt (g : BitVec 3) (a : VReg) : RunsWhere (.waitt g a) g (fun _ _ _ => True) (fun s _ _ x =>
    if x.rv a.toNat = 0 then x.advance else { x.advance with status := .sleeping (s.clock + (x.rv a.toNat).toNat) }) := by
  intro s sk h _
  obtain ⟨hs, ho⟩ := State.eachStrand_go h.1 g (m := fun _ x => if x.rv a.toNat = 0 then x.advance
      else { x.advance with status := .sleeping (s.clock + (x.rv a.toNat).toNat) })
    (fun v hv j hj x hx hvx => congrArg (·, none) (State.modStrand_congr hvx
      (f := Strand.sleptFor (x.rv a.toNat).toNat s.clock) (if_congr (BitVec.toNat_eq (y := 0#32)).symm rfl rfl)))
  exact State.word_strandsDone h (congrArg (true, ·) (s.eachStrand_waitt g a)) hs ho

/-! ### YIELD (R145) -/

theorem Cells.get_foldl_set_const {α : Type} [DecidableEq α] (d v : α) (is : List Nat) (m : Cells α) (a : Nat) :
    Cells.get d (is.foldl (fun m i => Cells.set d m i v) m) a = if a ∈ is then v else Cells.get d m a := by
  induction is generalizing m with
  | nil => simp
  | cons i l ih =>
    rw [List.foldl_cons, ih, Cells.get_set]
    by_cases ha : a = i <;> simp [ha]

/-- Whether a weft has a READY strand depends on its members and their statuses. -/
theorem Skein.hasReady_congr {sk sk' : Skein} {w : Nat} (hm : sk'.members w = sk.members w)
    (hs : ∀ j, (Tab.get sk'.strands j).map (·.status) = (Tab.get sk.strands j).map (·.status)) :
    sk'.hasReady w = sk.hasReady w := by
  have hempty (y z : Skein) (hyz : z.members w = y.members w)
      (hs : ∀ j, (Tab.get z.strands j).map (·.status) = (Tab.get y.strands j).map (·.status)) (hy : y.readyOf w = []) :
      z.readyOf w = [] := by
    refine List.eq_nil_iff_forall_not_mem.mpr fun e he => ?_
    obtain ⟨hi, x, hx, hr, -⟩ := Skein.mem_readyOf.mp he
    have hj := hs e.1
    rw [hx] at hj
    obtain ⟨x', hx', hr'⟩ := Option.map_eq_some_iff.mp hj.symm
    have : (e.1, x'.pc) ∈ y.readyOf w := Skein.mem_readyOf.mpr ⟨hyz ▸ hi, x', hx', hr'.trans hr, rfl⟩
    rw [hy] at this
    cases this
  have hiff : sk'.readyOf w = [] ↔ sk.readyOf w = [] :=
    ⟨hempty sk' sk hm.symm (fun j => (hs j).symm), hempty sk sk' hm hs⟩
  exact congrArg (!·) (Bool.eq_iff_iff.mpr (by rw [List.isEmpty_iff, List.isEmpty_iff]; exact hiff))

theorem State.mem_resident {s : State} {c : Nat} {e : Nat × Nat × Weft} : e ∈ s.resident c ↔
    ∃ sk, (e.1, some sk) ∈ s.skeins ∧ sk.core = some c ∧ (e.2.1, some e.2.2) ∈ sk.wefts := by
  obtain ⟨k, w, wf⟩ := e
  simp only [State.resident, List.mem_flatMap, Prod.exists, Tab.mem_list]
  constructor
  · rintro ⟨j, sk, hsk, he⟩
    split_ifs at he with hc
    · obtain ⟨⟨a, b⟩, hab, heq⟩ := List.mem_map.mp he
      cases heq
      exact ⟨sk, hsk, hc, Tab.mem_list.mp hab⟩
    · cases he
  · rintro ⟨sk, hsk, hc, hw⟩
    exact ⟨k, sk, hsk, by rw [if_pos hc]; exact List.mem_map.mpr ⟨(w, wf), Tab.mem_list.mpr hw, rfl⟩⟩

/-- A change of the skein `k`, in which no weft came to have a READY strand and only the weft `w` changed, makes no other
weft ready. -/
theorem State.othersReady_modSkein {s : State} {k w c : Nat} {sk : Skein} {f : Skein → Skein} (hk : s.skein? k = some sk)
    (hcore : (f sk).core = sk.core) (hready : ∀ a, (f sk).hasReady a = sk.hasReady a)
    (hw : ∀ e ∈ (f sk).wefts, e.1 ≠ w → e ∈ sk.wefts) (h : s.othersReady c k w false = false) :
    (s.modSkein k f).othersReady c k w false = false := by
  have hhas (a b : Nat) : (s.modSkein k f).hasReady a b = s.hasReady a b := by
    simp only [State.hasReady, State.skein?_modSkein]
    split_ifs with ha
    · rw [ha, hk]
      exact hready b
    · rfl
  simp only [State.othersReady, List.any_eq_false, Bool.not_false, Bool.true_or, Bool.and_true, hhas] at h ⊢
  intro e he hc
  obtain ⟨x, hx, hxc, hxw⟩ := State.mem_resident.mp he
  suffices ∃ y, (e.1, some y) ∈ s.skeins ∧ y.core = some c ∧ (e.2.1, some e.2.2) ∈ y.wefts from
    h e (State.mem_resident.mpr this) hc
  rw [State.modSkein_skeins, Tab.upd, ← State.skein?, hk] at hx
  rcases Cells.mem_set hx with hx | hx
  · exact ⟨x, hx, hxc, hxw⟩
  · obtain ⟨hek, hxs⟩ := Prod.mk.inj hx
    cases hxs
    have hne : e.2.1 ≠ w := fun hw => by simp [hek, hw] at hc
    exact ⟨sk, hek ▸ Tab.mem_of_get hk, hcore ▸ hxc, hw _ hxw hne⟩

/-- A YIELD puts its strands behind for 16 cc (R145). -/
def Weft.yieldedBy (is : List Nat) (deadline : Nat) (x : Weft) : Weft :=
  { x with yielded := is.foldl (fun m i => Cells.set 0 m i deadline) x.yielded }

section
variable {s : State} {sk : Skein}

theorem State.yield_eq (s : State) : s.passBy.modWeft s.cur.skein s.cur.weft (Weft.yieldedBy s.cur.strands (s.clock + 16)) =
    s.modSkein s.cur.skein (fun sk => { sk.goneOn s.cur.strands with
      wefts := Tab.upd sk.wefts s.cur.weft (Weft.yieldedBy s.cur.strands (s.clock + 16)) }) :=
  s.modSkein_modSkein _ _ _

theorem State.Issuing.map_status_goneOn (h : s.Issuing sk) (j : Nat) :
    (Tab.get (sk.goneOn s.cur.strands).strands j).map (·.status) = (Tab.get sk.strands j).map (·.status) := by
  rw [Skein.goneOn, Tab.get_foldl_upd (fun _ => Strand.advance) h.nodup]
  split_ifs
  · cases Tab.get sk.strands j <;> rfl
  · rfl

/-- Strands that go on make no other weft ready. -/
theorem State.Issuing.othersReady_yield (h : s.Issuing sk) {c : Nat}
    (ho : s.othersReady c s.cur.skein s.cur.weft false = false) :
    (s.passBy.modWeft s.cur.skein s.cur.weft (Weft.yieldedBy s.cur.strands (s.clock + 16))).othersReady c s.cur.skein s.cur.weft
      false = false := by
  rw [State.yield_eq]
  refine State.othersReady_modSkein h.1 rfl (fun a => ?_) (fun e he hw => ?_) ho
  · exact Skein.hasReady_congr (sk.members_upd s.cur.weft a (fun _ => rfl)) h.map_status_goneOn
  · rw [Tab.upd] at he
    split at he
    · exact (Cells.mem_set he).resolve_right (fun hc => hw (congrArg Prod.fst hc))
    · exact he

theorem exec_yield {g : BitVec 3} (h : s.CanRun sk (.yield g))
    (ho : s.othersReady (sk.core.getD 0) s.cur.skein s.cur.weft false = false) :
    goesTo (exec (.yield g) s) (fun t => s.StrandsDone t 7 (fun _ x => x.advance) ∧ t.homes = s.homes ∧
      (s.acting g ≠ [] → ∀ wf, t.weft? s.cur.skein s.cur.weft = some wf →
        ∀ i ∈ s.cur.strands, Cells.get 0 wf.yielded i = s.clock + 16)) := by
  have hdone := h.1.strandsDone_passBy (u := s) rfl (fun _ _ => rfl)
  by_cases hact : s.acting g = []
  · refine ⟨_, State.word_of_body (u := s.passBy) h (if_pos hact), ?_⟩
    rw [State.reportDenied_nil (by exact h.1.not_denied)]
    exact ⟨fun k j => (State.strand?_count ..).trans (hdone k j), rfl, fun hc => absurd hact hc⟩
  · refine ⟨_, State.word_of_body (u := s.passBy.modWeft s.cur.skein s.cur.weft (Weft.yieldedBy s.cur.strands (s.clock + 16))) h
      ((if_neg hact).trans ?_), ?_⟩
    · exact congrArg (true, ·) (if_neg (by rw [Bool.not_eq_true]; exact h.1.othersReady_yield ho))
    · rw [State.reportDenied_nil (by exact h.1.not_denied)]
      refine ⟨fun k j => (State.strand?_count ..).trans ((State.strand?_modWeft ..).trans (hdone k j)), rfl, fun _ wf hwf i hi => ?_⟩
      rw [State.weft?_count, State.weft?_modWeft, if_pos ⟨rfl, rfl⟩] at hwf
      obtain ⟨x, -, rfl⟩ := Option.map_eq_some_iff.mp hwf
      exact (Cells.get_foldl_set_const 0 _ _ _ i).trans (if_pos hi)

end

/-! ### EXIT (R143) -/

/-- Nobody of a skein waits for another, and no barrier of it or of its bolt is pending: what an end of strands may
complete is not there. -/
structure State.NobodyWaits (s : State) (k w : Nat) (sk : Skein) : Prop where
  skein : s.skein? k = some sk
  bars : sk.bars = []
  boltBars : ∀ b, s.bolt? sk.bolt = some b → b.bars = []
  weft : ∀ wf, s.weft? k w = some wf → wf.records = [] ∧ wf.sliceSince = []
  strand : ∀ i x, Tab.get sk.strands i = some x → x.status = .ready ∨ x.status = .exited

theorem Tab.upd_self_of {α : Type} [DecidableEq α] {t : Tab α} {k : Nat} {f : α → α}
    (h : ∀ x, Tab.get t k = some x → f x = x) : Tab.upd t k f = t := by
  cases hx : Tab.get t k with
  | none => simp only [Tab.upd, hx]
  | some x => exact Tab.upd_of_get hx (h x hx)

namespace State.NobodyWaits
variable {s : State} {k w : Nat} {sk : Skein} (h : s.NobodyWaits k w sk)
include h

theorem modRecords (f : Rejoin → Rejoin) : s.modWeft k w (fun x => { x with records := x.records.map f }) = s := by
  refine State.modSkein_self h.skein ?_
  have hw : Tab.upd sk.wefts w (fun x => { x with records := x.records.map f }) = sk.wefts := Tab.upd_self_of fun x hx => by
    have hr := (h.weft x (by rw [State.weft?, h.skein]; exact hx)).1
    simp only [hr, List.map_nil]
    rw [← hr]
  exact congrArg (fun t => { sk with wefts := t }) hw

theorem settleRecords : s.settleRecords k w = s := by
  unfold State.settleRecords
  cases hw : s.weft? k w with
  | none => rfl
  | some wf => simp only [(h.weft wf hw).1, List.foldl_nil]

theorem barrier_eq (bolt : Bool) (n : Nat) : s.barrier k bolt n = Barrier.start := by
  simp only [State.barrier, h.skein]
  cases bolt with
  | false => simp [h.bars, Cells.get]
  | true => cases hb : s.bolt? sk.bolt with
    | none => rfl
    | some b => simp [h.boltBars b hb, Cells.get]

theorem settleBarrier (fuel : Nat) (bolt : Bool) (n : Nat) : State.settleBarrier fuel s k bolt n = s := by
  cases fuel with
  | zero => rfl
  | succ fuel => simp [State.settleBarrier, State.barComplete, h.barrier_eq, Barrier.start]

theorem settleBarriers (bolt : Bool) (l : List Nat) : l.foldl (fun t n => State.settleBarrier 1025 t k bolt n) s = s :=
  List.foldl_fixed' (fun n => h.settleBarrier 1025 bolt n) l

theorem leaveBarriers (is : List Nat) : s.leaveBarriers k is = s := by
  have hsk (m : Skein → Cells Barrier) (hm : m sk = []) : s.modSkein k (fun x => { x with bars := m x }) = s :=
    State.modSkein_self h.skein (by rw [hm, ← h.bars])
  have hbo (m : Bolt → Cells Barrier) (hm : ∀ b, b.bars = [] → m b = []) : s.modBolt sk.bolt (fun x => { x with bars := m x }) = s := by
    have : Tab.upd s.bolts sk.bolt (fun x => { x with bars := m x }) = s.bolts := Tab.upd_self_of fun b hb => by
      have hn := h.boltBars b hb
      rw [hm b hn, ← hn]
    rw [State.modBolt, this]
  simp only [State.leaveBarriers, h.skein]
  rw [hsk _ (by rw [h.bars]; rfl), hbo _ (fun b hb => by rw [hb]; rfl), h.settleBarriers, h.settleBarriers]

theorem not_held {i : Nat} {x : Strand} (hx : Tab.get sk.strands i = some x) (c : Nat) (v pc : Word) (o : Nat) :
    x.status ≠ .traphold c v pc o := by
  rcases h.strand i x hx with hr | hr <;> simp [hr]

theorem oldestHeld : sk.oldestHeld w = none := by
  refine List.foldl_fixed' (fun i => ?_) (sk.members w)
  cases hx : Tab.get sk.strands i with
  | none => rfl
  | some x => rcases h.strand i x hx with hr | hr <;> simp [hr]

theorem releaseHeld : s.releaseHeld k w = s := State.releaseHeld_none h.skein h.oldestHeld

theorem ready_of_live {i : Nat} {x : Strand} (hx : Tab.get sk.strands i = some x) (hl : x.live = true) : x.status = .ready :=
  (h.strand i x hx).resolve_right (fun he => by simp [Strand.live, he] at hl)

/-- A weft has no live strand, or a READY one. -/
theorem liveOf_cases : sk.liveOf w = [] ∨ ∃ m x, m ∈ sk.liveOf w ∧ Tab.get sk.strands m = some x ∧ x.status = .ready := by
  cases hl : sk.liveOf w with
  | nil => exact .inl rfl
  | cons m l =>
    obtain ⟨-, x, hx, hlive⟩ := Skein.mem_liveOf.mp (hl ▸ List.mem_cons_self .. : m ∈ sk.liveOf w)
    exact .inr ⟨m, x, List.mem_cons_self .., hx, h.ready_of_live hx hlive⟩

theorem settleXlane : s.settleXlane k w = s := by
  have hnone : sk.xlaneReady w = none := by
    rcases h.liveOf_cases with hl | ⟨m, x, hm, hx, hr⟩
    · rw [Skein.xlaneReady_eq, hl]
      rfl
    · exact Skein.xlaneReady_eq_none hm hx hr
  simp only [State.settleXlane, h.skein, Option.bind_some, hnone, Option.map_none]

theorem expireSlices : s.expireSlices k w = s := by
  unfold State.expireSlices
  cases hw : s.weft? k w with
  | none => simp only [h.skein]
  | some wf => simp only [h.skein, (h.weft wf hw).2, List.foldl_nil]

theorem settleSlice : s.settleSlice k w = s := by
  have hnone : sk.sliceReady w = none := by
    rcases h.liveOf_cases with hl | ⟨m, x, hm, hx, hr⟩
    · rw [Skein.sliceReady, hl]
    · exact Skein.sliceReady_eq_none hm hx (by simp [hr])
  simp only [State.settleSlice, h.expireSlices, h.skein, Option.bind_some, hnone]

theorem settleWsync : s.settleWsync k w = s := by
  rcases h.liveOf_cases with hl | ⟨m, x, hm, hx, hr⟩
  · simp only [State.settleWsync, h.skein, hl, List.map_nil]
  · exact State.settleWsync_of_ready h.skein hm hx hr

end State.NobodyWaits

/-- A strand that has ended (R143). -/
def Strand.ended (x : Strand) : Strand := { x with status := .exited, hold := none }

/-- Strands end where nobody waits for them, and another strand of the skein lives on. -/
theorem State.exitStrands_eq {s u : State} {k w m : Nat} {is : List Nat} {sk : Skein} {x : Strand}
    (hu : s.modStrands k is (fun _ => Strand.ended) = u) (h : u.NobodyWaits k w sk) (hm : m ∈ sk.live)
    (hx : Tab.get sk.strands m = some x) (hr : x.status = .ready) : s.exitStrands k w is = u := by
  have hu' : s.modStrands k is (fun _ t => { t with status := .exited, hold := none }) = u := hu
  have hlive : sk.live ≠ [] := List.ne_nil_of_mem hm
  simp only [State.exitStrands, hu', h.modRecords, h.settleRecords, h.leaveBarriers, h.releaseHeld, h.settleXlane, h.settleSlice,
    h.settleWsync, State.settleSetw_of_ready h.skein hm hx hr, h.skein, if_neg hlive]

section
variable {s : State} {sk : Skein} {g : BitVec 3}

/-- With no request of the skein, nothing waits, and a word that releases at core or device scope goes on at once. -/
theorem State.releasing_clear (hn : s.NoRequests) {act ms : List Nat} {w : Option Nat} (hd : s.drainsOf s.cur.skein w = false)
    (body : State → Attempt) : s.releasing act ms w 2 body = body s := by
  have hneed (e : Nat × Req) (he : e ∈ Tab.list s.reqs) : s.relNeed s.cur.skein ms 2 e.2 = false := by
    simp [State.relNeed, hn e he]
  simp only [State.releasing, show ¬ ((2 : Nat) = 3 ∨ (2 : Nat) = 4) by decide, if_false]
  rw [State.waiting_clear _ _ _ _ hneed, hd, if_neg (by simp), if_neg (by decide)]

/-- The strands of the issue set once those that act have ended. -/
def State.afterExit (s : State) (g : BitVec 3) : State :=
  (s.othersGone g).modStrands s.cur.skein (s.actors g) (fun _ => Strand.ended)

theorem State.strandsDone_afterExit (h : s.Issuing sk) : s.StrandsDone (s.afterExit g) g.toNat (fun _ => Strand.ended) := by
  intro k j
  have hnodup : (s.actors g).Nodup := h.nodup.filter _
  rw [State.afterExit, State.strand?_modStrands _ _ hnodup, State.strand?_othersGone h]
  by_cases hk : k = s.cur.skein ∧ j ∈ s.cur.strands
  · obtain ⟨rfl, hj⟩ := hk
    obtain ⟨x, hx⟩ := h.exists_strand hj
    by_cases hg : x.rpr g.toNat = true <;> simp [State.mem_actors hx, hj, hx, hg]
  · rw [if_neg hk, if_neg hk, if_neg (fun hc => hk ⟨hc.1, List.mem_of_mem_filter hc.2⟩)]

theorem State.afterExit_only (s : State) (g : BitVec 3) : s.OnlyStrands (s.afterExit g) :=
  (s.othersGone_only g).trans ((s.othersGone g).onlyStrands_modStrands _ _)

/-- A strand that does not act keeps its status. -/
theorem State.status_afterExit (h : s.Issuing sk) {m : Nat} {x : Strand} (hm : m ∉ s.acting g)
    (hx : s.strand? s.cur.skein m = some x) :
    ∃ y, (s.afterExit g).strand? s.cur.skein m = some y ∧ y.status = x.status := by
  rw [State.strandsDone_afterExit h, hx]
  split_ifs with hc
  · have hg : ¬ x.rpr g.toNat = true := fun hg => hm ((s.mem_acting g m).mpr ⟨hc.2, x, hx, hg⟩)
    exact ⟨x.advance, by rw [Option.map_some, if_neg hg], rfl⟩
  · exact ⟨x, rfl, rfl⟩

/-- Strands that end, and others that go on, leave nobody who waits. -/
theorem State.NobodyWaits.afterExit (h : s.Issuing sk) (hn : s.NobodyWaits s.cur.skein s.cur.weft sk) :
    ∃ sk', (s.afterExit g).NobodyWaits s.cur.skein s.cur.weft sk' ∧ Cells.wf none sk'.strands = true := by
  obtain ⟨hs, -, -, hsk⟩ := s.afterExit_only g
  obtain ⟨sk', hk', hsk'⟩ := hsk sk h.1
  have hweft : (s.afterExit g).weft? s.cur.skein s.cur.weft = s.weft? s.cur.skein s.cur.weft := by
    rw [State.afterExit, State.weft?_modStrands, State.othersGone, State.weft?_modStrands]
  refine ⟨sk', ⟨hk', by rw [hsk']; exact hn.bars, fun b hb => hn.boltBars b ?_, hweft ▸ hn.weft, fun i x hx => ?_⟩, ?_⟩
  · rw [hs, hsk'] at hb
    exact hb
  · have hx' : (s.afterExit g).strand? s.cur.skein i = some x := by rw [State.strand?, hk']; exact hx
    rw [State.strandsDone_afterExit h] at hx'
    split_ifs at hx'
    · obtain ⟨y, hy, rfl⟩ := Option.map_eq_some_iff.mp hx'
      have hstatus := hn.strand i y ((h.strand? i).symm.trans hy)
      split_ifs
      · exact .inr rfl
      · exact hstatus
    · exact hn.strand i x ((h.strand? i).symm.trans hx')
  · have hsk2 : (s.afterExit g).skein? s.cur.skein = some { sk with
        strands := (s.actors g).foldl (fun t i => Tab.upd t i Strand.ended)
          ((s.cur.strands.filter (fun j => !(s.acting g).contains j)).foldl (fun t i => Tab.upd t i Strand.advance) sk.strands) } := by
      rw [State.afterExit, State.modStrands, State.skein?_modSkein, if_pos rfl, State.othersGone, State.modStrands,
        State.skein?_modSkein, if_pos rfl, h.1]
      rfl
    obtain rfl := Option.some.inj (hk'.symm.trans hsk2)
    exact Tab.wf_foldl_upd (fun _ => Strand.ended) _ (Tab.wf_foldl_upd (fun _ => Strand.advance) _ h.strands_wf)

/-- An EXIT of strands for which nobody waits, while another lives on: they end, and nothing else changes. -/
theorem exec_exit {m : Nat} (h : s.CanRun sk (.exit g)) (hr : s.NoRequests)
    (hd : s.drainsOf s.cur.skein (some s.cur.weft) = false) (hn : s.NobodyWaits s.cur.skein s.cur.weft sk)
    (hm : m ∈ sk.live) (hma : m ∉ s.acting g) :
    goesTo (exec (.exit g) s) (fun t => s.StrandsDone t g.toNat (fun _ => Strand.ended) ∧ s.OnlyStrands t) := by
  refine State.word_strandsDone h (t := s.afterExit g) ?_ (State.strandsDone_afterExit h.1) (s.afterExit_only g)
  by_cases hact : s.acting g = []
  · have hgone : s.othersGone g = s.goneOn := by
      rw [State.othersGone, hact, List.filter_eq_self.mpr (by simp)]
      rfl
    refine (if_pos hact).trans (congrArg (true, ·) ?_)
    rw [State.afterExit, State.actors_eq_acting, hact, hgone]
    exact (State.modSkein_self h.1.skein?_goneOn rfl).symm
  · refine (if_neg hact).trans ?_
    rw [State.releasing_clear hr hd, State.waiting_clear _ _ _ _ (fun e he => by simp [hr e he])]
    refine congrArg (true, ·) ((if_neg ?_).trans ?_)
    · exact fun hc => hact ((s.actors_eq_acting g).symm.trans hc)
    · obtain ⟨sk', hn', hwf⟩ := hn.afterExit (g := g) h.1
      obtain ⟨x, hx, hlive⟩ := (Skein.mem_live h.1.strands_wf).mp hm
      obtain ⟨y, hy, hs⟩ := State.status_afterExit (g := g) h.1 hma ((h.1.strand? m).trans hx)
      have hy' : Tab.get sk'.strands m = some y := by rw [State.strand?, hn'.skein] at hy; exact hy
      have hready : y.status = .ready := hs.trans (hn.ready_of_live hx hlive)
      exact State.exitStrands_eq rfl hn' ((Skein.mem_live hwf).mpr ⟨y, hy', by simp [Strand.live, hready]⟩) hy' hready

end

/-- Settles O22: WAITT sleeps to its deadline, YIELD goes on, EXIT ends strands that nobody waits for. -/
theorem exitWaitYield : Obligations.ExitWaitYield := by
  unfold Obligations.ExitWaitYield
  intro g a
  refine ⟨runsWhere_waitt g a, fun s sk h ho => exec_yield h ho, fun s sk m h hr hd hb hbb hw hs hm hma => ?_⟩
  obtain ⟨t, ht, hdone, honly⟩ := exec_exit h hr hd
    ⟨h.1.1, hb, hbb, hw, fun i x hx => hs i x ((h.1.strand? i).trans hx)⟩ hm hma
  exact ⟨t, ht, honly, hdone⟩

end Sys2Proof.Machine
end

section
/-! The active sets, the instruction buffer and the deadlines of strands (R119, R130, R131, R140, R144). -/

namespace Sys2Proof.Machine

/-! ### Moving strands alone -/

/-- Strands and wefts move: no register of a strand changes, and nothing outside the skeins; the wefts keep what `p` reads of
them. -/
structure State.MovesKeeping {β : Type} (p : Weft → β) (s t : State) : Prop where
  only : t = { s with skeins := t.skeins }
  registers : s.RegistersKept t
  wefts : ∀ a b, (t.weft? a b).map p = (s.weft? a b).map p

namespace State.MovesKeeping
variable {β : Type} {p : Weft → β} {s t u : State}

theorem refl (p : Weft → β) (s : State) : s.MovesKeeping p s := ⟨rfl, State.registersKept_of_strand? (fun _ _ => rfl), fun _ _ => rfl⟩

theorem trans (h : s.MovesKeeping p t) (h' : t.MovesKeeping p u) : s.MovesKeeping p u :=
  ⟨by rw [h'.only, h.only], h.registers.trans h'.registers, fun a b => (h'.wefts a b).trans (h.wefts a b)⟩

theorem clock (h : s.MovesKeeping p t) : t.clock = s.clock := by rw [h.only]

/-- A weft that is there still is. -/
theorem exists_weft (h : s.MovesKeeping p t) {a b : Nat} {wf : Weft} (hw : s.weft? a b = some wf) :
    ∃ y, t.weft? a b = some y ∧ p y = p wf := by
  have := h.wefts a b
  rw [hw] at this
  exact Option.map_eq_some_iff.mp this

/-- Wefts that keep something are there. -/
theorem weaken (h : s.MovesKeeping p t) : s.MovesKeeping (fun _ => ()) t := by
  refine ⟨h.only, h.registers, fun a b => ?_⟩
  have hw := congrArg (Option.map (fun _ => ())) (h.wefts a b)
  rwa [Option.map_map, Option.map_map] at hw

theorem foldl {γ : Type} {f : State → γ → State} (hf : ∀ t b, s.MovesKeeping p t → s.MovesKeeping p (f t b)) (l : List γ)
    (h : s.MovesKeeping p t) : s.MovesKeeping p (l.foldl f t) := by
  induction l generalizing t with
  | nil => exact h
  | cons b l ih => exact ih (hf t b h)

theorem modStrands (h : s.MovesKeeping p t) (k : Nat) (is : List Nat) {f : Nat → Strand → Strand}
    (hf : ∀ i x, (f i x).registers = x.registers) : s.MovesKeeping p (t.modStrands k is f) :=
  h.trans ⟨rfl, t.registersKept_modStrands k is hf, fun a b => congrArg _ (t.weft?_modStrands k a b is f)⟩

theorem modWeft (h : s.MovesKeeping p t) (k w : Nat) {f : Weft → Weft} (hf : ∀ x, p (f x) = p x) :
    s.MovesKeeping p (t.modWeft k w f) := by
  refine h.trans ⟨rfl, t.registersKept_modWeft k w f, fun a b => ?_⟩
  rw [State.weft?_modWeft]
  split_ifs
  · rw [Option.map_map]
    exact congrArg (Option.map · _) (funext hf)
  · rfl

end State.MovesKeeping

/-! ### The entries of the instruction buffer (R130, R131) -/

/-- A strand after the groups at some PCs were given an entry. -/
def Strand.woken (at? : Word → Bool) (x : Strand) : Strand :=
  match x.status with
  | .pathwait _ => if at? x.pc then { x with status := .ready } else x
  | _ => x

theorem Strand.registers_woken (at? : Word → Bool) (x : Strand) : (x.woken at?).registers = x.registers := by
  unfold Strand.woken
  split
  · split_ifs <;> rfl
  · rfl

theorem State.wakePath_eq {s : State} {k : Nat} {sk : Skein} (hk : s.skein? k = some sk) (w : Nat) (at? : Word → Bool) :
    s.wakePath k w at? = s.modStrands k (sk.members w) (fun _ => Strand.woken at?) := by
  rw [State.wakePath, hk]
  rfl

namespace State.MovesKeeping
variable {β : Type} {p : Weft → β} {s t : State}

theorem wakePath (h : s.MovesKeeping p t) (k w : Nat) (at? : Word → Bool) : s.MovesKeeping p (t.wakePath k w at?) := by
  cases hk : t.skein? k with
  | none => rwa [State.wakePath, hk]
  | some sk => exact State.wakePath_eq hk w at? ▸ h.modStrands k _ (fun _ x => x.registers_woken at?)

theorem toPathwait (h : s.MovesKeeping p t) (k : Nat) (is : List Nat) : s.MovesKeeping p (t.toPathwait k is) :=
  h.modStrands k is (fun _ _ => rfl)

theorem modEntries (h : s.MovesKeeping Weft.activeSince t) (k w : Nat) (es : Weft → List BufEntry) :
    s.MovesKeeping Weft.activeSince (t.modWeft k w (fun x => { x with entries := es x })) := h.modWeft k w (fun _ => rfl)

theorem giveEntry {u : State} (h : s.MovesKeeping Weft.activeSince t) {c k w : Nat} {pc : Word} (hu : t.giveEntry c k w pc = some u) :
    s.MovesKeeping Weft.activeSince u := by
  unfold State.giveEntry at hu
  split at hu
  · cases hu
  · simp only at hu
    split_ifs at hu <;> cases hu <;> exact (h.modEntries k w _).wakePath k w _

theorem handOut (h : s.MovesKeeping Weft.activeSince t) (c n : Nat) : s.MovesKeeping Weft.activeSince (t.handOut c n) := by
  induction n generalizing t with
  | zero => exact h
  | succ n ih =>
    unfold State.handOut
    split
    · exact h
    · split
      · exact h
      · next hu => exact ih (h.giveEntry hu)

/-- Bringing a weft's entries up to date moves it into no active set, and out of none. -/
theorem regroupWeft (h : s.MovesKeeping Weft.activeSince t) (c k w : Nat) :
    s.MovesKeeping Weft.activeSince (t.regroupWeft c k w) := by
  unfold State.regroupWeft
  split
  · refine State.MovesKeeping.foldl (fun u pc hu => ?_) _ (((h.modEntries k w _).wakePath k w _).handOut c 41)
    split
    · next hv => exact hu.giveEntry hv
    · exact hu.toPathwait k _
  · exact h

theorem leaveActive (h : s.MovesKeeping (fun _ => ()) t) (k w : Nat) : s.MovesKeeping (fun _ => ()) (t.leaveActive k w) :=
  (h.modWeft k w (fun _ => rfl)).wakePath k w _

theorem refresh (h : s.MovesKeeping (fun _ => ()) t) (c : Nat) : s.MovesKeeping (fun _ => ()) (t.refresh c) := by
  refine State.MovesKeeping.foldl (fun u e hu => ?_) _ (State.MovesKeeping.foldl (fun u e hu => ?_) _ h)
  · split_ifs
    · exact hu.leaveActive _ _
    · exact hu
  · split_ifs
    · exact hu.trans (((State.MovesKeeping.refl _ u).regroupWeft _ _ _).weaken)
    · exact hu

end State.MovesKeeping

/-! ### The events (R119, R130, R131, R140, R144) -/

section
variable {s : State} {k w : Nat} {sk : Skein} {wf : Weft} (hk : s.skein? k = some sk) (hw : s.weft? k w = some wf)

include hk hw in
/-- A weft with a READY strand enters an active set with room. -/
theorem exec_activeSetEntry {c : Nat} (hc : sk.core = some c) (hi : s.mayIssue sk.ctx = true) (hn : wf.activeSince = none)
    (hr : sk.hasReady w = true) (hroom : (s.refresh c).activeCount c < 8) :
    MovesStrands (.activeSetEntry k w) s (fun t => ∃ y, t.weft? k w = some y ∧ y.activeSince = some s.clock) := by
  have hrefresh := (State.MovesKeeping.refl (fun _ => ()) s).refresh c
  set t := (s.refresh c).modWeft k w (fun x => { x with activeSince := some s.clock }) with ht
  have hmod : s.MovesKeeping (fun _ => ()) t := hrefresh.modWeft k w (fun _ => rfl)
  have hgroup := (State.MovesKeeping.refl Weft.activeSince t).regroupWeft c k w
  obtain ⟨x, hx, -⟩ := hrefresh.exists_weft hw
  have htw : t.weft? k w = some { x with activeSince := some s.clock } := by rw [ht, State.weft?_modWeft, if_pos ⟨rfl, rfl⟩, hx]; rfl
  obtain ⟨y, hy, hya⟩ := hgroup.exists_weft htw
  have hmoves := hmod.trans hgroup.weaken
  refine ⟨t.regroupWeft c k w, ?_, hmoves.only, hmoves.registers, y, hy, hya⟩
  change execActiveSetEntry k w s = _
  simp only [execActiveSetEntry, hk, hw, hc]
  rw [if_pos ⟨by rw [hn]; rfl, hr, hi, hroom⟩]

include hk in
theorem State.skein?_modWeft (f : Weft → Weft) : (s.modWeft k w f).skein? k = some { sk with wefts := Tab.upd sk.wefts w f } := by
  rw [State.modWeft, State.skein?_modSkein, if_pos rfl, hk]
  rfl

include hk in
/-- The members of a weft whose width stays, woken. -/
theorem State.wakePath_modWeft {f : Weft → Weft} (hf : ∀ x, (f x).g = x.g) (at? : Word → Bool) :
    (s.modWeft k w f).wakePath k w at? = (s.modWeft k w f).modStrands k (sk.members w) (fun _ => Strand.woken at?) := by
  rw [State.wakePath_eq (State.skein?_modWeft hk f), sk.members_upd w w hf]

include hk in
theorem State.leaveActive_eq : s.leaveActive k w = (s.modWeft k w (fun x => { x with activeSince := none, entries := [] })).modStrands
    k (sk.members w) (fun _ => Strand.woken (fun _ => true)) :=
  State.wakePath_modWeft hk (f := fun x => { x with activeSince := none, entries := [] }) (fun _ => rfl) _

include hk hw in
/-- A weft that has had its time in the active set leaves it. -/
theorem exec_activeSetTimeout {c since : Nat} (hc : sk.core = some c) (hi : s.mayIssue sk.ctx = true)
    (hs : wf.activeSince = some since) (ht : since + 1024 ≤ s.clock) (ho : s.othersReady c k w true = true) :
    MovesStrands (.activeSetTimeout k w) s (fun t =>
      t.weft? k w = some { wf with activeSince := none, entries := [] } ∧
      ∀ m j, t.strand? m j = if m = k ∧ j ∈ sk.members w then (s.strand? m j).map (Strand.woken (fun _ => true))
        else s.strand? m j) := by
  have hmoves := ((State.MovesKeeping.refl (fun _ => ()) s).leaveActive k w)
  have hexec : exec (.activeSetTimeout k w) s = .next (s.leaveActive k w) := by
    change execActiveSetTimeout k w s = _
    simp only [execActiveSetTimeout, hk, hw, hc, hs]
    exact if_pos ⟨ht, hi, ho⟩
  refine ⟨_, hexec, hmoves.only, hmoves.registers, ?_⟩
  rw [State.leaveActive_eq hk]
  refine ⟨?_, fun m j => ?_⟩
  · rw [State.weft?_modStrands, State.weft?_modWeft, if_pos ⟨rfl, rfl⟩, hw]
    rfl
  · rw [State.strand?_modStrands _ _ (sk.members_nodup w), State.strand?_modWeft]

/-- A strand of a weft whose buffer entry went from one PC to another. -/
def Strand.handedOver (old pc : Word) (clock : Nat) (x : Strand) : Strand :=
  match x.status with
  | .pathwait _ => if x.pc = pc then { x with status := .ready } else x
  | .ready => if x.pc = old then { x with status := .pathwait clock } else x
  | _ => x

/-- A weft whose buffer entry has been given to a PC (R131). -/
def Weft.entryTaken (old : BufEntry) (pc : Word) (clock : Nat) (x : Weft) : Weft :=
  { x with entries := x.entries.map (fun e => if e == old then { e with pc := pc, since := clock, lastIssue := clock } else e) }

/-- The READY strands of a weft at a PC. -/
def Skein.readyAt (sk : Skein) (w : Nat) (pc : Word) : List Nat := ((sk.readyOf w).filter (fun e => e.2 == pc)).map Prod.fst

theorem Skein.mem_readyAt {pc : Word} {j : Nat} : j ∈ sk.readyAt w pc ↔
    j ∈ sk.members w ∧ ∃ x, Tab.get sk.strands j = some x ∧ x.status = .ready ∧ x.pc = pc := by
  simp only [Skein.readyAt, List.mem_map, List.mem_filter, Skein.mem_readyOf, beq_iff_eq]
  constructor
  · rintro ⟨e, ⟨⟨hm, x, hx, hr, hp⟩, he⟩, rfl⟩
    exact ⟨hm, x, hx, hr, hp.trans he⟩
  · rintro ⟨hm, x, hx, hr, hp⟩
    exact ⟨(j, pc), ⟨⟨hm, x, hx, hr, hp⟩, rfl⟩, rfl⟩

theorem Skein.readyAt_nodup (sk : Skein) (w : Nat) (pc : Word) : (sk.readyAt w pc).Nodup :=
  (sk.readyOf_nodup w).sublist (List.filter_sublist.map _)

include hk in
/-- A change of the members of a weft, then one of those that a property of the strand selected. -/
theorem State.strand?_modStrands_selected {u : State} {f g : Strand → Strand} (hu : ∀ m j, u.strand? m j =
      if m = k ∧ j ∈ sk.members w then (s.strand? m j).map g else s.strand? m j)
    {l : List Nat} (hn : l.Nodup) {p : Strand → Prop} [DecidablePred p]
    (hl : ∀ j, j ∈ l ↔ j ∈ sk.members w ∧ ∃ x, Tab.get sk.strands j = some x ∧ p x) (m j : Nat) :
    (u.modStrands k l (fun _ => f)).strand? m j = if m = k ∧ j ∈ sk.members w then
      (s.strand? m j).map (fun x => if p x then f (g x) else g x) else s.strand? m j := by
  rw [State.strand?_modStrands _ _ hn, hu]
  by_cases hm : m = k ∧ j ∈ sk.members w
  · obtain ⟨rfl, hj⟩ := hm
    have hget : Tab.get sk.strands j = s.strand? m j := by rw [State.strand?, hk]; rfl
    simp only [hl, hj, hget, true_and, if_true]
    cases hx : s.strand? m j with
    | none => simp
    | some x => by_cases hp : p x <;> simp [hp]
  · rw [if_neg (fun hc => hm ⟨hc.1, ((hl j).mp hc.2).1⟩), if_neg hm, if_neg hm]

/-- A READY strand at the old PC waits for an entry, and one at the new PC that waited no longer does. -/
theorem Strand.handedOver_eq (old pc : Word) (clock : Nat) (x : Strand) : x.handedOver old pc clock =
    if x.status = .ready ∧ x.pc = old then { x.woken (· == pc) with status := .pathwait clock } else x.woken (· == pc) := by
  unfold Strand.handedOver Strand.woken
  cases hx : x.status <;> simp

include hk in
/-- The strands of a weft whose entry goes from one PC to another. -/
theorem State.strand?_entryTaken (old : BufEntry) (pc : Word) (m j : Nat) :
    (((s.modWeft k w (Weft.entryTaken old pc s.clock)).wakePath k w (· == pc)).toPathwait k (sk.readyAt w old.pc)).strand? m j =
      if m = k ∧ j ∈ sk.members w then (s.strand? m j).map (Strand.handedOver old.pc pc s.clock) else s.strand? m j := by
  rw [State.wakePath_modWeft hk (f := Weft.entryTaken old pc s.clock) (fun _ => rfl), State.toPathwait,
    State.strand?_modStrands_selected hk (g := Strand.woken (· == pc)) (fun a b => ?_) (sk.readyAt_nodup w old.pc)
      (fun _ => Skein.mem_readyAt)]
  · exact if_congr Iff.rfl (congrArg (Option.map · _) (funext fun x => (x.handedOver_eq old.pc pc s.clock).symm)) rfl
  · rw [State.strand?_modStrands _ _ (sk.members_nodup w), State.strand?_modWeft]

include hk hw in
/-- The group at a PC that has waited its time takes the weft's only entry. -/
theorem exec_pathwaitTimeout {since : Nat} {pc : Word} {old : BufEntry} (hi : s.mayIssue sk.ctx = true)
    (hs : wf.activeSince = some since) (he : wf.entries = [old])
    (hp : (sk.pathGroups w).any (fun g => g.1 == pc && decide (g.2 + 256 ≤ s.clock)) = true) :
    MovesStrands (.pathwaitTimeout k w pc) s (fun t =>
      t.weft? k w = some { wf with entries := [{ old with pc := pc, since := s.clock, lastIssue := s.clock }] } ∧
      ∀ m j, t.strand? m j = if m = k ∧ j ∈ sk.members w then (s.strand? m j).map (Strand.handedOver old.pc pc s.clock)
        else s.strand? m j) := by
  have hexec : exec (.pathwaitTimeout k w pc) s = .next
      (((s.modWeft k w (Weft.entryTaken old pc s.clock)).wakePath k w (· == pc)).toPathwait k (sk.readyAt w old.pc)) := by
    change execPathwaitTimeout k w pc s = _
    simp only [execPathwaitTimeout, hk, hw, hs, he]
    exact if_pos ⟨rfl, hi, hp⟩
  have hmoves := (((State.MovesKeeping.refl Weft.activeSince s).modWeft k w (f := Weft.entryTaken old pc s.clock)
    (fun _ => rfl)).wakePath k w (· == pc)).toPathwait k (sk.readyAt w old.pc)
  refine ⟨_, hexec, hmoves.only, hmoves.registers, ?_, State.strand?_entryTaken hk old pc⟩
  rw [State.wakePath_modWeft hk (f := Weft.entryTaken old pc s.clock) (fun _ => rfl), State.toPathwait, State.weft?_modStrands,
    State.weft?_modStrands, State.weft?_modWeft, if_pos ⟨rfl, rfl⟩, hw, Option.map_some, Weft.entryTaken, he, List.map_singleton,
    if_pos (beq_self_eq_true old)]

include hk hw in
/-- A rejoin record whose deadline has come releases its strands. -/
theorem exec_joinTimeout {c : Nat} {r : Rejoin} {dl : Nat} (hc : sk.core = some c) (hi : s.mayIssue sk.ctx = true)
    (hr : wf.records = [r]) (hd : r.deadline = some dl) (ht : dl ≤ s.clock) :
    MovesStrands (.joinTimeout k w r.target) s (fun t => t.weft? k w = some { wf with records := [] } ∧
      ∀ m j, t.strand? m j = if m = k ∧ j ∈ sk.members w then (s.strand? m j).map (Strand.releasedFrom r.target)
        else s.strand? m j) := by
  have hfind : [r].find? (fun y => y.target == r.target) = some r := List.find?_cons_of_pos (beq_self_eq_true _)
  have hissues : s.issues k = true := by simp only [State.issues, hk, hc, hi]; rfl
  refine ⟨s.releaseRecord k w r.target, ?_, ?_, State.registersKept_releaseRecord hk w r.target, ?_, ?_⟩
  · change execJoinTimeout k w r.target s = _
    simp only [execJoinTimeout, hw, Option.bind_some, hr, hfind, hd]
    rw [if_pos ⟨ht, hissues⟩]
  · rw [State.releaseRecord_eq hk]
    rfl
  · rw [State.weft?_releaseRecord hk, hw, Option.map_some, hr]
    simp
  · exact State.strand?_releaseRecord hk w r.target

/-- A strand at a SLICE that ends (R119). -/
def Strand.sliceEnded (pc : Word) (x : Strand) : Strand := if x.status = .rendezvous .slice ∧ x.pc = pc then x.resumed else x

/-- The strands that wait at a SLICE are members of its weft. -/
theorem Skein.mem_sliceAt_iff {pc : Word} {j : Nat} : j ∈ sk.sliceAt w pc ↔
    j ∈ sk.members w ∧ ∃ x, Tab.get sk.strands j = some x ∧ x.status = .rendezvous .slice ∧ x.pc = pc := by
  rw [Skein.mem_sliceAt, Skein.mem_liveOf]
  constructor
  · rintro ⟨⟨hm, -⟩, hx⟩
    exact ⟨hm, hx⟩
  · rintro ⟨hm, x, hx, hr, hp⟩
    exact ⟨⟨hm, x, hx, by simp [Strand.live, hr]⟩, x, hx, hr, hp⟩

include hk in
theorem State.strand?_endSlice_timeout (pc : Word) (m j : Nat) : (s.endSlice k w pc false).strand? m j =
    if m = k ∧ j ∈ sk.members w then (s.strand? m j).map (Strand.sliceEnded pc) else s.strand? m j := by
  rw [State.endSlice_eq hk, State.strand?_modWeft]
  exact State.strand?_modStrands_selected hk (g := id) (fun _ _ => by simp) ((sk.liveOf_nodup w).filter _)
    (fun _ => Skein.mem_sliceAt_iff) m j

include hk hw in
/-- A SLICE at which strands have waited JTIMEOUT goes on with those that came. -/
theorem exec_sliceTimeout {pc : Word} {since : Nat} (hi : s.mayIssue sk.ctx = true) (hs : wf.sliceSince = [(pc, since)])
    (ht : since + sk.jtimeout ≤ s.clock) :
    MovesStrands (.sliceTimeout k w) s (fun t => t.weft? k w = some { wf with sliceSince := [] } ∧
      ∀ m j, t.strand? m j = if m = k ∧ j ∈ sk.members w then (s.strand? m j).map (Strand.sliceEnded pc) else s.strand? m j) := by
  have hmoves := ((State.MovesKeeping.refl (fun _ => ()) s).modStrands k (sk.sliceAt w pc) (f := fun _ => Strand.resumed)
    (fun _ _ => rfl)).modWeft k w (f := fun x => { x with sliceSince := x.sliceSince.filter (fun e => e.1 != pc) }) (fun _ => rfl)
  rw [← State.endSlice_eq hk] at hmoves
  refine ⟨_, ?_, hmoves.only, hmoves.registers, ?_, State.strand?_endSlice_timeout hk pc⟩
  · change execSliceTimeout k w s = _
    simp only [execSliceTimeout, hk, hi, if_true, State.expireSlices, hw, hs, List.foldl_cons, List.foldl_nil, if_pos ht]
  · rw [State.endSlice_eq hk, State.weft?_modWeft, if_pos ⟨rfl, rfl⟩, State.weft?_modStrands, hw, Option.map_some, hs]
    simp

include hk in
/-- The strands of a weft whose deadlines have come wake together. -/
theorem exec_waittDeadline {i dl : Nat} {x : Strand} (hx : s.strand? k i = some x) (hs : x.status = .sleeping dl)
    (ht : dl ≤ s.clock) (hwi : (sk.weftOf i).map Prod.fst = some w) :
    MovesStrands (.waittDeadline k i) s (fun t => ∀ m j, t.strand? m j =
      if m = k ∧ j ∈ sk.members w then (s.strand? m j).map (fun y => y.wake s.clock) else s.strand? m j) := by
  obtain ⟨wf, hwf, rfl⟩ := Option.map_eq_some_iff.mp hwi
  have hget : Tab.get sk.strands i = some x := by rw [State.strand?, hk] at hx; exact hx
  refine ⟨s.modStrands k (sk.members wf.1) (fun _ y => y.wake s.clock), ?_, rfl, s.registersKept_modStrands k _ (fun _ y => ?_),
    State.strand?_modStrands s k (sk.members_nodup wf.1) _⟩
  · change execWaittDeadline k i s = _
    simp only [execWaittDeadline, hk, Option.bind_some, hget, hwf, Option.map_some, hs]
    rw [if_pos ht]
  · unfold Strand.wake
    split
    · split_ifs <;> rfl
    · rfl

end

/-- Settles O49: entry into the active set and the ends of PATHWAIT, JOIN, SLICE and WAITT, event by event. -/
theorem coreTimers : Obligations.CoreTimers := by
  unfold Obligations.CoreTimers
  intro s k w c since pc sk wf hk hw hc hi weft strands
  refine ⟨exec_activeSetEntry hk hw hc hi, fun hs ht ho => ?_, fun old hs he hp => ?_, fun r dl hr ht hd hdl => ?_, fun hs ht => ?_,
    fun i dl x hx hs ht hwi => exec_waittDeadline hk hx hs ht hwi⟩
  · obtain ⟨t, ht, ho, hr, hwt, hst⟩ := exec_activeSetTimeout hk hw hc hi hs ht ho
    exact ⟨t, ht, ho, hr, ⟨_, hwt, rfl, rfl⟩, hst⟩
  · obtain ⟨t, ht, ho, hr, hwt, hst⟩ := exec_pathwaitTimeout hk hw hi hs he hp
    exact ⟨t, ht, ho, hr, ⟨_, hwt, rfl⟩, hst⟩
  · subst ht
    obtain ⟨t, ht, ho, hr, hwt, hst⟩ := exec_joinTimeout hk hw hc hi hr hd hdl
    exact ⟨t, ht, ho, hr, ⟨_, hwt, rfl⟩, hst⟩
  · obtain ⟨t, ht, ho, hr, hwt, hst⟩ := exec_sliceTimeout hk hw hi hs ht
    exact ⟨t, ht, ho, hr, ⟨_, hwt, rfl, rfl⟩, hst⟩

end Sys2Proof.Machine
end
